-- ==== Sys2Proof/Word.lean ====
section
/-! DEFINITION. The word types of the module and their plainest arithmetic. -/

namespace Sys2Proof

/-- One byte of a memory, a frame or an image (R14: every multi-byte field is little-endian). -/
abbrev Byte := BitVec 8

/-- A sequence of bytes in ascending address order. -/
abbrev Bytes := List Byte

/-- A control-space register (every register is 32 bits wide). -/
abbrev Word := BitVec 32

/-- A sequencer register, a physical or virtual address, a timebase value. -/
abbrev DWord := BitVec 64

end Sys2Proof
end

