-- ==== Sys2Proof/Syntax.lean ====
section
/-! DEFINITION. The commands of the module: one constructor of `Instr` for each row of
spec/opcode_table.json, with the row's operands.  A command is an event at the module's boundary (a frame,
a pin edge, the end of a timer, a register write) or one instruction of a running sequencer context. -/

namespace Sys2Proof

/-- The two ends of the low-level frame sequence of the twin and cascade links (R314, R326). -/
structure FrameHdr where
  tseq : Nat
  tack : Nat
  good : Bool      -- the frame's CRC-32C holds (R315)
  deriving DecidableEq, Repr

/-- R326: what a cascade frame adds to the envelope of R314. -/
structure CscHdr where
  down : Bool      -- true: it arrived on the down port (from below); false: on the up port (from the lead side)
  tseq : Nat
  tack : Nat
  origin : Nat
  ltkn : Nat
  good : Bool      -- the frame's CRC-32C holds (R315, R326)
  deriving DecidableEq, Repr

/-- R258: a swath plan. -/
structure SwathPlan where
  layer : Nat
  swath : Nat
  dir : Nat
  pass : Nat
  lineFirst : Int
  lineLast : Int
  indexOffset : Int
  speed : Nat
  swtag : Nat
  indexTarget : Int
  deriving DecidableEq, Repr

/-- R20: a scree-log entry. -/
structure ScreeEntry where
  kind : Nat
  ctx : Nat
  rowmask : BitVec 16
  layer : Nat
  swath : Nat
  firstCol : Nat
  lastCol : Nat
  source : Nat
  firstLine : Int
  lastLine : Int
  count : Nat
  seq : Nat
  deriving DecidableEq, Repr

/-- R85, R104: the settings that an activation point carries. -/
inductive ModeSetting where
  | bankSel (group bank : Nat)
  | rowMap (map : BitVec 64)
  | maskSel (group mask passCount : Nat)
  | halftone (group dither gain eshift phaseA phaseB : Nat)
  | binding (ctx id curve material : Nat)
  deriving DecidableEq, Repr

/-- R40: a build position (layer, swath, line). -/
structure BuildPos where
  layer : Nat
  swath : Nat
  line : Int
  deriving DecidableEq, Repr

/-- R505: what the loader reads from the flash's SFDP table: the density as a power of two, and for each of the
modes 1-1-1, 1-1-4 and 1-4-4 the highest rate in kHz that the table declares, if it declares the mode. -/
structure Sfdp where
  log2Bytes : Nat
  khz111 : Option Nat
  khz114 : Option Nat
  khz144 : Option Nat
  deriving DecidableEq, Repr

/-- R380: one SRAM element that failed memory BIST. -/
structure MbistFail where
  pool : Nat
  column : Bool
  index : Nat
  nominal : Bool
  margin : Bool
  deriving DecidableEq, Repr

/-- R553: what the engine measures of one converter: the deviation of each of its 20 ladder segments, the offset of
each of its 16 cells, and the residual gain error (0.01 %) and offset (LSB) after the selection. -/
structure ConvMeas where
  ladder : List Int
  cells : List Int
  gainErr : Int
  offset : Int
  deriving DecidableEq, Repr

/-- R556: the impedance in milliohm of one side of a lane with 1, 2, … 40 legs, positive and negative side. -/
structure TermMeas where
  pos : List Nat
  neg : List Nat
  deriving DecidableEq, Repr

/-- R558: everything the first full calibration measures, with REFV in 0.1 mV. -/
structure CalMeas where
  refv : Nat
  enc : List ConvMeas
  bemf : List ConvMeas
  delay : List (List Nat)
  term : List TermMeas
  deriving DecidableEq, Repr

/-- R230: one record of a FIRE_ACK frame. -/
structure FireRec where
  lseq : Nat
  fired : BitVec 16
  lost : BitVec 16
  deriving DecidableEq, Repr

/-- R230: one record of a TEMP frame. -/
structure TempRec where
  head : Nat
  soft : Bool
  hard : Bool
  rowmask : BitVec 16
  temp : Int
  col0 : Nat
  col1 : Nat
  deriving DecidableEq, Repr

/-- R316: one record of a TXREC frame. -/
structure TxRec where
  layer : Nat
  swath : Nat
  kind : Nat
  line : Int
  lseq : Nat
  ridges : BitVec 16
  deriving DecidableEq, Repr

/-- R199, R316: the result of one actuator in a mirrored drop-test record. -/
structure TestResult where
  act : Nat
  result : Nat
  lateness : Int
  deriving DecidableEq, Repr

/-- R316: the body of an ACTREC frame. -/
inductive ActRec where
  | test (t0 : Nat) (shots : List Nat) (results : List TestResult)
  | trimAck (link : Nat)
  | commit
  | refusal
  | edit (idx val : BitVec 32)
  deriving DecidableEq, Repr

/-- R316: one axis of an AXIS frame. -/
structure AxisState where
  pos : Int
  vel : Int
  acc : Int
  deriving DecidableEq, Repr

/-- R449, R462: what a CSI-2 long packet holds. -/
structure CsiPacket where
  vc : Nat
  dataType : Nat
  wordCount : Nat
  data : Bytes
  /-- 0 header good; 1 header corrected; 2 header uncorrectable -/
  header : Nat
  crcGood : Bool
  deriving DecidableEq, Repr

/-- R440: the header of a job-link DATA frame. -/
structure JobHdr where
  first : Bool
  last : Bool
  credit : Nat
  fseq : Nat
  fack : Nat
  deriving DecidableEq, Repr

/-- The links that the lane layer brings up (R422): a head link, a job link, the twin link, the cascade ports. -/
inductive LinkId where
  | head (l : Nat)
  | job (l : Nat)
  | twin
  | cup
  | cdn
  deriving DecidableEq, Repr

/-- R74 step 7: where the segment keeper places what it makes of a segment; the spec leaves the places to the
keeper.  `bodyVa`/`bodyPa`: the inflated body; `dirVa`/`dirPa`: the record directory; `bodyLeaves`, `dirLeaves`: the physical
addresses of the level-3 entries that map their 4 KiB pages, in page order; `tables`: the entries above them that the keeper
sets (physical address, and that of the table it points to). -/
structure Placement where
  bodyVa : Nat
  bodyPa : Nat
  dirVa : Nat
  dirPa : Nat
  bodyLeaves : List Nat
  dirLeaves : List Nat
  tables : List (Nat × Nat)
  deriving DecidableEq, Repr

/-- R33: the line whose grid point POS0 crosses, and the PCLK sample. -/
structure Crossing where
  line : Int
  t : Nat
  deriving DecidableEq, Repr

/-- R219, R237: how a head status frame arrived: over port B, and good (its CRC, its TYPE and no ABT). -/
structure StatusHdr where
  portB : Bool
  good : Bool
  deriving DecidableEq, Repr

/-- R432, R433: an eye window: the code errors in it, and how many COM, PAD and LMK symbols it ends with. -/
structure EyeWindow where
  codeErrs : Nat
  idle : Nat
  deriving DecidableEq, Repr

/-- The commands: one constructor per row of spec/opcode_table.json, in the table's order.
`w` is the context that writes (0 never writes); `c` is the context an instruction runs in; `t` is a PCLK sample. -/
inductive Instr where
  -- start-up and monitors
  | powerUp (cold islandKept : Bool)
  | rstNLow
  | modEnLow
  | presentNRise
  | rpllLock
  | rpllLockTimeout
  | lbistDone (failRidges failPairs : List Nat) (otherFail : Bool)
  | mbistDone (fails : List MbistFail)
  | dramInitDone (trainFail : List Nat) (zeroFail : Bool)
  | imageVerified (sfdp : Option Sfdp) (slotA slotB : Bytes)
  | keysLoaded
  | loadDone
  | calDone (m : CalMeas)
  | lanesDone
  | lanesTimeout
  | vmonEvent
  | clkMonEvent
  | rpllUnlock
  | dieHot (temp : Int)
  -- faults, safety, self-test
  | faultMessage (src kind ctx : Nat) (detail : BitVec 42)
  | fcoErrclr (v : Word)
  | fcoInject (v : Word)
  | fcoLogTail (v : Word)
  | interlockDemand (pair : Nat) (chanB : Bool) (t : Nat)
  | interlockPermit (pair : Nat) (chanB : Bool) (t : Nat)
  | discrepancy (pair : Nat) (t : Nat)
  | gateRb
  | safXchk
  | safRearm (v : Word) (t : Nat)
  | bistSliceDone (kind : Nat) (signatureMatches : Bool)
  | bistBudgetCut (kind : Nat)
  -- job link
  | jobDataFrame (l : Nat) (h : JobHdr) (body : Bytes) (good : Bool)
  | jobIdleAck (l fack credit : Nat)
  | jobRetxTimeout (l : Nat)
  | jobIdleDue (l : Nat)
  | jobLinkSilent (l : Nat)
  | segment (l : Nat) (msg : Bytes)
  | segmentStored (x : Nat)
  | screeAck (l : Nat) (seqUpto : BitVec 32)
  | retry (l x : Nat)
  | resume (l x : Nat) (cairn segno : BitVec 32)
  | abort (l x : Nat)
  | closedStatusRepeat
  | jobTxq (w : Nat) (off : Word)
  | jobFree (x buf : Nat)
  | jobHalt (x : Nat)
  | jobOpen (x : Nat)
  | jobClose (x : Nat)
  -- Joken streams
  | segmentAccept (x : Nat) (p : Placement)
  | binding (x : Nat)
  | geomEnd (x : Nat)
  | cairn (x : Nat)
  | cairnAck (x : Nat)
  | home (x : Nat)
  | layerBegin (x : Nat)
  | swath (x : Nat)
  | layerEnd (x : Nat)
  | park (x : Nat)
  | waitDirective (x : Nat)
  | waitTimeout (x : Nat) (t : Nat)
  | directiveStallRelease (x : Nat)
  | bankLoad (x : Nat)
  | waveLoad (x : Nat)
  | maskLoad (x : Nat)
  | curveLoad (x : Nat)
  | modeBankSel (x : Nat)
  | modeRowmap (x : Nat)
  | modeMaskSel (x : Nat)
  | modeHalftone (x : Nat)
  | region (x : Nat)
  -- ridges
  | rdgPost (w : Nat) (v : Word)
  | rdgRetry (w x : Nat)
  | rdgRetryAbandon (w x : Nat)
  | bandFetchDone (ridge : Nat)
  | slicePosted (ridge : Nat)
  | haloValue (ridge : Nat) (fromRight : Bool) (row : Nat)
  -- cornice
  | transmitPoint (x : Crossing)
  | lineTake
  | crnLwCtrl (w x : Nat) (v : Word)
  -- actuators
  | carriageInPlace (t : Nat)
  | gateEdge (row t : Nat)
  | testWindowsClosed (t : Nat)
  | holdTimeout
  | actEditMask (idx : Nat) (val : BitVec 16)
  | actEditUnmask (idx : Nat) (val : BitVec 16)
  | actEditRevive (idx : Nat) (val : BitVec 16)
  | actEditDgain (idx : Nat) (val : BitVec 16)
  | actEditFdelay (idx : Nat) (val : BitVec 16)
  -- head link status
  | fireAck (l : Nat) (h : StatusHdr) (recs : List FireRec)
  | fireAckTimeout (l lseq : Nat)
  | voidAck (l : Nat) (h : StatusHdr) (lseq : Nat) (voided fired : BitVec 16)
  | orderAck (l : Nat) (h : StatusHdr) (order result : Nat)
  | temp (l : Nat) (h : StatusHdr) (recs : List TempRec)
  | nozzleFault (l : Nat) (h : StatusHdr) (recs : List (Nat × Nat))
  | driverFault (l : Nat) (h : StatusHdr) (code : Nat) (rowmask : BitVec 16) (lseq : Nat)
  | testDone (l : Nat) (h : StatusHdr) (order shots : Nat)
  -- strobes
  | decisionCrossing (line : Int) (t : Nat)
  | strobeEdge (row : Nat) (line : Int) (t : Nat)
  | skipWindowEnd (t : Nat)
  -- motion, position, switches
  | servoTick (t : Nat)
  | axpDriveFrame (port : Nat) (frame : Bytes)
  | plnLimitWrite (w axis which : Nat) (v : Word)
  | plnEdit (w : Nat) (off : Word)
  | axisMoveDone (axis t : Nat)
  | colStart (t : Nat)
  | firingSpanStart (t : Nat)
  | quadEdge (u : Nat) (a b : Bool) (t : Nat)
  | amplitude (u : Nat) (samples : List (Int × Int))
  | ssiRead (u : Nat) (raw : Nat) (lineHigh : Bool) (t : Nat)
  | probeEdge (u : Nat) (rising : Bool) (t : Nat)
  | posCmpArm (u : Nat) (hi : Word) (t : Nat)
  | compareFire (u t : Nat)
  | comparePulseEnd (u t : Nat)
  | stepEdge (m : Nat) (dirHigh : Bool)
  | stall (m : Nat) (load : Int)
  | stepperHoldCurrent (m t : Nat)
  | axisRecordWrite (a t : Nat)
  | switchChange (k : Nat) (level : Bool)
  | switchChatter (k transitions : Nat)
  | switchRecover (k : Nat)
  -- twin pair
  | tpeerSilent (t : Nat)
  | twinWaitExpiry
  | twinIdleAck (tack : Nat)
  | twinRetxTimeout
  | twinLinkLost
  | twinRole (h : FrameHdr) (role slotB tkn variant step : Nat) (compat : BitVec 32)
  | twinSegment (h : FrameHdr) (x link part parts segno : Nat) (data : Bytes)
  | twinCrc (h : FrameHdr) (pos : BuildPos) (ridge epoch : Nat) (crc : BitVec 32)
  | shadowValue (ridge : Nat) (pos : BuildPos) (spare : Option (BitVec 32))
  | twinOutcome (h : FrameHdr) (x kind code segno off : Nat)
  | twinTxrec (h : FrameHdr) (recs : List TxRec)
  | twinScree (h : FrameHdr) (entries : List ScreeEntry)
  | twinActrec (h : FrameHdr) (r : ActRec)
  | twinAxis (h : FrameHdr) (tick : Nat) (axes : List AxisState) (plnState : Word)
  | twinLinkmsg (h : FrameHdr) (link : Nat) (msg : Bytes)
  | twinTime (h : FrameHdr) (t1 t2 t3 : BitVec 64) (t : Nat)
  | twinTimeSend (t : Nat)
  | twinWrite (h : FrameHdr) (addr : Nat) (v : Word)
  | twinCascade (h : FrameHdr) (typ : Nat) (frame : Bytes)
  | twinSync (h : FrameHdr) (obj : Nat) (last delta : Bool) (off : Nat) (data : Bytes)
  | twinTiebreak (h : FrameHdr) (pos : BuildPos) (ridge epoch : Nat) (kinds : BitVec 32) (check : Nat)
  | tiebreakCheck (pos : BuildPos) (ridge : Nat) (spare : Option (BitVec 32))
  | twinHandover (h : FrameHdr) (tick : BitVec 64) (tkn : Nat)
  | twnCmdRetire (w : Nat)
  | twnCmdHandover (w : Nat)
  | syncTimeout
  -- cascade
  | cscJoin (h : CscHdr) (cpos tws variant axis : Nat) (compat : BitVec 32)
  | cscAccept (h : CscHdr) (cpos result : Nat)
  | cscTime (h : CscHdr) (t1 t2 t3 : BitVec 64) (hopDelay : Nat) (t : Nat)
  | cscPlan (h : CscHdr) (p : SwathPlan)
  | cscEdit (h : CscHdr) (p : SwathPlan)
  | cscMode (h : CscHdr) (m : ModeSetting) (ap : BuildPos) (cancel : Bool)
  | cscAxis (h : CscHdr) (tick : Nat) (axes : List AxisState) (plnState : Word)
  | cscCol (h : CscHdr) (swtag event : Nat)
  | cscSwgate (h : CscHdr) (layer swath : Nat)
  | cscState (h : CscHdr) (bstate cause : Nat)
  | cscReport (h : CscHdr) (kind code swath layer : Nat)
  | cscHb (h : CscHdr) (tick : BitVec 64)
  | leadLost
  | cscLost (pos : Nat)
  | joinRetry
  -- scheduler
  | dispatch
  | quantumExpiry (pair : Nat)
  | preempt
  | nmiTaken
  | timerExpiry (c t : Nat)
  | contextWatchdog (c : Nat)
  | supWatchdog
  | lockstepFail (pair : Nat)
  | accessTimeout (c : Nat)
  | ccmdHalt (x : Nat)
  | ccmdResume (x : Nat)
  | ccmdRestart (x : Nat)
  | ccmdPrio (x prio : Nat)
  -- sequencer instructions
  | add (c : Nat) (rd ra rb : Fin 16)
  | sub (c : Nat) (rd ra rb : Fin 16)
  | and (c : Nat) (rd ra rb : Fin 16)
  | or (c : Nat) (rd ra rb : Fin 16)
  | xor (c : Nat) (rd ra rb : Fin 16)
  | shl (c : Nat) (rd ra rb : Fin 16)
  | shr (c : Nat) (rd ra rb : Fin 16)
  | sar (c : Nat) (rd ra rb : Fin 16)
  | mul (c : Nat) (rd ra rb : Fin 16)
  | mulhu (c : Nat) (rd ra rb : Fin 16)
  | mulhs (c : Nat) (rd ra rb : Fin 16)
  | divu (c : Nat) (rd ra rb : Fin 16)
  | divs (c : Nat) (rd ra rb : Fin 16)
  | remu (c : Nat) (rd ra rb : Fin 16)
  | cmp (c : Nat) (ra rb : Fin 16)
  | tst (c : Nat) (ra rb : Fin 16)
  | addi (c : Nat) (rd ra : Fin 16) (imm : BitVec 18)
  | andi (c : Nat) (rd ra : Fin 16) (imm : BitVec 18)
  | ori (c : Nat) (rd ra : Fin 16) (imm : BitVec 18)
  | xori (c : Nat) (rd ra : Fin 16) (imm : BitVec 18)
  | shli (c : Nat) (rd ra : Fin 16) (amount : Fin 64)
  | shri (c : Nat) (rd ra : Fin 16) (amount : Fin 64)
  | sari (c : Nat) (rd ra : Fin 16) (amount : Fin 64)
  | cmpi (c : Nat) (ra : Fin 16) (imm : BitVec 18)
  | kset (c : Nat) (rd : Fin 16) (imm : BitVec 16)
  | kapp (c : Nat) (rd : Fin 16) (imm : BitVec 16)
  | ldb (c : Nat) (rd ra : Fin 16) (imm : BitVec 18)
  | ldh (c : Nat) (rd ra : Fin 16) (imm : BitVec 18)
  | ldw (c : Nat) (rd ra : Fin 16) (imm : BitVec 18)
  | ldd (c : Nat) (rd ra : Fin 16) (imm : BitVec 18)
  | ldbs (c : Nat) (rd ra : Fin 16) (imm : BitVec 18)
  | ldhs (c : Nat) (rd ra : Fin 16) (imm : BitVec 18)
  | ldws (c : Nat) (rd ra : Fin 16) (imm : BitVec 18)
  | stb (c : Nat) (rd ra : Fin 16) (imm : BitVec 18)
  | sth (c : Nat) (rd ra : Fin 16) (imm : BitVec 18)
  | stw (c : Nat) (rd ra : Fin 16) (imm : BitVec 18)
  | std (c : Nat) (rd ra : Fin 16) (imm : BitVec 18)
  | cas (c : Nat) (rd ra rb : Fin 16)
  | ldm (c : Nat) (rd ra rb : Fin 16)
  | stm (c : Nat) (rd ra rb : Fin 16)
  | bcopy (c : Nat) (rd ra rb : Fin 16)
  | bfill (c : Nat) (rd ra rb : Fin 16)
  | b (c : Nat) (cond : Fin 15) (off : BitVec 22)
  | bl (c : Nat) (off : BitVec 22)
  | jr (c : Nat) (ra : Fin 16)
  | jlr (c : Nat) (rd ra : Fin 16)
  | wait (c : Nat) (rd : Fin 16) (mask : BitVec 16)
  | poll (c : Nat) (rd : Fin 16) (mask : BitVec 16)
  | signal (c : Nat) (ra : Fin 16)
  | settmr (c : Nat) (ra : Fin 16)
  | yield (c : Nat)
  | halt (c : Nat)
  | tret (c : Nat)
  | tretNmi (c : Nat)
  | rdsr (c : Nat) (rd : Fin 16) (sr : Nat)
  | wrsr (c : Nat) (ra : Fin 16) (sr : Nat)
  | wdog (c : Nat)
  | nop (c : Nat)
  -- translation, memory, DRAM
  | xltInval (w : Nat) (v : Word)
  | xltInvalAll (w : Nat)
  | xltResume (w slot : Nat)
  | xltResumeAbandon (w slot : Nat)
  | scrubGo
  | scrubLine (range : Bool)
  | refresh (ch : Nat)
  | dramTempRead (ch : Nat) (temp : Int)
  | selfRefreshEntry (ch : Nat)
  | selfRefreshExit (ch : Nat)
  | requestPromotion (ch : Nat)
  | channelFail (ch : Nat)
  -- data movers
  | dmaGo (w ch : Nat)
  | dmaStop (w ch : Nat)
  | descriptorFetch (ch : Nat)
  | dmaCopy (ch : Nat)
  | dmaFill (ch : Nat)
  | dmaCompare (ch : Nat)
  | dmaDecrypt (ch : Nat)
  | dmaInflate (ch : Nat)
  | dmaDeflate (ch : Nat)
  | dmaBeat (ch : Nat)
  | descriptorComplete (ch : Nat)
  | dmaXfHoldExpiry (ch : Nat)
  | cvuGo (w u : Nat) (off : Word)
  | cvuPassDone (u : Nat)
  | cvuXfHoldExpiry (u : Nat)
  | cryClear (v : Word)
  -- lanes
  | linkEnable (k : LinkId)
  | linkDisable (k : LinkId)
  | detectRetry (k : LinkId) (sensed : Bool)
  | trnReceived (k : LinkId) (stateField : Nat)
  | trainTimeout (k : LinkId)
  | capxReceived (k : LinkId) (data : Bytes)
  | eyeWindow (k : LinkId) (lane opening : Nat) (e : EyeWindow)
  | deskewError (k : LinkId)
  | lossOfSignal (k : LinkId)
  | failedRetry (k : LinkId)
  | linkDown (k : LinkId)
  | blindStartActive (k : LinkId)
  -- Ethernet and time
  | ethRxFrame (frame : Bytes) (fcsGood : Bool) (t : Nat)
  | ethTxdb (w idx : Nat)
  | ethTxDone (t : Nat)
  | ethLinkLoss
  | timIncWrite (w : Nat) (hi : Word)
  | timAdjSlew (w : Nat) (hi : Word)
  | timAdjStep (w : Nat) (hi : Word)
  | ptpHoldover (t : Nat)
  | triggerArm (w k : Nat) (ctl : Word) (t : Nat)
  | triggerEdge (k t : Nat)
  -- camera
  | csiFrameStart (port t : Nat)
  | csiLongPacket (port : Nat) (p : CsiPacket)
  | csiFrameEnd (port : Nat)
  | camStatsRecord (p : Nat)
  | camCommit (w p : Nat)
  -- calibration
  | converterRotation (bemf : Bool) (refv : Nat) (m : ConvMeas)
  | converterHandover (bemf : Bool) (meanDiff : Int)
  | delayLineCal (line refv : Nat) (d : List Nat)
  | terminationCal (lane refv : Nat) (m : TermMeas)
  -- observation
  | obsIdent
  | obsBoot
  | obsRead (addr words : Nat)
  | obsRetain (off words : Nat)
  | obsSnap
  | obsWriteTry (cmd : Byte)
  | obsCsRise
  | traceLostSend
  -- registers with no row of their own, and the later rows
  | regWrite (w addr : Nat) (v : Word)
  | twinIdleDue
  | cscIdleAck (h : CscHdr)
  | cscRetxTimeout (down : Bool)
  | cscIdleDue (down : Bool)
  | cscLinkSilent (down : Bool)
  | sincosSample (u : Nat) (s c : Int) (t : Nat)
  | ethAnDone (fullDuplex : Bool)
  | illegalInstruction (c : Nat) (word : BitVec 32)
  | obsBadcmd (cmd : Byte)
  | tdeltaExceeded (kind idx : Nat) (temp : Int)
  deriving DecidableEq, Repr

end Sys2Proof
end

