-- ==== Sys2Proof/Config.lean ====
section
/-! DEFINITION. What the spec leaves open and the machine goes on with: constants without a body, of which nothing
can be proved, and the fixed constants of the module's layout. -/

namespace Sys2Proof.Config

/-- A value the spec does not give, drawn by the running number held in `State.draws` (log entry 5). -/
opaque freeValue : Nat → BitVec 64

/-- R308: the bytes of a sync object other than KEYS, whose layout the spec does not give, by object and draw number (log
entry 27). -/
opaque syncData : Nat → Nat → Bytes

/-- R410: the choices of the deflater that its format leaves open: which earlier position a hash chain offers first
(log entry 10). -/
opaque deflateHash : Bytes → Nat

/-- R358: the first byte of each SRAM pool and of control space. -/
def dosePool : Nat := 0x4000000000
def actPool : Nat := 0x4004000000
def diffPool : Nat := 0x4005000000
def geomPool : Nat := 0x4005800000
def seqPool : Nat := 0x4006000000
def poolEnd : Nat := 0x4006800000
def controlBase : Nat := 0x5000000000
def controlEnd : Nat := 0x5000400000

/-- R358: present DRAM bytes of a variant (1 G1M-X, 2 G1M-C, 3 G1H-F). -/
def dramBytes (variant : Nat) : Nat := if variant = 1 then 0x2000000000 else 0x1000000000

end Sys2Proof.Config
end

