-- ==== Sys2Proof/Machine/State.lean ====
section
/-! DEFINITION. The machine's state as plain data, the reasons a step can stop, and the state after reset.

A 32-bit register that software can read lives in `State.regs`, a sparse map keyed by its control-space address
(Machine/Regs.lean names every register and gives its access code).  Everything the spec gives the
module beyond its registers is a field of one of the structures below, grouped by the unit that owns it. -/

namespace Sys2Proof.Machine

/-! ## The die, the straps and the pins -/

/-- What is fixed for one die, plus the fuses (R1, R4, R380, R416, R508, R510). -/
structure Die where
  /-- 1 G1M-X, 2 G1M-C, 3 G1H-F (R4) -/
  variant : Nat
  /-- silicon step (R4) -/
  step : Nat
  /-- fused security floor (R510) -/
  floor : Nat
  /-- fused SHA-256 of the image key (R508) -/
  keyHash : BitVec 256
  /-- fused device identity (CRY_DEVID) -/
  devid : BitVec 64
  /-- device-unique wrapping key; no agent reads it (R416) -/
  wrapKey : BitVec 256
  /-- factory fuse map: elements (pool, column?, index) mapped to spares at the test (R380) -/
  factory : List (Nat × Bool × Nat)
  /-- field fuse entries the module has programmed (R380) -/
  field : List (Nat × Bool × Nat)
  /-- elements mapped for this power cycle only (R380) -/
  cycle : List (Nat × Bool × Nat)
  /-- spare rows and spare columns of each pool; the spec gives no number (R380) -/
  spareRows : Nat
  spareCols : Nat
  deriving DecidableEq, Repr

/-- Input pins and straps as the module sees them, and the outputs it holds. -/
structure Pins where
  cpos : Nat           -- CPOS[2:0]
  tws : Bool           -- false A, true B
  supplyGood : Bool    -- R537
  modEn : Bool
  rstN : Bool
  presentN : Bool      -- true: high, extracted
  tpeer : Bool         -- TPEER toggling
  town : Bool          -- TOWN running (R290)
  fireGate : Bool      -- FGA and FGB toggling (R248)
  cmpHigh : List Bool  -- POSn_CMP, 4
  deriving DecidableEq, Repr

/-- What has left the module on its lanes and pins, newest first: the model's own record of outputs. -/
inductive Output where
  | jobMsg (link : Nat) (msg : Bytes)                       -- an upstream message queued for a job link (R63)
  | jobFrame (link : Nat) (frame : Bytes)                   -- a job-link frame (R440)
  | headFrame (link : Nat) (frame : Bytes)                  -- a line frame or an order frame (R218, R220, R222)
  | capx (link : LinkId) (msg : Bytes)                      -- the module's 16 CAPX bytes (R234, R436)
  | startStrobe (pclk : Nat)                                -- the start strobe of a drop test (R193)
  | pulse (row : Nat) (fire : Bool) (pclk tap : Nat)        -- a pulse on FSTBr (R237)
  | axp (port : Nat) (frame : Bytes)                        -- a set-point frame (R266)
  | comparePulse (unit : Nat) (high : Bool)                 -- POSn_CMP (R276)
  | trigger (chan at64 width : Nat) (low : Bool)            -- a CTRG or DSTB pulse: PCLK ÷ 64, 5 ns, polarity (R460, R465)
  | twinFrame (frame : Bytes)                               -- a twin-link frame (R314, R316)
  | cscFrame (down : Bool) (frame : Bytes)                  -- a cascade frame (R326)
  | eth (frame : Bytes)                                     -- an Ethernet frame (R451)
  | obs (bytes : Bytes)                                     -- an answer of the OBS port (R521)
  | trace (record : Bytes)                                  -- a trace frame (R529)
  deriving DecidableEq, Repr

/-! ## Time -/

/-- The timebase and the PCLK count (R454 to R459). -/
structure Clock where
  /-- clocks of R26 released: the timebase counts -/
  released : Bool
  /-- PCLK samples since the clocks were released -/
  pclk : Nat
  /-- the 64-bit count of ns and its hidden 32-bit fraction, as one number of 2⁻³² ns -/
  ticks : Nat
  /-- INC in force, 2⁻³² ns -/
  inc : Nat
  /-- what is left of a slew, 2⁻³² ns, signed (R456) -/
  slew : Int
  /-- timebase (ns) of the last INC write (R458) -/
  incAt : Nat
  /-- number of the next servo tick (R459) -/
  nextTick : Nat
  deriving DecidableEq, Repr

/-- One TIM trigger channel while it runs (R460). -/
structure Trigger where
  armed : Bool
  nextAt : Nat      -- timebase of the next edge, ns
  deriving DecidableEq, Repr

/-! ## Start-up (chapter 16) -/

/-- MEMPLAN and the areas the loader lays out (R512, R513). -/
structure MemPlan where
  streamBase : Nat
  streamLen : Nat
  spillBase : Nat
  spillLen : Nat
  deriving DecidableEq, Repr

structure Boot where
  phase : Nat          -- R503, 0 to 13
  failed : Bool        -- R516
  code : Nat           -- R516
  failedStarts : Nat   -- R517
  rstCause : Nat       -- CRU_STATE.RSTCAUSE
  slot : Nat           -- slot in use, 0 A, 1 B
  usable : Nat         -- [0] A, [1] B: slots that passed causes 1 to 6
  image : Bytes        -- the image in the image area (R511), until LOAD ends
  ratchet : Bool       -- the image in use has RATCHET set
  plan : MemPlan
  cfgCopy : List (Nat × BitVec 32)   -- R520: the loader's copy of the CFG fields
  hot : Bool           -- DIE_HOT raised and not yet fallen 5.0 °C below TLIM
  deriving DecidableEq, Repr

/-! ## Faults, safety manager, self-test (chapter 15) -/

/-- R474: a fault message. -/
structure FaultMsg where
  src : Nat
  kind : Nat
  ctx : Nat
  detail : BitVec 42
  deriving DecidableEq, Repr

/-- R479: one entry of the fault log. -/
structure LogEntry where
  idx : Nat
  msg : BitVec 64
  stamp : BitVec 64
  sev : Nat
  deriving DecidableEq, Repr

structure Collector where
  errLatch : Bool            -- R480
  fill : Nat                 -- entries not yet read
  log : List LogEntry        -- newest first, at most one per index
  lossSeen : Bool            -- a loss since the log last had room (R479)
  sev3Gate : Bool            -- a severity-3 source with GATE since the last chip reset (R488)
  rstMsg : BitVec 64         -- R481
  resetDue : Bool            -- a CRST reaction has arrived; the reset follows at once (R476)
  deriving DecidableEq, Repr

structure Safety where
  startup : Bool             -- causes of R483
  interlock : Bool
  discrep : Bool
  fault : Bool
  swgate : Bool
  cascade : Bool
  levA : BitVec 4            -- counted levels, 1 = demand (SAF_STATE)
  levB : BitVec 4
  dlatch : BitVec 4          -- DISCREP latches (R486)
  cycle : BitVec 4           -- both channels have counted demand since the latch (R486)
  disagreeAt : List (Option Nat)   -- PCLK since which the channels of a pair disagree
  openedAt : Option Nat      -- PCLK at which the gate was last permitted again (R244)
  closedAt : Option Nat      -- PCLK at which the gate last closed
  closedIlk : Bool           -- kind of the closure that has just ended (R244)
  skipWindow : Bool          -- the 50 µs of R244 run
  guardEdges : List (Nat × Bool)   -- the guard's last three POS0 edges, newest first: PCLK, negative? (R490)
  guardCount : Int           -- the guard's edge count
  guardPass : List (Option Int)   -- edge count at the last pulse passed in the swath, per row
  deriving DecidableEq, Repr

/-- R500: one BIST slice that runs. -/
structure Slice where
  kind : Nat       -- 0 ridge, 1 pair, 2 CVU
  idx : Nat
  st : Nat         -- 0 waiting for its target, 2 RUN
  deriving DecidableEq, Repr

structure Bist where
  slices : List Slice
  nextPair : Nat
  nextCvu : Nat
  cutRuns : List (Nat × Nat × Nat)   -- kind, index, consecutive cut slices (R501)
  firstRidge : Option Nat            -- R299: takes the next col's slice ahead of the rotation order
  deriving DecidableEq, Repr

/-! ## Grid, dose tables, mode settings (chapter 02) -/

/-- R31. -/
structure Grid where
  origin : Int
  pitch : Nat
  minInterval : Nat
  maxInterval : Nat
  rowline : List Int
  deriving DecidableEq, Repr

/-- R36. -/
structure RowGroup where
  kind : Nat
  bank : Nat
  material : Nat
  levelMin : Int
  levelMax : Int
  winLines : Nat
  ceilLine : Nat
  ceilWin : Nat
  deriving DecidableEq, Repr

/-- R46: `highest` 0 is the empty bank of R48. -/
structure DoseBank where
  highest : Nat
  entries : List (Nat × Nat)    -- classes 1 to 15: waveform, NOMINAL
  deriving DecidableEq, Repr

/-- R50: one pulse slot. -/
structure WavePulse where
  start : Nat
  rise : Nat
  fall : Nat
  hold : Nat
  level : Int
  deriving DecidableEq, Repr

/-- R50. -/
structure Waveform where
  id : Nat
  kind : Nat
  pulses : Nat
  wend : Nat
  slots : List WavePulse
  deriving DecidableEq, Repr

/-- R53. -/
structure DoseCurve where
  id : Nat
  kind : Nat
  knots : List Nat
  deriving DecidableEq, Repr

/-- R132. -/
structure Halftone where
  dither : Nat
  gain : Nat
  eshift : Nat
  phaseA : Nat
  phaseB : Nat
  deriving DecidableEq, Repr

/-- R41, R42: one executed change of a mode setting. -/
structure ModeChange where
  ctx : Nat                 -- context whose stream carries it (0: the lead's distribution)
  order : Nat               -- stream order
  afterCairn : Nat          -- the last CAIRN_ID before it in its stream
  setting : ModeSetting
  at_ : BuildPos            -- its activation point
  /-- the position from which it really applies, once that is fixed by R41 (a lost swath) or R178 -/
  moved : Option BuildPos
  deriving DecidableEq, Repr

structure Dose where
  grid : Grid
  groups : List RowGroup              -- 8
  banks : List DoseBank               -- 32, group × 4 + bank
  waves : List Waveform               -- by rising ID
  curves : List DoseCurve             -- by rising ID
  masks : List (List Nat)             -- 8 masks of 256 entries
  bankSel0 : List Nat                 -- settings at start, per group
  mask0 : List (Nat × Nat)            -- mask and PASS_COUNT at start
  half0 : List Halftone
  rowmap0 : BitVec 64
  changes : List ModeChange           -- in stream order, oldest first
  nextOrder : Nat
  window : List (List Nat)            -- per group: S of the last lines taken, newest first (R58)
  deriving DecidableEq, Repr

/-! ## Joken streams (chapter 03) and the job link (chapter 13) -/

/-- R61. -/
structure StreamDesc where
  link : Nat
  credits : Nat
  maxRatio : Nat
  retries : Nat
  control : Bool
  plainMax : Nat
  deriving DecidableEq, Repr

/-- R107. -/
structure Region where
  col0 : Int
  col1 : Int
  line0 : Int
  line1 : Int
  layer0 : Nat
  layer1 : Nat
  deriving DecidableEq, Repr

/-- R77, R103: a record that executes in stream order. -/
inductive JRec where
  | nop
  | binding (id curve material : Nat) (at_ : BuildPos)
  | geomEnd (layer : Nat)
  | cairn (id : Nat) (resumePoint : Bool)
  | directive (typ : Nat) (raw : Bytes)
  | post (layer dirVa count : Nat)          -- geometry records that follow one another, made renderable together
  deriving DecidableEq, Repr

structure PendRec where
  segno : Nat
  off : Nat
  body : JRec
  deriving DecidableEq, Repr

/-- R86: a binding of the context as first set; later changes stand among the mode changes. -/
structure Binding where
  id : Nat
  curve : Nat
  material : Nat
  afterCairn : Nat
  order : Nat                        -- changes in stream order before it no longer count for its ID
  deriving DecidableEq, Repr

/-- R90, R91: a cairn that has executed and waits for its acknowledgement. -/
structure CairnWait where
  id : Nat
  resumePoint : Bool
  segno : Nat                        -- segment that holds it
  layers : List Nat                  -- layers whose GEOM_END precedes it
  ids : List Nat                     -- binding IDs bound before it
  uptoOrd : Nat                      -- ordinals below this belong to swaths issued before it
  layer : Nat
  nextSwath : Nat
  deriving DecidableEq, Repr

/-- R66: an inflated body held for a layer. -/
structure Body where
  layer : Nat
  segno : Nat
  bytes : Nat
  deriving DecidableEq, Repr

structure Stream where
  desc : Option StreamDesc           -- none: the context carries no stream
  opened : Bool
  everOpened : Bool
  ended : Bool
  halted : Bool
  rejected : Bool                    -- halted after the last retry of a segment (R75)
  stalled : Bool
  waitStart : Option Nat             -- PCLK at which a WAIT began to stall
  triesAt : Nat                      -- SEGNO whose rejections are counted (R75)
  tries : Nat
  full : List (Nat × Nat)            -- stored segments, oldest first: buffer, SEGNO
  arriving : Option Nat              -- a segment whose writes are not yet visible: its buffer
  recs : List PendRec                -- records still to execute, in stream order
  lastSeg : Option Nat               -- SEGNO of the LAST segment, once accepted (R69)
  parsedEnd : List Nat               -- layers whose GEOM_END has been parsed (R88)
  passedEnd : List Nat               -- layers whose GEOM_END has executed (R89)
  boundIds : List Nat                -- binding IDs seen by the parser (R86)
  fresh : List Nat                   -- IDs bound since the stream opened or resumed (R86)
  execIds : List Nat                 -- IDs whose BINDING stands before this place of the stream
  postHeld : Bool                    -- R143: a full post table holds the stream
  bindings : List Binding            -- newest first; the first of an ID counts
  lastCairn : Nat                    -- last CAIRN_ID parsed (R90)
  cairnNow : Nat                     -- last CAIRN_ID executed
  cairns : List CairnWait
  acked : Option (Nat × Nat)         -- last acknowledged cairn: CAIRN_ID and the SEGNO that follows it
  ackedIds : List Nat                -- binding IDs and closed layers as of that cairn (R94)
  ackedEnds : List Nat
  ackMsg : Option Bytes              -- the last CAIRN_ACK sent (R304)
  bodies : List Body
  region : Region
  regionNext : Option (Region × Nat) -- takes effect at the next LAYER_BEGIN: region, QUOTA
  syncOff : Nat                      -- R308: sync area
  syncLen : Nat
  deriving DecidableEq, Repr

/-- One job link (R441, R442, R447). -/
structure JobLink where
  txNext : Nat                       -- FSEQ of the next DATA frame
  rxNext : Nat                       -- FSEQ expected next
  peerAck : Option Nat               -- highest FSEQ acknowledged
  peerCredit : Nat
  unacked : List (Nat × Bytes)       -- frames sent and not acknowledged
  openMsg : Option Bytes             -- the message being received
  txq : List Bytes                   -- messages waiting (R447: at most 64)
  deriving DecidableEq, Repr

/-! ## The scree log (chapter 01) -/

/-- R23, R67: an entry the module still holds, and the links that must acknowledge it. -/
structure ScreeSlot where
  entry : ScreeEntry
  sentOn : List Nat
  ackedOn : List Nat
  deriving DecidableEq, Repr

/-- R22: a context whose positions are withheld by its quota, from U to the end of U's swath. -/
structure QuotaHold where
  ctx : Nat
  layer : Nat
  swath : Nat
  first : Int
  last : Int
  deriving DecidableEq, Repr

structure Scree where
  nextSeq : Nat
  written : Bool                     -- an entry has been written since reset (R91)
  slots : List ScreeSlot             -- oldest first
  held : Bool                        -- R25
  acted : List Nat                   -- contexts whose quota has acted in the present layer
  due : List Nat                     -- contexts whose quota was reached with no line planned: they act on the next swath (R22)
  holds : List QuotaHold
  runs : List ScreeEntry             -- R243: entries whose run of lines may still grow (SEQ not yet given)
  deriving DecidableEq, Repr

/-! ## Geometry and ridges (chapter 04) -/

/-- R143: an entry of the post table. -/
structure Post where
  ctx : Nat
  geomEnd : Bool
  layer : Nat
  dirVa : Nat
  count : Nat
  segno : Nat
  afterCairn : Nat                    -- the last CAIRN_ID executed before it in its stream
  deriving DecidableEq, Repr

/-- A geometry record as fetched into a ridge's cache (R79, R82, R84), with its directory box. -/
inductive Geo where
  | contour (nonzero clip : Bool) (bind group : Nat) (loops : List (List (Int × Int)))
  | lattice (field bind group : Nat) (cellX cellY cellZ angle phX phY phZ : Nat)
      (boxX0 boxX1 boxY0 boxY1 : Int) (knots : List (Nat × Nat))
  | grey (bind group : Nat) (x0 y0 : Int) (width height stepX stepY : Nat) (samples : List Nat)
  deriving DecidableEq, Repr

/-- A record in a cache half, with the place and length of its bytes in the GEOM pool. -/
structure CacheRec where
  ctx : Nat
  geo : Geo
  xmin : Int
  xmax : Int
  ymin : Int
  ymax : Int
  at_ : Nat
  len : Nat
  deriving DecidableEq, Repr

/-- What a band's fetch pass still has to do for one post: its entries from `entry` on.  Of the object it fetches (a
directory entry, or the record that the entry `dir` names) the bytes `got` are in the cache. -/
structure PostWork where
  post : Post
  entry : Nat
  dir : Option Bytes                  -- the directory entry whose record is being fetched
  got : Bytes
  deriving DecidableEq, Repr

/-- R144, R145: the fetch pass of a band: what it has fetched and what it has left. -/
structure BandPass where
  key : Nat × Int                     -- the swath's first ordinal, n >> 6
  recs : List CacheRec
  bytes : Nat
  work : List PostWork
  deriving DecidableEq, Repr

/-- R145: a context at whose fault a ridge's fetch pass has stopped; the ordinal of the band's first line. -/
structure FetchStop where
  ctx : Nat
  ord : Nat
  va : Nat
  kind : Nat
  level : Nat
  deriving DecidableEq, Repr

/-- R131, R140, R148, R149: positions voided from a line to the end of the swath. -/
structure VoidRange where
  kind : Nat          -- 0x0E UNCORR or 0x0F GEOM_FAULT
  ctx : Nat           -- context whose region is voided; 0 with `act` set
  act : Option Nat    -- one actuator
  swOrd : Nat         -- ordinal of the swath's first line
  fromOrd : Nat
  deriving DecidableEq, Repr

/-- R130, R131: a halo value received: the neighbour's target dose D, or the kind that leaves D undefined. -/
structure HaloVal where
  right : Bool
  row : Nat
  line : Nat          -- ordinal
  dose : Nat
  void : Option (Nat × Nat)   -- kind and context of a void that leaves D undefined
  deriving DecidableEq, Repr

/-- One logical ridge. -/
structure Ridge where
  phys : Nat
  nextOrd : Nat                       -- ordinal of the next line to render
  carried : List (Nat × Int)          -- carried errors that are not 0, by rising actuator (R135)
  band : Option (Nat × Int)           -- band in the cache half in use: swath's first ordinal, n >> 6
  cache : List CacheRec
  nextBand : Option (Nat × Int)       -- R144: the band fetched into the other half
  nextCache : List CacheRec
  upper : Bool                        -- the half in use is the upper one
  pass : Option BandPass              -- the fetch pass that runs
  stops : List FetchStop              -- R145: contexts whose fault stopped it, oldest first
  reach : Nat                         -- ordinal past the furthest line rendered, over every rewind
  halo : List HaloVal
  voids : List VoidRange
  underruns : Nat                     -- consecutive lines withheld as UNDERRUN (R180)
  deriving DecidableEq, Repr

structure Rdg where
  ridges : List Ridge                 -- 16 (8 on the G1H-F)
  spare : Option Nat                  -- physical ridge that is the spare
  nextLeave : Nat
  leaving : Option (Nat × Nat)        -- R153: a handover that waits for the band's end: logical ridge, receiver
  rotHalt : Bool
  retired : BitVec 17
  inBist : Option Nat                 -- physical ridge in its slice
  posts : List Post
  deriving DecidableEq, Repr

/-! ## The cornice (chapter 05) -/

/-- R123, R130: a set of positions the ridge voided in one line of one slice. -/
structure VoidRec where
  kind : Nat
  ctx : Nat
  col : Nat
  rows : BitVec 16
  deriving DecidableEq, Repr

/-- R158: one (logical ridge, line) pair. -/
structure RLine where
  st : Nat                            -- STATE of CRN_LST: 0 EMPTY … 7 FREE
  epoch : BitVec 8
  retried : Bool
  crc : Option (BitVec 32)            -- posted value
  kinds : BitVec 32                   -- KINDS of R111
  voids : List VoidRec
  slice : Option Bytes                -- the codes as last rendered in the present epoch
  mismatch : Bool                     -- the last value of the same epoch differed
  held : Option (BitVec 8 × BitVec 32)   -- a value of a newer epoch (R166)
  deriving DecidableEq, Repr

/-- What the strobe unit has done for one row of one line. -/
inductive RowPulse where
  | none
  | toFire                            -- decided: a fire pulse is due
  | toSkip (kind : Nat)               -- decided: a skip pulse is due, with its kind (0: no kind of its own)
  | fired
  | skipped (kind : Nat)
  deriving DecidableEq, Repr

/-- Positions of one line already in an entry (R19, R163): columns c0 to c1 in a row. -/
structure LoggedSpan where
  row : Nat
  c0 : Nat
  c1 : Nat
  deriving DecidableEq, Repr

/-- R224: an uploaded fire map: its 256 entries, the links that acknowledged it, the rows whose entries it changed. -/
structure FireMap where
  gen : Nat
  content : List Nat
  acked : BitVec 16
  changed : BitVec 16
  deriving DecidableEq, Repr

/-- R171: lines under void orders of one source in one swath: the answers awaited (ordinal, link), the entries made so
far, and those of the swath's lines that were never taken. -/
structure VoidGroup where
  kind : Nat
  layer : Nat
  swath : Nat
  pend : List (Nat × Nat)
  entries : List ScreeEntry
  deriving DecidableEq, Repr

/-- One line of the state window. -/
structure CLine where
  ord : Nat
  layer : Nat
  swath : Nat
  line : Int
  ridges : List RLine
  lseq : Option Nat
  fmap : Nat
  taken : Bool
  dropped : Bool                      -- R561
  fromRing : BitVec 16                -- slices taken from the ring
  rows : List RowPulse                -- 16
  logged : List LoggedSpan
  closedLinks : List Nat              -- links whose FIRE_ACK record has closed the line
  voidKind : Option Nat               -- kind of a void order sent for the line (R171)
  voidRidges : BitVec 16
  groupsOut : List Nat                -- row groups voided by the ceiling check (R59)
  unsent : List Nat                   -- links on which the line is not completely sent (R236)
  withheld : BitVec 16                -- ridges with a row not fired (R231)
  early : Bool                        -- its decision crossing came early (R245)
  firedIn : BitVec 16                 -- ridges that had FIRED it when it became FREE
  deriving DecidableEq, Repr

structure Cornice where
  window : List CLine                 -- by rising ordinal
  nextOrd : Nat                       -- next ordinal to be given
  freed : Nat                         -- ordinals below this have left the window
  lastTaken : Option (Nat × Nat × Int)   -- layer, swath, line of the last line taken
  lastFreed : Option (BuildPos × Nat)    -- the last line that left the window, and its swath's DIR (R182)
  squashSrc : Nat                     -- CRN_SQUASH
  squashRidges : BitVec 16
  squashAt : BuildPos
  lateSwath : Option (Nat × Nat)      -- swath whose gate is closed under R178
  /-- R165: squashes that count an epoch, newest first, one entry for each planned swath that one covers: ridges, the
  swath and its first line covered -/
  squashed : List (BitVec 16 × BuildPos)
  /-- R175: runs of lines marked RETRIED: ridge, the swath and the first line of the run -/
  retriedRuns : List (Nat × BuildPos)
  /-- plan of the last swath that was current and is complete or abandoned (R41, R176) -/
  lastPlan : Option SwathPlan
  crossed : Nat                       -- ordinals below this have had their transmit point (R159)
  decided : Nat                       -- ordinals below this have had their decision crossing (R239, R561)
  groups : List VoidGroup
  /-- R178, R232, R233: taken lines that have left the window, newest last -/
  past : List CLine
  deriving DecidableEq, Repr

/-! ## Actuators and the drop test (chapter 06) -/

structure TestState where
  t0 : Nat
  shots : List Nat                    -- columns in shot order
  edges : List (Nat × Nat)            -- rising edges kept: row, PCLK
  fires : List Nat                    -- how many actuators each shot fires
  next : Nat                          -- shots accounted for in ACT_SHOTS_FIRED
  gate : Bool                         -- the fire gate as it stood then (R193)
  order : Nat                         -- order number of the test
  aborted : Bool                      -- R198
  deriving DecidableEq, Repr

structure Act where
  phase : Nat                         -- ACT_STATUS.PHASE
  t : Nat                             -- tests completed (R191)
  test : Option TestState
  headFaults : List Nat               -- actuators reported by NOZZLE_FAULT since the last col (R189)
  edits : List (BitVec 32 × BitVec 16)   -- queued edits, oldest first
  plan : List (Nat × BitVec 32)       -- staged change list, rising index
  carry : List (Nat × BitVec 32)      -- records carried to the next col (R205)
  staged : Bool
  pending : Bool                      -- PLAN_PENDING
  counts : List (Nat × Nat)           -- R209: codes taken at newly hidden actuators
  forSwath : Option (Nat × Nat)       -- layer and swath S
  trims : List (Nat × Int)            -- FDELAY' staged for upload (R201)
  trimWait : List Nat                 -- links that have not acknowledged the upload
  hold : Option Nat                   -- PCLK at which the hold began (R206)
  firstCol : Bool                     -- no col has run since start-up (R211)
  repaired : List Nat                 -- rewritten under R212, with no commit since
  zeroed : List Nat                   -- rewritten under R212, with no trim upload since
  deriving DecidableEq, Repr

/-! ## Head link and strobes (chapter 07) -/

/-- An order frame not yet acknowledged. -/
structure HeadOrder where
  order : Nat
  typ : Nat
  arg : Nat                           -- waveform ID, fire-map generation, TKN, …
  deriving DecidableEq, Repr

structure HeadLink where
  orders : List HeadOrder             -- waiting for ORDER_ACK
  waiting : List Bytes                -- order frames that wait for an order window (R216)
  held : List Nat                     -- LSEQs of lines held while the link retrains (R236)
  hot : List TempRec                  -- heads over the hard limit, as last reported (R247)
  soft : Bool                         -- derate requested
  nozzles : List (Nat × Nat)          -- actuators held off: global index, first LSEQ not fired (R233)
  lastFired : Option Nat              -- last LSEQ reported FIRED
  deriving DecidableEq, Repr

structure Hlk where
  links : List HeadLink               -- 16
  lseq : Nat
  orderNo : Nat
  tkn : Nat
  portB : Bool
  fgen : Nat                          -- last fire-map generation uploaded
  fmaps : List FireMap
  waveAcks : List (Nat × Nat)         -- waveform ID, link: upload not yet acknowledged
  selecting : Bool                    -- PORT_SELECT sent and not yet acknowledged on every link
  deriving DecidableEq, Repr

structure Strobe where
  lastDecision : Option (Int × Nat)   -- line and PCLK of the previous decision crossing of the swath
  prevFire : List (Option Nat)        -- per row: last fire edge, PCLK ÷ 64
  prevEnd : List Nat                  -- per row: PCLK × 64 at which the last pulse ends
  ovsRun : Nat
  vtrim : List Int                    -- VTRIM in force, per row
  vtrimNext : List (Nat × List Int)   -- swath tag from which a set applies (R242)
  deriving DecidableEq, Repr

/-! ## Axes (chapter 08) -/

structure Swath where
  plan : SwathPlan
  firstOrd : Nat
  afterCairn : Nat
  issued : Nat                        -- count of swaths issued
  deriving DecidableEq, Repr

/-- R253: a segment of a trajectory: velocity and acceleration at its start, jerk, duration in ns. -/
structure Seg where
  v : Int
  a : Int
  j : Int
  t : Nat
  deriving DecidableEq, Repr

/-- Planned state of one axis, in 2⁻⁸ axis units, units/s, units/s². -/
structure Axis where
  pos : Int
  vel : Int
  acc : Int
  target : Int
  moving : Bool
  stopping : Bool                     -- stops at SDEC
  pend : List (Nat × BitVec 32)       -- limits that wait for standstill (R256): which, value
  restAt : Option Nat                 -- PCLK since which it is at rest
  hstate : Nat                        -- R285: 0 IDLE 1 SEEK 2 BACKOFF 3 CREEP 4 DONE 5 ABORTED
  travel : Int
  hmark : Option Int                  -- where BACKOFF counts HBACK from (R285)
  segs : List Seg                     -- the trajectory in force (R253)
  base : Int                          -- where it began, and the timebase at that servo tick
  began : Nat
  replan : Bool                       -- a request that the next servo tick plans for (R254)
  asks : List (Nat × BitVec 32)       -- limits written since the last tick: which, the value before (R255)
  deriving DecidableEq, Repr

structure Motion where
  bstate : Nat                        -- R98
  heldHomed : Bool                    -- HELD was entered from READY, LAYER or CLOSING and homing stands (R98, R287)
  layer : Option Nat                  -- the open layer
  lastLayer : Option Nat              -- highest layer begun
  nextSwath : Nat                     -- SWATH expected next in the layer
  queue : List Swath                  -- accepted and not yet current (R100)
  current : Option Swath
  spanOn : Bool                       -- its firing span has begun
  inCol : Bool
  colDue : Bool                       -- the current swath has been abandoned and its col has not begun (R262)
  derate : Bool
  swtags : Nat                        -- swaths planned since reset
  issued : Nat
  axes : List Axis                    -- 4
  homing : List Nat                   -- axes still to home, in order (R284)
  recoats : Nat                       -- recoat passes left
  platformMove : Bool                 -- the layer's platform step runs
  edits : List (SwathPlan × Bool)     -- R264: records written to PLN_EDIT that the next servo tick applies
  axpSeq : List Nat                   -- SEQ of the last frame sent, per port
  axpBad : List Nat                   -- consecutive bad frames
  axpBytes : List Bytes               -- last frame sent
  deriving DecidableEq, Repr

/-- One position unit (R269 to R276). -/
structure PosUnit where
  count : Int                         -- N
  hist : List (Nat × Bool)            -- last edges in one direction, newest first: PCLK, negative?
  speedValid : Bool
  neg : Bool                          -- direction of the last edge
  speed : Nat                         -- |v|, 2⁻²⁴ counts per PCLK
  aLine : Bool
  bLine : Bool
  qerrAt : List Nat                   -- PCLK of the same-sample events in the present window
  fault : Bool                        -- a major fault stands: x is held
  heldX : Int                         -- the position held
  /-- R33: PCLK of the last change of the position, and the position at the sample before it -/
  changeAt : Nat
  beforeX : Int
  /-- SSI: last unwrapped position, its PCLK, last difference, consecutive errors -/
  ssiPos : Int
  ssiAt : Nat
  ssiDiff : Int
  ssiErrs : Nat
  ssiSeen : Bool
  ssiBack : Bool                      -- a reversal is not yet followed by a read in the new direction
  /-- sin/cos: last angle (0 to 1,023), its PCLK, consecutive samples outside the window -/
  angle : Nat
  angleAt : Nat
  ampBad : Nat
  angleSeen : Bool
  /-- compare: armed, value of (x ≥ CMP) at the previous sample, PCLK at which the pulse ends -/
  cmpArmed : Bool
  cmpPrev : Bool
  cmpVal : Int
  cmpEnd : Option Nat
  deriving DecidableEq, Repr

structure Stepper where
  pos : Int
  elec : Nat
  load : Int
  hold : Bool                         -- AMP is IHOLD
  stalled : Bool
  retained : Bool
  deriving DecidableEq, Repr

structure Switch where
  active : Bool
  faulty : Bool
  deriving DecidableEq, Repr

/-! ## Twin pair and cascade (chapter 09) -/

/-- A mismatch under tie-break (R299). -/
structure Tie where
  pos : BuildPos
  ridge : Nat
  own : Option Nat                    -- 0 agrees, 1 differs, 2 not run
  peer : Option Nat
  deriving DecidableEq, Repr

/-- R316: a mirrored segment that arrives in parts. -/
structure MirrorSeg where
  ctx : Nat
  link : Nat
  segno : Nat
  parts : Nat
  next : Nat                          -- PART expected next
  bytes : Bytes
  deriving DecidableEq, Repr

structure Twin where
  role : Nat                          -- TWN_STATE.ROLE
  peerRole : Nat
  linkUp : Bool
  peerSlotB : Option Bool
  peerVariant : Nat
  peerStep : Nat
  peerCompat : BitVec 32
  txNext : Nat
  rxNext : Nat
  peerAck : Nat
  unacked : List (Nat × Nat × Bytes)  -- TSEQ, TYPE, body; at most 256 (R315)
  waiting : List (Nat × Bytes)        -- frames that wait for room: TYPE, body, in the order in which they go out
  phase : Nat                         -- TWN_SYNC.PHASE
  cause : Nat
  object : Nat
  retries : Nat
  done : Nat
  joinSwath : Option (Nat × Nat)      -- J of R310
  ties : List Tie
  selfFaults : Nat                    -- within the layer (R300)
  lates : Nat                         -- TWIN_LATE slices in the swath (R298)
  topLseq : Option Nat                -- highest LSEQ in any mirrored TXREC
  topTkn : Nat
  handover : Option Nat               -- servo tick (ns) of a planned handover
  takeoverFrom : Option Nat           -- ordinal of the first line not shown FIRED
  segment : Option MirrorSeg
  copies : List (Nat × Bytes)         -- R308: sync objects as received
  idBad : Bool                        -- R313: the peer's identity differs
  idTold : Bool                       -- and this joiner has reported it
  timePeer : Option (Nat × Nat)       -- R303: the peer's last TIME: its stamp, and this module's at its arrival
  deriving DecidableEq, Repr

/-- R326: a cascade frame sent and not acknowledged. -/
structure CscSent where
  seq : Nat
  typ : Nat
  origin : Nat
  ltkn : Nat
  body : Bytes
  deriving DecidableEq, Repr

structure CscPort where
  up : Bool
  txNext : Nat
  rxNext : Nat
  peerAck : Nat
  unacked : List CscSent              -- at most 256 (R315, R326)
  waiting : List CscSent              -- frames that wait for room; they have no number yet
  deriving DecidableEq, Repr

structure Csc where
  jstate : Nat                        -- CSC_STATE.JSTATE
  joined : BitVec 8
  refused : Bool
  upPort : CscPort
  downPort : CscPort
  ltkn : Nat
  goodTimes : Nat                     -- consecutive exchanges below 20 ns (R320)
  exchanges : Nat
  timeAsked : Option Nat              -- T1 of the TIME frame that has no answer yet
  committed : BitVec 8                -- positions that have reported COMMITTED at this col (R325)
  slots : List (Nat × Nat)            -- positions accepted at the lead, with their twin slots
  deriving DecidableEq, Repr

/-! ## Sequencer (chapter 10) -/

/-- R330: one context, its live state and the record as of its last switch-out. -/
structure Ctx where
  k : List (BitVec 64)                -- k0 to k15
  pc : BitVec 64
  z : Bool
  n : Bool
  c : Bool
  v : Bool
  intrap : Bool
  innmi : Bool
  rstate : Nat                        -- 0 OFF 1 READY 2 RUNNING 3 WAITING 4 HALTED
  prio : Nat
  beat : Nat
  evpend : BitVec 16
  wmask : BitVec 16
  tvec : BitVec 64
  tpc : BitVec 64
  taddr : BitVec 64
  tcause : Nat
  tflags : BitVec 4
  tbeat : Nat
  tload : Bool
  wdog : Nat
  wdLeft : Nat
  xroot : BitVec 64
  keyslot : Nat
  dmamask : BitVec 32
  quota : Nat
  qused : Nat
  timer : BitVec 64
  start : BitVec 64
  sigfrom : BitVec 64
  cclks : BitVec 64
  npc : BitVec 64
  nstat : BitVec 16
  saved : Bytes                       -- the 256-byte record as of the last switch-out
  deriving DecidableEq, Repr

structure Pair where
  inService : Bool
  running : Nat                       -- 0 idle
  used : Nat                          -- CCLK of the quantum used
  deriving DecidableEq, Repr

structure Seq where
  ctxs : List Ctx                     -- contexts 0 to 63; 0 never runs
  pairs : List Pair                   -- 4
  ready : List Nat                    -- READY contexts, longest ready first
  retired : BitVec 4
  nmi : Option (BitVec 64)            -- an NMI raised and not yet taken: its message
  deriving DecidableEq, Repr

/-! ## Translation, memory, DRAM (chapter 11) -/

/-- R366, R367: a cached valid entry. -/
structure TlbEntry where
  ctx : Nat
  level : Nat
  base : Nat                          -- virtual address of the range
  entry : BitVec 64
  deriving DecidableEq, Repr

/-- R384, R385: a range scrub that runs, with what it has found so far. -/
structure ScrubRun where
  next : Nat                          -- address of the next line
  left : Nat                          -- lines left
  lines : Nat
  ce : Nat
  ue : Nat
  first : Option Nat                  -- first uncorrectable line
  deriving DecidableEq, Repr

structure MemUnit where
  ces : List Nat                      -- addresses of bytes with a single-bit error
  ues : List Nat                      -- addresses of bytes (DRAM: of beats) that are uncorrectable
  bgPos : Nat                         -- background SRAM pass
  dramPos : Nat                       -- background DRAM pass
  scrub : Option ScrubRun             -- the range scrub
  repeats : List (Nat × Nat)          -- byte address, correctable errors since start-up (R381)
  candidates : List Nat               -- rows marked
  deriving DecidableEq, Repr

/-- A DRAM request that waits (R388, R393). -/
structure DramReq where
  chan : Nat
  cls : Nat
  who : Nat                           -- 0 to 31 DMA channels, 32 to 35 CVUs, 36 to 51 ridges, 52 scrubber
  deriving DecidableEq, Repr

structure Dmc where
  selfRef : BitVec 4
  hot : BitVec 4
  failed : BitVec 4
  postponed : List Nat                -- refreshes postponed, per channel
  reqs : List DramReq
  temps : List Int
  deriving DecidableEq, Repr

/-! ## Data movers (chapter 12) -/

/-- R398: a descriptor as fetched. -/
structure Desc where
  va : Nat
  op : Nat
  flags : BitVec 8
  count : Nat
  src : Nat
  dst : Nat
  next : Nat
  param0 : BitVec 64
  deriving DecidableEq, Repr

/-- The transform a channel runs. -/
inductive Xf where
  | plain
  | gcm (key : BitVec 256) (header : Bytes) (newKey : Bool)
  | inflate (limit declared : Nat) (raw : Bool)
  | deflate (outMax : Nat) (raw : Bool)
  deriving DecidableEq, Repr

structure Chan where
  st : Nat                            -- DMA_STAT.STATE
  cause : Nat
  last : Nat
  desc : Option Desc
  nextVa : Nat                        -- address of the next descriptor to fetch
  hops : Nat
  started : Bool                      -- the operation has started
  inDone : Nat                        -- input bytes consumed
  outDone : Nat                       -- output bytes written
  input : Bytes                       -- input read by a transform (its window and bit position follow from it)
  out : Bytes                         -- output formed and not yet written (the staging buffer)
  xf : Xf
  result : BitVec 64
  status : Option Nat                 -- status decided, completion not yet written
  stop : Bool
  faultAt : Option Nat                -- PCLK at which it met its fault
  deriving DecidableEq, Repr

structure CvuPass where
  ctx : Nat
  off : Nat
  deriving DecidableEq, Repr

structure Cvu where
  cur : Option CvuPass
  queue : List CvuPass
  done : Nat                          -- bytes covered (kept over a fault)
  value : Nat                         -- the value over the bytes covered so far (R370)
  faultAt : Option Nat
  deriving DecidableEq, Repr

structure Movers where
  chans : List Chan                   -- 32
  cvus : List Cvu                     -- 4
  infOwner : Option Nat
  infWait : List Nat
  defOwner : Option Nat
  defWait : List Nat
  slots : List (BitVec 256)           -- key slots 0 to 15
  pend : List (Option (BitVec 256))   -- pending key of each slot
  keks : List (Option (BitVec 256))   -- key-wrapping keys 0 to 3
  nonceGen : List Nat                 -- per context: generation under which its counter was recorded
  deriving DecidableEq, Repr

/-! ## Lanes (chapter 13) -/

structure Link where
  id : LinkId
  st : Nat                            -- LNP_LSTAT.STATE
  wasActive : Bool
  lostAt : Bool                       -- it has left ACTIVE and its link fault has not been raised
  caps : Bytes                        -- stored capabilities
  lowEyes : List (Nat × Nat)          -- lane, consecutive windows below EYE_MIN
  frozen : List Nat                   -- R432: receive lanes whose adaptation is frozen
  trained : Bool                      -- R431: a TRAIN since reset or DEEP has chosen its peaking
  deriving DecidableEq, Repr

/-! ## Camera (chapter 14) -/

/-- R467: an entry of the trigger queue, with the settings in force at its edge. -/
structure TrigEntry where
  fseq : Nat
  gen : Nat
  at_ : Nat                           -- timebase of the edge
  settings : List (BitVec 32)
  deriving DecidableEq, Repr

structure CamFrame where
  entry : TrigEntry
  fsAt : Nat
  lines : List (List Nat)             -- lines received, in order, as 12-bit pixels
  flags : BitVec 8
  trunc : Bool
  deriving DecidableEq, Repr

structure Pipe where
  gen : Nat
  fseq : Nat
  inForce : List (BitVec 32)
  queue : List TrigEntry
  open_ : Option CamFrame             -- the frame being received
  closed : Option CamFrame            -- a frame that has ended and waits for its record
  untrig : Bool                       -- the open frame is being discarded
  deriving DecidableEq, Repr

/-! ## Calibration (chapter 18) -/

structure Converter where
  mask : Nat                          -- selected ladder segments
  cell : Nat                          -- selected offset cell
  retired : Bool
  deriving DecidableEq, Repr

structure Cal where
  enc : List Converter                -- 9
  bemf : List Converter               -- 5
  encSpare : Option Nat
  bemSpare : Option Nat
  encNext : Nat
  bemNext : Nat
  encReady : Bool                     -- the spare has been calibrated and awaits its handover
  bemReady : Bool
  aborts : List (Bool × Nat × Nat)    -- BEMF?, channel, consecutive aborts
  front : List (Bool × Nat)           -- channels moved to the front of the rotation (R557)
  taps : List (List Nat)              -- 18 lines: raw taps t_0 to t_63
  negLegs : List (Nat × Nat × Nat)    -- lane, legs in use and legs pending on its negative side (R556)
  refvOk : Bool
  deriving DecidableEq, Repr

/-! ## Observation (chapter 17) -/

structure Obs where
  counts : List (BitVec 64)           -- 64
  buffer : List Bytes                 -- trace records waiting
  traceSeq : Nat
  lost : Nat                          -- records dropped since the last LOST record
  inTransaction : Bool
  captures : List (Nat × BitVec 32)   -- R525: values the port captured under R269
  deriving DecidableEq, Repr

/-! ## The whole machine -/

structure State where
  /-- the commands that wait, first in, first out -/
  pending : List Instr
  die : Die
  pins : Pins
  clk : Clock
  /-- registers that are not 0, by rising control-space address; an unlisted register holds 0 -/
  regs : List (Nat × BitVec 32)
  /-- capture registers of R269: the address of the HI half and the value it returns -/
  captures : List (Nat × BitVec 32)
  /-- DRAM and the five SRAM pools: bytes that are not 0, by rising physical address -/
  mem : List Host.Cell
  /-- the 256 bytes of the retention island (R543) -/
  island : Bytes
  boot : Boot
  fco : Collector
  saf : Safety
  bist : Bist
  dose : Dose
  streams : List Stream               -- contexts 0 to 63
  job : List JobLink                  -- 4
  scree : Scree
  rdg : Rdg
  crn : Cornice
  act : Act
  hlk : Hlk
  stb : Strobe
  mot : Motion
  pos : List PosUnit                  -- 4
  stp : List Stepper                  -- 2
  swi : List Switch                   -- 8
  twn : Twin
  csc : Csc
  seq : Seq
  tlb : List TlbEntry
  mu : MemUnit
  dmc : Dmc
  mv : Movers
  links : List Link
  trg : List Trigger                  -- 4
  cam : List Pipe                     -- 2
  cal : Cal
  obs : Obs
  out : List Output
  /-- the model's own: free values drawn so far -/
  draws : Nat
  deriving DecidableEq, Repr

/-- Nothing in the spec stops the module: every failure it describes leads to a state (FAILED, RETIRED, HALTED, a
fault message).  No command answers a fault. -/
inductive Fault where
  deriving DecidableEq, Repr

/-- Why a step refuses. -/
inductive Refusal where
  /-- raised only by Machine/Dispatch.lean, for a row whose meaning is not written; safe: nothing is claimed of it -/
  | notModelled (mnemonic : String)
  deriving DecidableEq, Repr

/-- What every command answers. -/
abbrev Out := Host.Outcome State Fault Refusal

/-! ## Reset

The values are those the spec states; where it states none they are the ones the assumption log names (entries 1
to 4). -/

def Die.reset : Die where
  variant := 1
  step := 0
  floor := 0
  keyHash := 0
  devid := 0
  wrapKey := 0
  factory := []
  field := []
  cycle := []
  spareRows := 32
  spareCols := 32

def Pins.reset : Pins where
  cpos := 0
  tws := false
  supplyGood := false
  modEn := false
  rstN := true
  presentN := false
  tpeer := false
  town := false
  fireGate := false
  cmpHigh := List.replicate 4 false

/-- R454: the count is 0 and holds; INC is 0x5_0000_0000. -/
def Clock.reset : Clock where
  released := false
  pclk := 0
  ticks := 0
  inc := 0x500000000
  slew := 0
  incAt := 0
  nextTick := 1

def Trigger.reset : Trigger := { armed := false, nextAt := 0 }

def MemPlan.reset : MemPlan := { streamBase := 0, streamLen := 0, spillBase := 0, spillLen := 0 }

/-- R503: phase 0 RESET; BCL_SLOTS causes read UNREAD from the register file. -/
def Boot.reset : Boot where
  phase := 0
  failed := false
  code := 0
  failedStarts := 0
  rstCause := 0
  slot := 0
  usable := 0
  image := []
  ratchet := false
  plan := MemPlan.reset
  cfgCopy := []
  hot := false

def Collector.reset : Collector :=
  { errLatch := false, fill := 0, log := [], lossSeen := false, sev3Gate := false, rstMsg := 0,
    resetDue := false }

/-- R483: STARTUP is set by reset (SAF_STATE reads 2). -/
def Safety.reset : Safety where
  startup := true
  interlock := false
  discrep := false
  fault := false
  swgate := false
  cascade := false
  levA := 0
  levB := 0
  dlatch := 0
  cycle := 0
  disagreeAt := List.replicate 4 none
  openedAt := none
  closedAt := none
  closedIlk := false
  skipWindow := false
  guardEdges := []
  guardCount := 0
  guardPass := List.replicate 16 none

def Bist.reset : Bist :=
  { slices := [], nextPair := 0, nextCvu := 0, cutRuns := [], firstRidge := none }

def Grid.reset : Grid where
  origin := 0
  pitch := 65536
  minInterval := 3125
  maxInterval := 3126
  rowline := List.replicate 16 0

def RowGroup.reset : RowGroup where
  kind := 0
  bank := 0
  material := 0
  levelMin := 0
  levelMax := 0
  winLines := 1
  ceilLine := 0
  ceilWin := 0

/-- R48: a bank nothing has loaded is empty. -/
def DoseBank.empty : DoseBank := { highest := 0, entries := List.replicate 15 (0, 0) }

/-- R512: a group without a HALFTONE record starts at DITHER 1, GAIN 8, ESHIFT 2 and both phases 0. -/
def Halftone.start : Halftone := { dither := 1, gain := 8, eshift := 2, phaseA := 0, phaseB := 0 }

def Dose.reset : Dose where
  grid := Grid.reset
  groups := List.replicate 8 RowGroup.reset
  banks := List.replicate 32 DoseBank.empty
  waves := []
  curves := []
  masks := List.replicate 8 (List.replicate 256 0)
  bankSel0 := List.replicate 8 0
  mask0 := List.replicate 8 (0, 1)
  half0 := List.replicate 8 Halftone.start
  rowmap0 := 0
  changes := []
  nextOrder := 0
  window := List.replicate 8 []

/-- R107: at start every region is empty. -/
def Region.empty : Region := { col0 := 1, col1 := 0, line0 := 1, line1 := 0, layer0 := 1, layer1 := 0 }

/-- R68: a stream is closed from start-up. -/
def Stream.reset : Stream where
  desc := none
  opened := false
  everOpened := false
  ended := false
  halted := false
  rejected := false
  stalled := false
  waitStart := none
  triesAt := 0
  tries := 0
  full := []
  arriving := none
  recs := []
  lastSeg := none
  parsedEnd := []
  passedEnd := []
  boundIds := []
  fresh := []
  execIds := []
  postHeld := false
  bindings := []
  lastCairn := 0
  cairnNow := 0
  cairns := []
  acked := none
  ackedIds := []
  ackedEnds := []
  ackMsg := none
  bodies := []
  region := Region.empty
  regionNext := none
  syncOff := 0
  syncLen := 0

def JobLink.reset : JobLink where
  txNext := 0
  rxNext := 0
  peerAck := none
  peerCredit := 0
  unacked := []
  openMsg := none
  txq := []

def Scree.reset : Scree where
  nextSeq := 0
  written := false
  slots := []
  held := false
  acted := []
  due := []
  holds := []
  runs := []

def Ridge.reset (i : Nat) : Ridge where
  phys := i
  nextOrd := 0
  carried := []
  band := none
  cache := []
  nextBand := none
  nextCache := []
  upper := false
  pass := none
  stops := []
  reach := 0
  halo := []
  voids := []
  underruns := 0

/-- R152: Li runs on Pi and the spare is P16. -/
def Rdg.reset : Rdg where
  ridges := (List.range 16).map Ridge.reset
  spare := some 16
  nextLeave := 0
  leaving := none
  rotHalt := false
  retired := 0
  inBist := none
  posts := []

def Cornice.reset : Cornice where
  window := []
  nextOrd := 0
  freed := 0
  lastTaken := none
  lastFreed := none
  squashSrc := 0
  squashRidges := 0
  squashAt := { layer := 0, swath := 0, line := 0 }
  lateSwath := none
  squashed := []
  retriedRuns := []
  lastPlan := none
  crossed := 0
  decided := 0
  groups := []
  past := []

def Act.reset : Act where
  phase := 0
  t := 0
  test := none
  headFaults := []
  edits := []
  plan := []
  carry := []
  staged := false
  pending := false
  counts := []
  forSwath := none
  trims := []
  trimWait := []
  hold := none
  firstCol := true
  repaired := []
  zeroed := []

def HeadLink.reset : HeadLink :=
  { orders := [], waiting := [], held := [], hot := [], soft := false, nozzles := [], lastFired := none }

def Hlk.reset : Hlk where
  links := List.replicate 16 HeadLink.reset
  lseq := 0
  orderNo := 0
  tkn := 0
  portB := false
  fgen := 0
  fmaps := []
  waveAcks := []
  selecting := false

def Strobe.reset : Strobe where
  lastDecision := none
  prevFire := List.replicate 16 none
  prevEnd := List.replicate 16 0
  ovsRun := 0
  vtrim := List.replicate 16 0
  vtrimNext := []

def Axis.reset : Axis where
  pos := 0
  vel := 0
  acc := 0
  target := 0
  moving := false
  stopping := false
  pend := []
  restAt := none
  hstate := 0
  travel := 0
  hmark := none
  segs := []
  base := 0
  began := 0
  replan := false
  asks := []

/-- R98: UNHOMED. -/
def Motion.reset : Motion where
  bstate := 0
  heldHomed := false
  layer := none
  lastLayer := none
  nextSwath := 0
  queue := []
  current := none
  spanOn := false
  inCol := false
  colDue := false
  derate := false
  swtags := 0
  issued := 0
  axes := List.replicate 4 Axis.reset
  homing := []
  recoats := 0
  platformMove := false
  edits := []
  axpSeq := [0, 0]
  axpBad := [0, 0]
  axpBytes := [[], []]

def PosUnit.reset : PosUnit where
  count := 0
  hist := []
  speedValid := false
  neg := false
  speed := 0
  aLine := false
  bLine := false
  qerrAt := []
  fault := false
  heldX := 0
  changeAt := 0
  beforeX := 0
  ssiPos := 0
  ssiAt := 0
  ssiDiff := 0
  ssiErrs := 0
  ssiSeen := false
  ssiBack := false
  angle := 0
  angleAt := 0
  ampBad := 0
  angleSeen := false
  cmpArmed := false
  cmpPrev := false
  cmpVal := 0
  cmpEnd := none

def Stepper.reset : Stepper :=
  { pos := 0, elec := 0, load := 0, hold := true, stalled := false, retained := false }

/-- R293: role start-up. -/
def Twin.reset : Twin where
  role := 0
  peerRole := 0
  linkUp := false
  peerSlotB := none
  peerVariant := 0
  peerStep := 0
  peerCompat := 0
  txNext := 0
  rxNext := 0
  peerAck := 0
  unacked := []
  waiting := []
  phase := 0
  cause := 0
  object := 0
  retries := 0
  done := 0
  joinSwath := none
  ties := []
  selfFaults := 0
  lates := 0
  topLseq := none
  topTkn := 0
  handover := none
  takeoverFrom := none
  segment := none
  copies := []
  idBad := false
  idTold := false
  timePeer := none

def CscPort.reset : CscPort := { up := false, txNext := 0, rxNext := 0, peerAck := 0, unacked := [], waiting := [] }

/-- R320: DOWN. -/
def Csc.reset : Csc where
  jstate := 0
  joined := 0
  refused := false
  upPort := CscPort.reset
  downPort := CscPort.reset
  ltkn := 0
  goodTimes := 0
  exchanges := 0
  timeAsked := none
  committed := 0
  slots := []

/-- R330, R332: a context nothing has configured is OFF with START 0. -/
def Ctx.reset : Ctx where
  k := List.replicate 16 0
  pc := 0
  z := false
  n := false
  c := false
  v := false
  intrap := false
  innmi := false
  rstate := 0
  prio := 0
  beat := 0
  evpend := 0
  wmask := 0
  tvec := 0
  tpc := 0
  taddr := 0
  tcause := 0
  tflags := 0
  tbeat := 0
  tload := false
  wdog := 0
  wdLeft := 0
  xroot := 0
  keyslot := 255
  dmamask := 0
  quota := 0
  qused := 0
  timer := 0
  start := 0
  sigfrom := 0
  cclks := 0
  npc := 0
  nstat := 0
  saved := List.replicate 256 0

def Seq.reset : Seq where
  ctxs := List.replicate 64 Ctx.reset
  pairs := List.replicate 4 { inService := true, running := 0, used := 0 }
  ready := []
  retired := 0
  nmi := none

def MemUnit.reset : MemUnit :=
  { ces := [], ues := [], bgPos := 0x4000000000, dramPos := 0, scrub := none, repeats := [], candidates := [] }

def Dmc.reset : Dmc where
  selfRef := 0
  hot := 0
  failed := 0
  postponed := List.replicate 4 0
  reqs := []
  temps := List.replicate 4 0

def Chan.reset : Chan where
  st := 0
  cause := 0
  last := 0
  desc := none
  nextVa := 0
  hops := 0
  started := false
  inDone := 0
  outDone := 0
  input := []
  out := []
  xf := .plain
  result := 0
  status := none
  stop := false
  faultAt := none

def Cvu.reset : Cvu := { cur := none, queue := [], done := 0, value := 0, faultAt := none }

/-- R416: every slot is cleared to generation 0 at reset (the generation is CRY_GEN in the register file). -/
def Movers.reset : Movers where
  chans := List.replicate 32 Chan.reset
  cvus := List.replicate 4 Cvu.reset
  infOwner := none
  infWait := []
  defOwner := none
  defWait := []
  slots := List.replicate 16 0
  pend := List.replicate 16 none
  keks := List.replicate 4 none
  nonceGen := List.replicate 64 0

/-- R434: DEEP. -/
def Link.reset (k : LinkId) : Link :=
  { id := k, st := 0, wasActive := false, lostAt := false, caps := [], lowEyes := [], frozen := [], trained := false }

def allLinks : List LinkId :=
  (List.range 16).map LinkId.head ++ (List.range 4).map LinkId.job ++ [.twin, .cup, .cdn]

/-- CAM_LEVEL starts with GAIN 256; every other processing setting starts at 0 (11 registers, then 16 windows of
two registers). -/
def Pipe.startSettings : List (BitVec 32) :=
  [0, 0, 0x01000000, 0, 0, 0, 0, 0, 0, 0] ++ List.replicate 32 0

def Pipe.reset : Pipe :=
  { gen := 0, fseq := 0, inForce := Pipe.startSettings, queue := [], open_ := none, closed := none, untrig := false }

/-- CAL_STATE starts at 0x48: ENC spare 8, BEMF spare 4. -/
def Cal.reset : Cal where
  enc := List.replicate 9 { mask := 0, cell := 0, retired := false }
  bemf := List.replicate 5 { mask := 0, cell := 0, retired := false }
  encSpare := some 8
  bemSpare := some 4
  encNext := 0
  bemNext := 0
  encReady := false
  bemReady := false
  aborts := []
  front := []
  taps := List.replicate 18 []
  negLegs := []
  refvOk := false

def Obs.reset : Obs :=
  { counts := List.replicate 64 0, buffer := [], traceSeq := 0, lost := 0, inTransaction := false, captures := [] }

def resetRegs01 : List (Nat × BitVec 32) :=
  [(0x5000010008, 0xF0F)]

def resetRegs02 : List (Nat × BitVec 32) :=
  [(0x5000020008, 0x41A)]

def resetRegs03 : List (Nat × BitVec 32) :=
  [(0x5000032080, 0x1B803), (0x5000032084, 0x1B803), (0x5000032088, 0x1B803), (0x500003208C, 0x9302),
   (0x50000320C0, 0x8101), (0x50000320C4, 0x9302), (0x50000320C8, 0x9302), (0x5000032100, 0x8100),
   (0x5000032104, 0x1B302), (0x5000032108, 0x1B803), (0x500003210C, 0x1B803), (0x5000032110, 0x9302),
   (0x5000032114, 0x1B303), (0x5000032118, 0x1B303), (0x5000032140, 0x9302), (0x5000032144, 0x9302),
   (0x5000032148, 0x9302), (0x500003214C, 0x8000), (0x5000032150, 0x9302), (0x5000032180, 0x9302),
   (0x5000032184, 0x8000), (0x50000321C0, 0x9302), (0x50000321C4, 0x1B803), (0x50000321C8, 0x8101),
   (0x50000321CC, 0xB303), (0x50000321D0, 0xB303), (0x5000032204, 0x9302), (0x5000032208, 0x9302),
   (0x5000032244, 0x8102), (0x5000032248, 0x8101), (0x500003224C, 0xB303), (0x5000032250, 0x9302),
   (0x5000032254, 0x8000), (0x5000032284, 0x8102), (0x5000032288, 0x8101), (0x500003228C, 0x9302),
   (0x5000032290, 0xB303), (0x50000322C0, 0x8102), (0x50000322C4, 0x8101), (0x50000322C8, 0x8102),
   (0x50000322CC, 0x8101), (0x50000322D0, 0x9302), (0x5000032300, 0x8101), (0x5000032380, 0x8100),
   (0x5000032384, 0x8101), (0x5000032388, 0x8101), (0x500003238C, 0x8101), (0x5000032400, 0x8000),
   (0x5000032404, 0x8102), (0x5000032408, 0x8102), (0x500003240C, 0x9302), (0x5000032410, 0x8101),
   (0x5000032444, 0x9302), (0x5000032448, 0x9302), (0x500003244C, 0x8101), (0x5000032450, 0x9302),
   (0x5000032454, 0x8102), (0x5000032458, 0x8101), (0x5000032480, 0x8101), (0x5000032484, 0x9302),
   (0x5000032488, 0x9302), (0x500003248C, 0x8101), (0x5000032490, 0x8000), (0x5000032494, 0x8101),
   (0x5000032498, 0x8102), (0x50000324C0, 0x9302), (0x50000324C4, 0x8101), (0x50000324C8, 0x8102),
   (0x50000324CC, 0xB302), (0x50000324D0, 0x8000), (0x50000324D4, 0x8101), (0x50000324D8, 0x9302),
   (0x50000324DC, 0x8101), (0x50000324E0, 0x9302), (0x5000032500, 0x8000), (0x5000032504, 0x9302),
   (0x500003250C, 0x9302), (0x5000032510, 0x8101), (0x5000032600, 0x9302), (0x5000032604, 0x9302),
   (0x5000032608, 0x9302), (0x500003260C, 0x9302), (0x5000032610, 0x9302), (0x5000032614, 0x9302),
   (0x5000032618, 0x8000), (0x5000032640, 0x9302), (0x5000032648, 0x9302), (0x500003264C, 0x9302),
   (0x5000032680, 0x9302), (0x5000032684, 0x8000), (0x50000326C0, 0x9302), (0x5000032840, 0x8101),
   (0x5000032844, 0x8000), (0x5000032848, 0x8101), (0x5000032880, 0x9302), (0x5000032884, 0x9302),
   (0x5000032888, 0x9302), (0x500003288C, 0x8101), (0x5000032890, 0x9302), (0x5000032894, 0x9302),
   (0x5000032898, 0x9302), (0x500003289C, 0x9302), (0x50000328A0, 0x9302), (0x50000328A4, 0x9302),
   (0x50000328A8, 0x9302), (0x50000328C0, 0x9302), (0x50000328C4, 0xB302), (0x50000328C8, 0xB302),
   (0x50000328CC, 0x9302), (0x50000328D0, 0x9303), (0x50000328D4, 0x9302), (0x50000328D8, 0x8101),
   (0x5000032900, 0x8101), (0x5000032940, 0x8000), (0x5000032A04, 0x8000), (0x5000032A08, 0x8000),
   (0x5000032A0C, 0x8000)]

def resetRegs04 : List (Nat × BitVec 32) :=
  [(0x5000040000, 0xC)]

def resetRegs05 : List (Nat × BitVec 32) :=
  [(0x5000050000, 0x331388)]

def resetRegs06 : List (Nat × BitVec 32) :=
  [(0x5000060000, 0x4320A)]

def resetRegs07 : List (Nat × BitVec 32) :=
  [(0x5000070000, 0x1001), (0x500007000C, 0x64)]

def resetRegs09 : List (Nat × BitVec 32) :=
  [(0x5000090000, 0x4000A), (0x5000090004, 0x18)]

def resetRegs0A : List (Nat × BitVec 32) :=
  [(0x50000A0000, 0xC80069), (0x50000A0004, 0x6414)]

def resetRegs0B : List (Nat × BitVec 32) :=
  [(0x50000B0000, 0xA), (0x50000B0100, 0x1000000), (0x50000B0120, 0x1000000), (0x50000B0140, 0x1000000),
   (0x50000B0160, 0x1000000), (0x50000B0180, 0x1000000), (0x50000B01A0, 0x1000000), (0x50000B01C0, 0x1000000),
   (0x50000B01E0, 0x1000000), (0x50000B0200, 0x1000000), (0x50000B0220, 0x1000000), (0x50000B0240, 0x1000000),
   (0x50000B0260, 0x1000000), (0x50000B0280, 0x1000000), (0x50000B02A0, 0x1000000), (0x50000B02C0, 0x1000000),
   (0x50000B02E0, 0x1000000), (0x50000B0300, 0x1000000), (0x50000B0320, 0x1000000), (0x50000B0340, 0x1000000),
   (0x50000B0360, 0x1000000), (0x50000B0380, 0x1000000), (0x50000B03A0, 0x1000000), (0x50000B03C0, 0x1000000),
   (0x50000B03E0, 0x1000000), (0x50000B0400, 0x1000000), (0x50000B0420, 0x1000000), (0x50000B0440, 0x1000000),
   (0x50000B0460, 0x1000000), (0x50000B0480, 0x1000000), (0x50000B04A0, 0x1000000), (0x50000B04C0, 0x1000000),
   (0x50000B04E0, 0x1000000)]

def resetRegs0C : List (Nat × BitVec 32) :=
  [(0x50000C0000, 0xA)]

def resetRegs11 : List (Nat × BitVec 32) :=
  [(0x5000110000, 0x10)]

def resetRegs12 : List (Nat × BitVec 32) :=
  [(0x5000120000, 0x8088413), (0x5000120008, 0x5028064), (0x500012000C, 0x100040), (0x5000120010, 0x100),
   (0x5000120014, 0x2710)]

def resetRegs13 : List (Nat × BitVec 32) :=
  [(0x5000130000, 0xA00)]

def resetRegs14 : List (Nat × BitVec 32) :=
  [(0x5000140000, 0x804)]

def resetRegs18 : List (Nat × BitVec 32) :=
  [(0x5000180000, 0x10CD00)]

def resetRegs1B : List (Nat × BitVec 32) :=
  [(0x50001B0000, 0x6400C8)]

def resetRegs20 : List (Nat × BitVec 32) :=
  [(0x5000200000, 0x40200830)]

def resetRegs22 : List (Nat × BitVec 32) :=
  [(0x5000220000, 0x3C322800), (0x5000220004, 0x402310)]

def resetRegs23 : List (Nat × BitVec 32) :=
  [(0x5000230000, 0x400)]

def resetRegs25 : List (Nat × BitVec 32) :=
  [(0x5000250000, 0x3200), (0x500025001C, 0x5)]

def resetRegs28 : List (Nat × BitVec 32) :=
  [(0x500028011C, 0x1000000), (0x500028019C, 0x1000000)]

def resetRegs30 : List (Nat × BitVec 32) :=
  [(0x5000300000, 0x40), (0x5000300004, 0x6E)]

/-- R14, R454, R475 and the register maps: the registers whose value at the release of reset is not 0.  For a CFG field it is
the "At start" value of its map, which the configuration load then replaces (log entry 4). -/
def resetRegs : List (Nat × BitVec 32) :=
  resetRegs01 ++ resetRegs02 ++ resetRegs03 ++ resetRegs04 ++ resetRegs05 ++ resetRegs06 ++ resetRegs07 ++ resetRegs09 ++ resetRegs0A ++ resetRegs0B ++ resetRegs0C ++ resetRegs11 ++ resetRegs12 ++
   resetRegs13 ++ resetRegs14 ++ resetRegs18 ++ resetRegs1B ++ resetRegs20 ++ resetRegs22 ++ resetRegs23 ++ resetRegs25 ++ resetRegs28 ++ resetRegs30

/-- The module right after reset. -/
def State.reset : State where
  pending := []
  die := Die.reset
  pins := Pins.reset
  clk := Clock.reset
  regs := resetRegs
  captures := []
  mem := []
  island := List.replicate 256 0
  boot := Boot.reset
  fco := Collector.reset
  saf := Safety.reset
  bist := Bist.reset
  dose := Dose.reset
  streams := List.replicate 64 Stream.reset
  job := List.replicate 4 JobLink.reset
  scree := Scree.reset
  rdg := Rdg.reset
  crn := Cornice.reset
  act := Act.reset
  hlk := Hlk.reset
  stb := Strobe.reset
  mot := Motion.reset
  pos := List.replicate 4 PosUnit.reset
  stp := List.replicate 2 Stepper.reset
  swi := List.replicate 8 { active := false, faulty := false }
  twn := Twin.reset
  csc := Csc.reset
  seq := Seq.reset
  tlb := []
  mu := MemUnit.reset
  dmc := Dmc.reset
  mv := Movers.reset
  links := allLinks.map Link.reset
  trg := List.replicate 4 Trigger.reset
  cam := List.replicate 2 Pipe.reset
  cal := Cal.reset
  obs := Obs.reset
  out := []
  draws := 0

end Sys2Proof.Machine
end

