-- ==== Sys2Proof/Machine/Regs.lean ====
section
/-! DEFINITION. The control space (R6, R7, R11): the address, access code and defined bits of every register the spec
lists, and the fault sources of R482.  A register with a bracketed index in the spec is a function of its index. -/

namespace Sys2Proof.Machine

/-- R11: the access codes. -/
inductive Access where
  | ro | rw | w1c | wo | rc | cfg | sup
  deriving DecidableEq, Repr

/-- One row of a register map: entries `first` to `count` − 1, `stride` bytes apart from `base`; `mask` holds the bits
that a write can change. -/
structure RegDesc where
  base : Nat
  stride : Nat
  count : Nat
  first : Nat
  access : Access
  mask : BitVec 32
  deriving DecidableEq, Repr

namespace Reg

def IDC_PART : Nat := 0x5000000000
def IDC_UNITS_LO : Nat := 0x5000000008
def IDC_UNITS_HI : Nat := 0x500000000C
def IDC_CAP : Nat := 0x5000000010
def RDG_CTRL : Nat := 0x5000100000
def RDG_EVENT : Nat := 0x5000100004
def RDG_SPARE : Nat := 0x5000100008
def RDG_RETIRED : Nat := 0x500010000C
def RDG_MAP0 : Nat := 0x5000100010
def RDG_MAP1 : Nat := 0x5000100014
def RDG_MAP2 : Nat := 0x5000100018
def RDG_POST : Nat := 0x5000100020
def RDG_RETRY : Nat := 0x5000100024
def RDG_BANDS : Nat := 0x5000100030
def RDG_RELINES : Nat := 0x5000100034
def RDG_PASSES : Nat := 0x5000100038
def RDG_HALO_WAIT : Nat := 0x500010003C
def RDG_PSTAT (p : Nat) : Nat := 0x5000100100 + 4 * p
def RDG_XF_CTX (i : Nat) : Nat := 0x5000100200 + 8 * i
def RDG_XF_LINE (i : Nat) : Nat := 0x5000100204 + 8 * i
def CRN_CTRL : Nat := 0x5000110000
def CRN_EVENT : Nat := 0x5000110004
def CRN_FIRST : Nat := 0x5000110008
def CRN_OPEN : Nat := 0x500011000C
def CRN_HORIZON : Nat := 0x5000110010
def CRN_TXLINE : Nat := 0x5000110014
def CRN_TXLAYER : Nat := 0x5000110018
def CRN_TXSWATH : Nat := 0x500011001C
def CRN_SQUASH : Nat := 0x5000110020
def CRN_SQ_LINE : Nat := 0x5000110024
def CRN_SQ_LAYER : Nat := 0x5000110028
def CRN_SQ_SWATH : Nat := 0x500011002C
def CRN_SQUASHES : Nat := 0x5000110030
def CRN_SQ_RLINES : Nat := 0x5000110034
def CRN_UNDERRUNS : Nat := 0x5000110038
def CRN_VOID_ORDERS : Nat := 0x500011003C
def CRN_STALE_VALUES : Nat := 0x5000110040
def CRN_LW_LAYER (x : Nat) : Nat := 0x5000110400 + 16 * x
def CRN_LW_SWATH (x : Nat) : Nat := 0x5000110404 + 16 * x
def CRN_LW_LINE (x : Nat) : Nat := 0x5000110408 + 16 * x
def CRN_LW_CTRL (x : Nat) : Nat := 0x500011040C + 16 * x
def CRN_LST_LO (s : Nat) : Nat := 0x5000111000 + 8 * s
def CRN_LST_HI (s : Nat) : Nat := 0x5000111004 + 8 * s
def ACT_CTRL : Nat := 0x5000120000
def ACT_EVENT : Nat := 0x5000120004
def ACT_SHOTS : Nat := 0x5000120008
def ACT_LIMITS : Nat := 0x500012000C
def ACT_MASS : Nat := 0x5000120010
def ACT_HOLD : Nat := 0x5000120014
def ACT_PLAN_BASE : Nat := 0x5000120018
def ACT_STATUS : Nat := 0x500012001C
def ACT_COLNO : Nat := 0x5000120020
def ACT_PLAN_SWATH : Nat := 0x5000120024
def ACT_PLAN_LAYER : Nat := 0x5000120028
def ACT_CHANGES : Nat := 0x500012002C
def ACT_NEWHIDE : Nat := 0x5000120030
def ACT_LOADFIX : Nat := 0x5000120034
def ACT_CLASS (k : Nat) : Nat := 0x5000120040 + 4 * k
def ACT_EDIT_IDX : Nat := 0x5000120060
def ACT_EDIT_VAL : Nat := 0x5000120064
def ACT_EDIT_FREE : Nat := 0x5000120068
def ACT_SHOTS_FIRED : Nat := 0x5000120080
def ACT_PASS : Nat := 0x5000120084
def ACT_LATE : Nat := 0x5000120088
def ACT_MISS : Nat := 0x500012008C
def ACT_EXTRA : Nat := 0x5000120090
def ACT_STRAY : Nat := 0x5000120094
def ACT_COMMITS : Nat := 0x5000120098
def ACT_FLIGHT (r : Nat) : Nat := 0x5000120100 + 4 * r
def ACT_TESTWAVE (g : Nat) : Nat := 0x5000120140 + 4 * g
def ACT_PARTNER (r : Nat) : Nat := 0x5000120180 + 4 * r
def HLK_CTRL : Nat := 0x5000130000
def HLK_EVENT : Nat := 0x5000130004
def HLK_UP : Nat := 0x5000130008
def HLK_LSEQ : Nat := 0x500013000C
def HLK_PORT : Nat := 0x5000130010
def HLK_FMAP : Nat := 0x5000130014
def HLK_TXLINES : Nat := 0x5000130020
def HLK_LOSTLINES : Nat := 0x5000130024
def HLK_ST_CRC : Nat := 0x5000130028
def HLK_ORDERS : Nat := 0x500013002C
def HLK_LINK (l : Nat) : Nat := 0x5000130100 + 4 * l
def HLK_TLIM (l : Nat) : Nat := 0x5000130140 + 4 * l
def HLK_TEMP (l : Nat) : Nat := 0x5000130180 + 4 * l
def STB_CTRL : Nat := 0x5000140000
def STB_EVENT : Nat := 0x5000140004
def STB_STATE : Nat := 0x5000140008
def STB_FIRES : Nat := 0x5000140010
def STB_SKIPS : Nat := 0x5000140014
def STB_OVERSPEED : Nat := 0x5000140018
def STB_STANDSTILL : Nat := 0x500014001C
def STB_LATE : Nat := 0x5000140020
def STB_ROW (r : Nat) : Nat := 0x5000140100 + 4 * r
def STB_VTRIM (r : Nat) : Nat := 0x5000140140 + 4 * r
def PLN_CTRL : Nat := 0x5000180000
def PLN_EVENT : Nat := 0x5000180004
def PLN_STATE : Nat := 0x5000180008
def PLN_SCALE : Nat := 0x500018000C
def PLN_EDIT : Nat := 0x5000180010
def PLN_EDSTAT : Nat := 0x5000180014
def PLN_STN_PLO : Nat := 0x5000180018
def PLN_STN_PHI : Nat := 0x500018001C
def PLN_STN_NLO : Nat := 0x5000180020
def PLN_STN_NHI : Nat := 0x5000180024
def PLN_RCT0 : Nat := 0x5000180028
def PLN_RCT1 : Nat := 0x500018002C
def PLN_REPLANS : Nat := 0x5000180030
def PLN_VMAX (a : Nat) : Nat := 0x5000180100 + 32 * a
def PLN_AMAX (a : Nat) : Nat := 0x5000180104 + 32 * a
def PLN_JMAX (a : Nat) : Nat := 0x5000180108 + 32 * a
def PLN_SDEC (a : Nat) : Nat := 0x500018010C + 32 * a
def PLN_SOFTLO (a : Nat) : Nat := 0x5000180110 + 32 * a
def PLN_SOFTHI (a : Nat) : Nat := 0x5000180114 + 32 * a
def PLN_AXCTRL (a : Nat) : Nat := 0x5000180118 + 32 * a
def PLN_FOLMAX (a : Nat) : Nat := 0x500018011C + 32 * a
def PLN_HOME (a : Nat) : Nat := 0x5000180200 + 32 * a
def PLN_HSEEK (a : Nat) : Nat := 0x5000180204 + 32 * a
def PLN_HCREEP (a : Nat) : Nat := 0x5000180208 + 32 * a
def PLN_HBACK (a : Nat) : Nat := 0x500018020C + 32 * a
def PLN_HPOS (a : Nat) : Nat := 0x5000180210 + 32 * a
def PLN_HRANGE (a : Nat) : Nat := 0x5000180214 + 32 * a
def PLN_HSTAT (a : Nat) : Nat := 0x5000180218 + 32 * a
def PLN_PPOS (a : Nat) : Nat := 0x5000180300 + 16 * a
def PLN_PVEL (a : Nat) : Nat := 0x5000180304 + 16 * a
def PLN_FOLERR (a : Nat) : Nat := 0x5000180308 + 16 * a
def PLN_AXP (p : Nat) : Nat := 0x5000180400 + 16 * p
def PLN_AXPSTAT (p : Nat) : Nat := 0x5000180404 + 16 * p
def PLN_AXPERR (p : Nat) : Nat := 0x5000180408 + 16 * p
def POS_EVENT : Nat := 0x5000190000
def POS_QERRS (u : Nat) : Nat := 0x5000190010 + 4 * u
def POS_CFG (u : Nat) : Nat := 0x5000190100 + 64 * u
def POS_AMP (u : Nat) : Nat := 0x5000190104 + 64 * u
def POS_QERR (u : Nat) : Nat := 0x5000190108 + 64 * u
def POS_SSI (u : Nat) : Nat := 0x500019010C + 64 * u
def POS_POS_LO (u : Nat) : Nat := 0x5000190110 + 64 * u
def POS_POS_HI (u : Nat) : Nat := 0x5000190114 + 64 * u
def POS_SPEED (u : Nat) : Nat := 0x5000190118 + 64 * u
def POS_STAT (u : Nat) : Nat := 0x500019011C + 64 * u
def POS_PRB_LO (u : Nat) : Nat := 0x5000190120 + 64 * u
def POS_PRB_HI (u : Nat) : Nat := 0x5000190124 + 64 * u
def POS_PRB_TLO (u : Nat) : Nat := 0x5000190128 + 64 * u
def POS_PRB_THI (u : Nat) : Nat := 0x500019012C + 64 * u
def POS_PRBCTRL (u : Nat) : Nat := 0x5000190130 + 64 * u
def POS_CMP_LO (u : Nat) : Nat := 0x5000190134 + 64 * u
def POS_CMP_HI (u : Nat) : Nat := 0x5000190138 + 64 * u
def POS_CMPCTRL (u : Nat) : Nat := 0x500019013C + 64 * u
def STP_EVENT : Nat := 0x50001A0000
def STP_CFG (m : Nat) : Nat := 0x50001A0100 + 32 * m
def STP_STALL (m : Nat) : Nat := 0x50001A0104 + 32 * m
def STP_SVMIN (m : Nat) : Nat := 0x50001A0108 + 32 * m
def STP_CTRL (m : Nat) : Nat := 0x50001A010C + 32 * m
def STP_POS (m : Nat) : Nat := 0x50001A0110 + 32 * m
def STP_ELEC (m : Nat) : Nat := 0x50001A0114 + 32 * m
def STP_STAT (m : Nat) : Nat := 0x50001A0118 + 32 * m
def STP_IGNORED (m : Nat) : Nat := 0x50001A011C + 32 * m
def SWI_CTRL : Nat := 0x50001B0000
def SWI_EVENT : Nat := 0x50001B0004
def SWI_STATE : Nat := 0x50001B0008
def SWI_CFG (k : Nat) : Nat := 0x50001B0100 + 4 * k
def SWI_TRANS (k : Nat) : Nat := 0x50001B0140 + 4 * k
def TWN_CTRL : Nat := 0x5000220000
def TWN_LIMITS : Nat := 0x5000220004
def TWN_CMD : Nat := 0x5000220008
def TWN_EVENT : Nat := 0x500022000C
def TWN_STATE : Nat := 0x5000220010
def TWN_SYNC : Nat := 0x5000220014
def TWN_PEER : Nat := 0x5000220018
def TWN_LATES : Nat := 0x5000220020
def TWN_MISMATCHES : Nat := 0x5000220024
def TWN_EXPLAINED : Nat := 0x5000220028
def TWN_TAKEOVERS : Nat := 0x500022002C
def TWN_RETX : Nat := 0x5000220030
def TWN_ALIGN_RETRY : Nat := 0x5000220034
def CSC_CTRL : Nat := 0x5000230000
def CSC_COLBASE : Nat := 0x5000230004
def CSC_CARRIAGE : Nat := 0x5000230008
def CSC_LINEOFS : Nat := 0x500023000C
def CSC_SCANOFS : Nat := 0x5000230010
def CSC_EVENT : Nat := 0x5000230014
def CSC_STATE : Nat := 0x5000230018
def CSC_DELAY : Nat := 0x500023001C
def CSC_RETX : Nat := 0x5000230020
def SEQ_CTRL : Nat := 0x5000070000
def SEQ_EVENT : Nat := 0x5000070004
def SEQ_PAIRS : Nat := 0x5000070008
def SEQ_SUPWD : Nat := 0x500007000C
def SEQ_NVEC_LO : Nat := 0x5000070010
def SEQ_NVEC_HI : Nat := 0x5000070014
def SEQ_CCMD : Nat := 0x5000070018
def SEQ_CSEL : Nat := 0x500007001C
def SEQ_RDY_LO : Nat := 0x5000070020
def SEQ_RDY_HI : Nat := 0x5000070024
def SEQ_WAIT_LO : Nat := 0x5000070028
def SEQ_WAIT_HI : Nat := 0x500007002C
def SEQ_HALT_LO : Nat := 0x5000070030
def SEQ_HALT_HI : Nat := 0x5000070034
def SEQ_RUN (p : Nat) : Nat := 0x5000070040 + 4 * p
def SEQ_SWITCHES : Nat := 0x5000070050
def SEQ_PREEMPTS : Nat := 0x5000070054
def SEQ_TRAPS : Nat := 0x5000070058
def SEQ_CWIN (i : Nat) : Nat := 0x5000071000 + 4 * i
def XLT_EVENT : Nat := 0x5000080000
def XLT_INV_VA : Nat := 0x5000080008
def XLT_INVAL : Nat := 0x500008000C
def XLT_FSUM_LO : Nat := 0x5000080010
def XLT_FSUM_HI : Nat := 0x5000080014
def XLT_RESUME : Nat := 0x5000080018
def XLT_WALKS : Nat := 0x5000080020
def XLT_FAULTS : Nat := 0x5000080024
def XLT_INVALS : Nat := 0x5000080028
def XLT_FS_VA_LO (s : Nat) : Nat := 0x5000080100 + 16 * s
def XLT_FS_VA_HI (s : Nat) : Nat := 0x5000080104 + 16 * s
def XLT_FS_INFO (s : Nat) : Nat := 0x5000080108 + 16 * s
def XLT_SEQF (x : Nat) : Nat := 0x5000080500 + 4 * x
def MEM_CTRL : Nat := 0x5000090000
def MEM_DRAM_BG : Nat := 0x5000090004
def MEM_EVENT : Nat := 0x5000090008
def MEM_UE_LO : Nat := 0x500009000C
def MEM_UE_HI : Nat := 0x5000090010
def MEM_SCRUB_LO : Nat := 0x5000090020
def MEM_SCRUB_HI : Nat := 0x5000090024
def MEM_SCRUB_LEN : Nat := 0x5000090028
def MEM_SCRUB_CTRL : Nat := 0x500009002C
def MEM_SC_LINES : Nat := 0x5000090030
def MEM_SC_CE : Nat := 0x5000090034
def MEM_SC_UE : Nat := 0x5000090038
def MEM_SC_FIRST_LO : Nat := 0x500009003C
def MEM_SC_FIRST_HI : Nat := 0x5000090040
def MEM_CES : Nat := 0x5000090050
def MEM_UES : Nat := 0x5000090054
def MEM_TRIFIX : Nat := 0x5000090058
def MEM_REPAIR (k : Nat) : Nat := 0x5000090080 + 4 * k
def MEM_CAND : Nat := 0x50000900A0
def DMC_CTRL : Nat := 0x50000A0000
def DMC_AGE : Nat := 0x50000A0004
def DMC_EVENT : Nat := 0x50000A0008
def DMC_STATE : Nat := 0x50000A000C
def DMC_TEMP : Nat := 0x50000A0010
def DMC_UE_LO : Nat := 0x50000A0020
def DMC_UE_HI : Nat := 0x50000A0024
def DMC_CES : Nat := 0x50000A0030
def DMC_UES : Nat := 0x50000A0034
def DMC_PROMOTED : Nat := 0x50000A0038
def DMC_SR_ENTRIES : Nat := 0x50000A003C
def DMC_LINES (c : Nat) : Nat := 0x50000A0040 + 4 * c
def DMA_CTRL : Nat := 0x50000B0000
def DMA_EVENT : Nat := 0x50000B0004
def DMA_BUSY : Nat := 0x50000B0010
def DMA_HALTED : Nat := 0x50000B0014
def DMA_BEATS : Nat := 0x50000B0020
def DMA_BADDESC : Nat := 0x50000B0024
def DMA_CFG (c : Nat) : Nat := 0x50000B0100 + 32 * c
def DMA_HEAD_LO (c : Nat) : Nat := 0x50000B0104 + 32 * c
def DMA_HEAD_HI (c : Nat) : Nat := 0x50000B0108 + 32 * c
def DMA_CMD (c : Nat) : Nat := 0x50000B010C + 32 * c
def DMA_STAT (c : Nat) : Nat := 0x50000B0110 + 32 * c
def DMA_CUR_LO (c : Nat) : Nat := 0x50000B0114 + 32 * c
def DMA_CUR_HI (c : Nat) : Nat := 0x50000B0118 + 32 * c
def DMA_DONES (c : Nat) : Nat := 0x50000B011C + 32 * c
def CVU_CTRL : Nat := 0x50000C0000
def CVU_EVENT : Nat := 0x50000C0004
def CVU_PASSES : Nat := 0x50000C0010
def CVU_GO (u : Nat) : Nat := 0x50000C0100 + 16 * u
def CVU_STAT (u : Nat) : Nat := 0x50000C0104 + 16 * u
def DFL_EVENT : Nat := 0x50000D0000
def DFL_OWNER : Nat := 0x50000D0004
def DFL_INF_IN : Nat := 0x50000D0010
def DFL_INF_OUT : Nat := 0x50000D0014
def DFL_DEF_IN : Nat := 0x50000D0018
def DFL_DEF_OUT : Nat := 0x50000D001C
def CRY_EVENT : Nat := 0x50000E0000
def CRY_KEK : Nat := 0x50000E0004
def CRY_DEVID_LO : Nat := 0x50000E0008
def CRY_DEVID_HI : Nat := 0x50000E000C
def CRY_CLEAR : Nat := 0x50000E0010
def CRY_AUTHFAILS : Nat := 0x50000E0020
def CRY_GEN (s : Nat) : Nat := 0x50000E0100 + 8 * s
def CRY_OWNER (s : Nat) : Nat := 0x50000E0104 + 8 * s
def CRY_NONCE_LO (x : Nat) : Nat := 0x50000E0200 + 8 * x
def CRY_NONCE_HI (x : Nat) : Nat := 0x50000E0204 + 8 * x
def LNP_CTRL : Nat := 0x5000200000
def LNP_EVENT : Nat := 0x5000200004
def LNP_RETRAINS : Nat := 0x5000200008
def LNP_CODEERRS : Nat := 0x500020000C
def LNP_LCFG (n : Nat) : Nat := 0x5000200100 + 4 * n
def LNP_LSTAT (n : Nat) : Nat := 0x5000200300 + 4 * n
def JOB_CTRL : Nat := 0x5000210000
def JOB_EVENT : Nat := 0x5000210004
def JOB_UP : Nat := 0x5000210008
def JOB_TXQ : Nat := 0x500021000C
def JOB_FREE : Nat := 0x5000210010
def JOB_HALT : Nat := 0x5000210014
def JOB_OPEN : Nat := 0x5000210018
def JOB_ERR (l : Nat) : Nat := 0x5000210020 + 4 * l
def JOB_RETX (l : Nat) : Nat := 0x5000210030 + 4 * l
def JOB_OPENED_LO : Nat := 0x5000210040
def JOB_OPENED_HI : Nat := 0x5000210044
def JOB_NEXT (x : Nat) : Nat := 0x5000211000 + 32 * x
def JOB_LIMIT (x : Nat) : Nat := 0x5000211004 + 32 * x
def JOB_BUFBASE_LO (x : Nat) : Nat := 0x5000211008 + 32 * x
def JOB_BUFBASE_HI (x : Nat) : Nat := 0x500021100C + 32 * x
def JOB_BUFFULL_LO (x : Nat) : Nat := 0x5000211010 + 32 * x
def JOB_BUFFULL_HI (x : Nat) : Nat := 0x5000211014 + 32 * x
def JOB_MSGHEAD (x : Nat) : Nat := 0x5000211018 + 32 * x
def JOB_MSGTAIL (x : Nat) : Nat := 0x500021101C + 32 * x
def ETH_CTRL : Nat := 0x5000240000
def ETH_EVENT : Nat := 0x5000240004
def ETH_STAT : Nat := 0x5000240008
def ETH_MAC_LO : Nat := 0x500024000C
def ETH_MAC_HI : Nat := 0x5000240010
def ETH_LAT : Nat := 0x5000240014
def ETH_RXBASE : Nat := 0x5000240018
def ETH_RXHEAD : Nat := 0x500024001C
def ETH_RXTAIL : Nat := 0x5000240020
def ETH_TXBASE : Nat := 0x5000240024
def ETH_TXDB : Nat := 0x5000240028
def ETH_TXDONE : Nat := 0x500024002C
def ETH_RXFRAMES : Nat := 0x5000240030
def ETH_RXDROP : Nat := 0x5000240034
def ETH_TXFRAMES : Nat := 0x5000240038
def ETH_FCSERR : Nat := 0x500024003C
def TIM_CTRL : Nat := 0x5000250000
def TIM_EVENT : Nat := 0x5000250004
def TIM_STAT : Nat := 0x5000250008
def TIM_NOW_LO : Nat := 0x5000250010
def TIM_NOW_HI : Nat := 0x5000250014
def TIM_INC_LO : Nat := 0x5000250018
def TIM_INC_HI : Nat := 0x500025001C
def TIM_ADJ_LO : Nat := 0x5000250020
def TIM_ADJ_HI : Nat := 0x5000250024
def TIM_TRG_TLO (k : Nat) : Nat := 0x5000250100 + 32 * k
def TIM_TRG_THI (k : Nat) : Nat := 0x5000250104 + 32 * k
def TIM_TRG_PER (k : Nat) : Nat := 0x5000250108 + 32 * k
def TIM_TRG_CNT (k : Nat) : Nat := 0x500025010C + 32 * k
def TIM_TRG_CTL (k : Nat) : Nat := 0x5000250110 + 32 * k
def TIM_TRG_DONE (k : Nat) : Nat := 0x5000250114 + 32 * k
def CAM_EVENT : Nat := 0x5000280000
def CAM_UNOWNED (q : Nat) : Nat := 0x5000280010 + 4 * q
def CAM_CFG (p : Nat) : Nat := 0x5000280100 + 128 * p
def CAM_SIZE (p : Nat) : Nat := 0x5000280104 + 128 * p
def CAM_IMG_LO (p : Nat) : Nat := 0x5000280108 + 128 * p
def CAM_IMG_HI (p : Nat) : Nat := 0x500028010C + 128 * p
def CAM_STATBASE (p : Nat) : Nat := 0x5000280110 + 128 * p
def CAM_XT (p : Nat) : Nat := 0x5000280114 + 128 * p
def CAM_GI (p : Nat) : Nat := 0x5000280118 + 128 * p
def CAM_LEVEL (p : Nat) : Nat := 0x500028011C + 128 * p
def CAM_CROP_A (p : Nat) : Nat := 0x5000280120 + 128 * p
def CAM_CROP_B (p : Nat) : Nat := 0x5000280124 + 128 * p
def CAM_SCALE (p : Nat) : Nat := 0x5000280128 + 128 * p
def CAM_STATS (p : Nat) : Nat := 0x500028012C + 128 * p
def CAM_EXP_A (p : Nat) : Nat := 0x5000280130 + 128 * p
def CAM_EXP_B (p : Nat) : Nat := 0x5000280134 + 128 * p
def CAM_EXP_C (p : Nat) : Nat := 0x5000280138 + 128 * p
def CAM_COMMIT (p : Nat) : Nat := 0x500028013C + 128 * p
def CAM_STAT (p : Nat) : Nat := 0x5000280140 + 128 * p
def CAM_FSEQ (p : Nat) : Nat := 0x5000280144 + 128 * p
def CAM_FRAMES (p : Nat) : Nat := 0x5000280148 + 128 * p
def CAM_BAD (p : Nat) : Nat := 0x500028014C + 128 * p
def CAM_MISSED (p : Nat) : Nat := 0x5000280150 + 128 * p
def CAM_UNTRIG (p : Nat) : Nat := 0x5000280154 + 128 * p
def CAM_WIN_A (p w : Nat) : Nat := 0x5000280200 + 128 * p + 8 * w
def CAM_WIN_B (p w : Nat) : Nat := 0x5000280204 + 128 * p + 8 * w
def FCO_EVENT : Nat := 0x5000030000
def FCO_STATE : Nat := 0x5000030004
def FCO_LOG_HEAD : Nat := 0x5000030008
def FCO_LOG_TAIL : Nat := 0x500003000C
def FCO_ERRCLR : Nat := 0x5000030010
def FCO_INJECT : Nat := 0x5000030014
def FCO_LAST_LO : Nat := 0x5000030018
def FCO_LAST_HI : Nat := 0x500003001C
def FCO_RST_LO : Nat := 0x5000030020
def FCO_RST_HI : Nat := 0x5000030024
def FCO_MSGS : Nat := 0x5000030028
def FCO_DROPPED : Nat := 0x500003002C
def FCO_LOG (i : Nat) : Nat := 0x5000031000 + 4 * i
def FCO_SEV (s : Nat) : Nat := 0x5000032000 + 4 * s
def FCO_CNT (s : Nat) : Nat := 0x5000033000 + 4 * s
def SAF_CTRL : Nat := 0x5000040000
def SAF_EVENT : Nat := 0x5000040004
def SAF_STATE : Nat := 0x5000040008
def SAF_CAUSE : Nat := 0x500004000C
def SAF_REARM : Nat := 0x5000040010
def SAF_EDGEMAX : Nat := 0x5000040014
def SAF_GUARD : Nat := 0x5000040018
def SAF_DEMANDS : Nat := 0x5000040020
def SAF_CUTS : Nat := 0x5000040024
def SAF_CEILINGS : Nat := 0x5000040028
def BST_CTRL : Nat := 0x5000050000
def BST_EVENT : Nat := 0x5000050004
def BST_STATE : Nat := 0x5000050008
def BST_LAST : Nat := 0x500005000C
def BST_BOOT : Nat := 0x5000050010
def BST_OUT : Nat := 0x5000050014
def BST_SLICES : Nat := 0x5000050020
def BST_CUTS : Nat := 0x5000050024
def BST_FAILS : Nat := 0x5000050028
def BCL_PHASE : Nat := 0x5000010000
def BCL_STATUS : Nat := 0x5000010004
def BCL_SLOTS : Nat := 0x5000010008
def BCL_SEQNUM : Nat := 0x500001000C
def BCL_COMPAT : Nat := 0x5000010010
def BCL_SECVER : Nat := 0x5000010014
def BCL_NVM : Nat := 0x5000010018
def BCL_RECS : Nat := 0x500001001C
def BCL_BADREC : Nat := 0x5000010020
def BCL_RDYT_LO : Nat := 0x5000010024
def BCL_RDYT_HI : Nat := 0x5000010028
def CRU_EVENT : Nat := 0x5000020000
def CRU_STATE : Nat := 0x5000020004
def CRU_TLIM : Nat := 0x5000020008
def CRU_TEMP : Nat := 0x500002000C
def CRU_CRSTS : Nat := 0x5000020010
def OBS_CTRL : Nat := 0x5000300000
def OBS_TRC_MASK : Nat := 0x5000300004
def OBS_EVENT : Nat := 0x5000300008
def OBS_CMDS : Nat := 0x5000300010
def OBS_DENIED : Nat := 0x5000300014
def OBS_WRTRIES : Nat := 0x5000300018
def OBS_TRC_LOST : Nat := 0x500030001C
def OBS_CNT_LO (i : Nat) : Nat := 0x5000300100 + 8 * i
def OBS_CNT_HI (i : Nat) : Nat := 0x5000300104 + 8 * i
def CAL_CTRL : Nat := 0x5000060000
def CAL_EVENT : Nat := 0x5000060004
def CAL_STATE : Nat := 0x5000060008
def CAL_REFV : Nat := 0x500006000C
def CAL_RETIRED : Nat := 0x5000060010
def CAL_RUNS : Nat := 0x5000060020
def CAL_FAILS : Nat := 0x5000060024
def CAL_ENC (v : Nat) : Nat := 0x5000060100 + 4 * v
def CAL_BEM (b : Nat) : Nat := 0x5000060140 + 4 * b
def CAL_DLY (l : Nat) : Nat := 0x5000060180 + 4 * l
def CAL_TRM (n : Nat) : Nat := 0x5000060200 + 4 * n

end Reg

def regsIDC : List RegDesc :=
  [⟨0x5000000000, 4, 1, 0, .ro, 0x0⟩,
   ⟨0x5000000008, 4, 1, 0, .ro, 0x0⟩,
   ⟨0x500000000C, 4, 1, 0, .ro, 0x0⟩,
   ⟨0x5000000010, 4, 1, 0, .ro, 0x0⟩]

def regsRDG : List RegDesc :=
  [⟨0x5000100000, 4, 1, 0, .sup, 0x1⟩,
   ⟨0x5000100004, 4, 1, 0, .w1c, 0xFF⟩,
   ⟨0x5000100008, 4, 1, 0, .ro, 0x0⟩,
   ⟨0x500010000C, 4, 1, 0, .ro, 0x0⟩,
   ⟨0x5000100010, 4, 1, 0, .ro, 0x0⟩,
   ⟨0x5000100014, 4, 1, 0, .ro, 0x0⟩,
   ⟨0x5000100018, 4, 1, 0, .ro, 0x0⟩,
   ⟨0x5000100020, 4, 1, 0, .wo, 0x7FFFFF⟩,
   ⟨0x5000100024, 4, 1, 0, .wo, 0x13F⟩,
   ⟨0x5000100030, 4, 1, 0, .rc, 0xFFFFFFFF⟩,
   ⟨0x5000100034, 4, 1, 0, .rc, 0xFFFFFFFF⟩,
   ⟨0x5000100038, 4, 1, 0, .rc, 0xFFFFFFFF⟩,
   ⟨0x500010003C, 4, 1, 0, .rc, 0xFFFFFFFF⟩,
   ⟨0x5000100100, 4, 17, 0, .ro, 0x0⟩,
   ⟨0x5000100200, 8, 16, 0, .ro, 0x0⟩,
   ⟨0x5000100204, 8, 16, 0, .ro, 0x0⟩]

def regsCRN : List RegDesc :=
  [⟨0x5000110000, 4, 1, 0, .cfg, 0xFF⟩,
   ⟨0x5000110004, 4, 1, 0, .w1c, 0x1FF⟩,
   ⟨0x5000110008, 4, 1, 0, .ro, 0x0⟩,
   ⟨0x500011000C, 4, 1, 0, .ro, 0x0⟩,
   ⟨0x5000110010, 4, 1, 0, .ro, 0x0⟩,
   ⟨0x5000110014, 4, 1, 0, .ro, 0x0⟩,
   ⟨0x5000110018, 4, 1, 0, .ro, 0x0⟩,
   ⟨0x500011001C, 4, 1, 0, .ro, 0x0⟩,
   ⟨0x5000110020, 4, 1, 0, .ro, 0x0⟩,
   ⟨0x5000110024, 4, 1, 0, .ro, 0x0⟩,
   ⟨0x5000110028, 4, 1, 0, .ro, 0x0⟩,
   ⟨0x500011002C, 4, 1, 0, .ro, 0x0⟩,
   ⟨0x5000110030, 4, 1, 0, .rc, 0xFFFFFFFF⟩,
   ⟨0x5000110034, 4, 1, 0, .rc, 0xFFFFFFFF⟩,
   ⟨0x5000110038, 4, 1, 0, .rc, 0xFFFFFFFF⟩,
   ⟨0x500011003C, 4, 1, 0, .rc, 0xFFFFFFFF⟩,
   ⟨0x5000110040, 4, 1, 0, .rc, 0xFFFFFFFF⟩,
   ⟨0x5000110400, 16, 64, 1, .rw, 0xFFFFFF⟩,
   ⟨0x5000110404, 16, 64, 1, .rw, 0xFFFF⟩,
   ⟨0x5000110408, 16, 64, 1, .rw, 0xFFFFFFFF⟩,
   ⟨0x500011040C, 16, 64, 1, .rw, 0x3⟩,
   ⟨0x5000111000, 8, 256, 0, .ro, 0x0⟩,
   ⟨0x5000111004, 8, 256, 0, .ro, 0x0⟩]

def regsACT : List RegDesc :=
  [⟨0x5000120000, 4, 1, 0, .cfg, 0x1F1FFFF3⟩,
   ⟨0x5000120004, 4, 1, 0, .w1c, 0x1FFF⟩,
   ⟨0x5000120008, 4, 1, 0, .cfg, 0xFFFFFFFF⟩,
   ⟨0x500012000C, 4, 1, 0, .cfg, 0xFF01FF⟩,
   ⟨0x5000120010, 4, 1, 0, .cfg, 0x1FFF⟩,
   ⟨0x5000120014, 4, 1, 0, .cfg, 0xFFFF⟩,
   ⟨0x5000120018, 4, 1, 0, .cfg, 0x7FFFFF⟩,
   ⟨0x500012001C, 4, 1, 0, .ro, 0x0⟩,
   ⟨0x5000120020, 4, 1, 0, .ro, 0x0⟩,
   ⟨0x5000120024, 4, 1, 0, .ro, 0x0⟩,
   ⟨0x5000120028, 4, 1, 0, .ro, 0x0⟩,
   ⟨0x500012002C, 4, 1, 0, .ro, 0x0⟩,
   ⟨0x5000120030, 4, 1, 0, .ro, 0x0⟩,
   ⟨0x5000120034, 4, 1, 0, .ro, 0x0⟩,
   ⟨0x5000120040, 4, 8, 0, .ro, 0x0⟩,
   ⟨0x5000120060, 4, 1, 0, .sup, 0x70FFFFF⟩,
   ⟨0x5000120064, 4, 1, 0, .sup, 0xFFFF⟩,
   ⟨0x5000120068, 4, 1, 0, .ro, 0x0⟩,
   ⟨0x5000120080, 4, 1, 0, .rc, 0xFFFFFFFF⟩,
   ⟨0x5000120084, 4, 1, 0, .rc, 0xFFFFFFFF⟩,
   ⟨0x5000120088, 4, 1, 0, .rc, 0xFFFFFFFF⟩,
   ⟨0x500012008C, 4, 1, 0, .rc, 0xFFFFFFFF⟩,
   ⟨0x5000120090, 4, 1, 0, .rc, 0xFFFFFFFF⟩,
   ⟨0x5000120094, 4, 1, 0, .rc, 0xFFFFFFFF⟩,
   ⟨0x5000120098, 4, 1, 0, .rc, 0xFFFFFFFF⟩,
   ⟨0x5000120100, 4, 16, 0, .cfg, 0x3FFFF⟩,
   ⟨0x5000120140, 4, 8, 0, .cfg, 0xFF⟩,
   ⟨0x5000120180, 4, 16, 0, .cfg, 0x3FFF⟩]

def regsHLK : List RegDesc :=
  [⟨0x5000130000, 4, 1, 0, .cfg, 0xFF01⟩,
   ⟨0x5000130004, 4, 1, 0, .w1c, 0x1FF⟩,
   ⟨0x5000130008, 4, 1, 0, .ro, 0x0⟩,
   ⟨0x500013000C, 4, 1, 0, .ro, 0x0⟩,
   ⟨0x5000130010, 4, 1, 0, .ro, 0x0⟩,
   ⟨0x5000130014, 4, 1, 0, .ro, 0x0⟩,
   ⟨0x5000130020, 4, 1, 0, .rc, 0xFFFFFFFF⟩,
   ⟨0x5000130024, 4, 1, 0, .rc, 0xFFFFFFFF⟩,
   ⟨0x5000130028, 4, 1, 0, .rc, 0xFFFFFFFF⟩,
   ⟨0x500013002C, 4, 1, 0, .rc, 0xFFFFFFFF⟩,
   ⟨0x5000130100, 4, 16, 0, .cfg, 0x3FFFFFFF⟩,
   ⟨0x5000130140, 4, 16, 0, .cfg, 0xFFF0FFF⟩,
   ⟨0x5000130180, 4, 16, 0, .ro, 0x0⟩]

def regsSTB : List RegDesc :=
  [⟨0x5000140000, 4, 1, 0, .cfg, 0xFF07⟩,
   ⟨0x5000140004, 4, 1, 0, .w1c, 0x3F⟩,
   ⟨0x5000140008, 4, 1, 0, .ro, 0x0⟩,
   ⟨0x5000140010, 4, 1, 0, .rc, 0xFFFFFFFF⟩,
   ⟨0x5000140014, 4, 1, 0, .rc, 0xFFFFFFFF⟩,
   ⟨0x5000140018, 4, 1, 0, .rc, 0xFFFFFFFF⟩,
   ⟨0x500014001C, 4, 1, 0, .rc, 0xFFFFFFFF⟩,
   ⟨0x5000140020, 4, 1, 0, .rc, 0xFFFFFFFF⟩,
   ⟨0x5000140100, 4, 16, 0, .cfg, 0xFFFFFFFF⟩,
   ⟨0x5000140140, 4, 16, 0, .sup, 0xFFFF⟩]

def regsPLN : List RegDesc :=
  [⟨0x5000180000, 4, 1, 0, .cfg, 0xFFFF03⟩,
   ⟨0x5000180004, 4, 1, 0, .w1c, 0xFFF⟩,
   ⟨0x5000180008, 4, 1, 0, .ro, 0x0⟩,
   ⟨0x500018000C, 4, 1, 0, .cfg, 0xFFFFFFFF⟩,
   ⟨0x5000180010, 4, 1, 0, .sup, 0x7FFFFF⟩,
   ⟨0x5000180014, 4, 1, 0, .ro, 0x0⟩,
   ⟨0x5000180018, 4, 1, 0, .cfg, 0xFFFFFFFF⟩,
   ⟨0x500018001C, 4, 1, 0, .cfg, 0xFFFFFFFF⟩,
   ⟨0x5000180020, 4, 1, 0, .cfg, 0xFFFFFFFF⟩,
   ⟨0x5000180024, 4, 1, 0, .cfg, 0xFFFFFFFF⟩,
   ⟨0x5000180028, 4, 1, 0, .cfg, 0xFFFFFFFF⟩,
   ⟨0x500018002C, 4, 1, 0, .cfg, 0xFFFFFFFF⟩,
   ⟨0x5000180030, 4, 1, 0, .rc, 0xFFFFFFFF⟩,
   ⟨0x5000180100, 32, 4, 0, .sup, 0xFFFFFFFF⟩,
   ⟨0x5000180104, 32, 4, 0, .sup, 0xFFFFFFFF⟩,
   ⟨0x5000180108, 32, 4, 0, .sup, 0xFFFFFFFF⟩,
   ⟨0x500018010C, 32, 4, 0, .cfg, 0xFFFFFFFF⟩,
   ⟨0x5000180110, 32, 4, 0, .cfg, 0xFFFFFFFF⟩,
   ⟨0x5000180114, 32, 4, 0, .cfg, 0xFFFFFFFF⟩,
   ⟨0x5000180118, 32, 4, 0, .sup, 0x1⟩,
   ⟨0x500018011C, 32, 4, 0, .cfg, 0xFFFFFFFF⟩,
   ⟨0x5000180200, 32, 4, 0, .cfg, 0x7F⟩,
   ⟨0x5000180204, 32, 4, 0, .cfg, 0xFFFFFFFF⟩,
   ⟨0x5000180208, 32, 4, 0, .cfg, 0xFFFFFFFF⟩,
   ⟨0x500018020C, 32, 4, 0, .cfg, 0xFFFFFFFF⟩,
   ⟨0x5000180210, 32, 4, 0, .cfg, 0xFFFFFFFF⟩,
   ⟨0x5000180214, 32, 4, 0, .cfg, 0xFFFFFFFF⟩,
   ⟨0x5000180218, 32, 4, 0, .ro, 0x0⟩,
   ⟨0x5000180300, 16, 4, 0, .ro, 0x0⟩,
   ⟨0x5000180304, 16, 4, 0, .ro, 0x0⟩,
   ⟨0x5000180308, 16, 4, 0, .ro, 0x0⟩,
   ⟨0x5000180400, 16, 2, 0, .cfg, 0xFFFFF01⟩,
   ⟨0x5000180404, 16, 2, 0, .ro, 0x0⟩,
   ⟨0x5000180408, 16, 2, 0, .rc, 0xFFFFFFFF⟩]

def regsPOS : List RegDesc :=
  [⟨0x5000190000, 4, 1, 0, .w1c, 0xFFFF⟩,
   ⟨0x5000190010, 4, 4, 0, .rc, 0xFFFFFFFF⟩,
   ⟨0x5000190100, 64, 4, 0, .cfg, 0x7F00FF⟩,
   ⟨0x5000190104, 64, 4, 0, .cfg, 0xFFF0FFF⟩,
   ⟨0x5000190108, 64, 4, 0, .cfg, 0xFFFFFF⟩,
   ⟨0x500019010C, 64, 4, 0, .cfg, 0xFFFFFFFF⟩,
   ⟨0x5000190110, 64, 4, 0, .ro, 0x0⟩,
   ⟨0x5000190114, 64, 4, 0, .ro, 0x0⟩,
   ⟨0x5000190118, 64, 4, 0, .ro, 0x0⟩,
   ⟨0x500019011C, 64, 4, 0, .ro, 0x0⟩,
   ⟨0x5000190120, 64, 4, 0, .ro, 0x0⟩,
   ⟨0x5000190124, 64, 4, 0, .ro, 0x0⟩,
   ⟨0x5000190128, 64, 4, 0, .ro, 0x0⟩,
   ⟨0x500019012C, 64, 4, 0, .ro, 0x0⟩,
   ⟨0x5000190130, 64, 4, 0, .sup, 0x3⟩,
   ⟨0x5000190134, 64, 4, 0, .sup, 0xFFFFFFFF⟩,
   ⟨0x5000190138, 64, 4, 0, .sup, 0xFFFFFFFF⟩,
   ⟨0x500019013C, 64, 4, 0, .sup, 0xFF03⟩]

def regsSTP : List RegDesc :=
  [⟨0x50001A0000, 4, 1, 0, .w1c, 0xF⟩,
   ⟨0x50001A0100, 32, 2, 0, .cfg, 0xFFFFFF⟩,
   ⟨0x50001A0104, 32, 2, 0, .cfg, 0xFF03FF⟩,
   ⟨0x50001A0108, 32, 2, 0, .cfg, 0xFFFFFFFF⟩,
   ⟨0x50001A010C, 32, 2, 0, .sup, 0x1⟩,
   ⟨0x50001A0110, 32, 2, 0, .ro, 0x0⟩,
   ⟨0x50001A0114, 32, 2, 0, .ro, 0x0⟩,
   ⟨0x50001A0118, 32, 2, 0, .ro, 0x0⟩,
   ⟨0x50001A011C, 32, 2, 0, .rc, 0x0⟩]

def regsSWI : List RegDesc :=
  [⟨0x50001B0000, 4, 1, 0, .cfg, 0xFFFFFFFF⟩,
   ⟨0x50001B0004, 4, 1, 0, .w1c, 0xFFFF⟩,
   ⟨0x50001B0008, 4, 1, 0, .ro, 0x0⟩,
   ⟨0x50001B0100, 4, 8, 0, .cfg, 0xFFFF3F⟩,
   ⟨0x50001B0140, 4, 8, 0, .rc, 0x0⟩]

def regsTWN : List RegDesc :=
  [⟨0x5000220000, 4, 1, 0, .cfg, 0xFFFFFF01⟩,
   ⟨0x5000220004, 4, 1, 0, .cfg, 0xFFFFFFFF⟩,
   ⟨0x5000220008, 4, 1, 0, .sup, 0x3⟩,
   ⟨0x500022000C, 4, 1, 0, .w1c, 0xFFF⟩,
   ⟨0x5000220010, 4, 1, 0, .ro, 0x0⟩,
   ⟨0x5000220014, 4, 1, 0, .ro, 0x0⟩,
   ⟨0x5000220018, 4, 1, 0, .ro, 0x0⟩,
   ⟨0x5000220020, 4, 1, 0, .rc, 0x0⟩,
   ⟨0x5000220024, 4, 1, 0, .rc, 0x0⟩,
   ⟨0x5000220028, 4, 1, 0, .rc, 0x0⟩,
   ⟨0x500022002C, 4, 1, 0, .rc, 0x0⟩,
   ⟨0x5000220030, 4, 1, 0, .rc, 0x0⟩,
   ⟨0x5000220034, 4, 1, 0, .rc, 0x0⟩]

def regsCSC : List RegDesc :=
  [⟨0x5000230000, 4, 1, 0, .cfg, 0xFFF⟩,
   ⟨0x5000230004, 4, 1, 0, .cfg, 0xFFFFFFFF⟩,
   ⟨0x5000230008, 4, 1, 0, .cfg, 0x7⟩,
   ⟨0x500023000C, 4, 1, 0, .cfg, 0xFFFFFFFF⟩,
   ⟨0x5000230010, 4, 1, 0, .cfg, 0xFFFFFFFF⟩,
   ⟨0x5000230014, 4, 1, 0, .w1c, 0x1F⟩,
   ⟨0x5000230018, 4, 1, 0, .ro, 0x0⟩,
   ⟨0x500023001C, 4, 1, 0, .ro, 0x0⟩,
   ⟨0x5000230020, 4, 1, 0, .rc, 0x0⟩]

def regsSEQ : List RegDesc :=
  [⟨0x5000070000, 4, 1, 0, .cfg, 0xFF3F⟩,
   ⟨0x5000070004, 4, 1, 0, .w1c, 0xF⟩,
   ⟨0x5000070008, 4, 1, 0, .ro, 0x0⟩,
   ⟨0x500007000C, 4, 1, 0, .cfg, 0xFFFF⟩,
   ⟨0x5000070010, 4, 1, 0, .cfg, 0xFFFFFFFF⟩,
   ⟨0x5000070014, 4, 1, 0, .cfg, 0xFFFFFFFF⟩,
   ⟨0x5000070018, 4, 1, 0, .sup, 0x7073F⟩,
   ⟨0x500007001C, 4, 1, 0, .sup, 0x3F⟩,
   ⟨0x5000070020, 4, 1, 0, .ro, 0x0⟩,
   ⟨0x5000070024, 4, 1, 0, .ro, 0x0⟩,
   ⟨0x5000070028, 4, 1, 0, .ro, 0x0⟩,
   ⟨0x500007002C, 4, 1, 0, .ro, 0x0⟩,
   ⟨0x5000070030, 4, 1, 0, .ro, 0x0⟩,
   ⟨0x5000070034, 4, 1, 0, .ro, 0x0⟩,
   ⟨0x5000070040, 4, 4, 0, .ro, 0x0⟩,
   ⟨0x5000070050, 4, 1, 0, .rc, 0x0⟩,
   ⟨0x5000070054, 4, 1, 0, .rc, 0x0⟩,
   ⟨0x5000070058, 4, 1, 0, .rc, 0x0⟩,
   ⟨0x5000071000, 4, 64, 0, .ro, 0x0⟩]

def regsXLT : List RegDesc :=
  [⟨0x5000080000, 4, 1, 0, .w1c, 0x7⟩,
   ⟨0x5000080008, 4, 1, 0, .wo, 0x7FFFFFF⟩,
   ⟨0x500008000C, 4, 1, 0, .wo, 0x73F⟩,
   ⟨0x5000080010, 4, 1, 0, .ro, 0x0⟩,
   ⟨0x5000080014, 4, 1, 0, .ro, 0x0⟩,
   ⟨0x5000080018, 4, 1, 0, .wo, 0x13F⟩,
   ⟨0x5000080020, 4, 1, 0, .rc, 0x0⟩,
   ⟨0x5000080024, 4, 1, 0, .rc, 0x0⟩,
   ⟨0x5000080028, 4, 1, 0, .rc, 0x0⟩,
   ⟨0x5000080100, 16, 52, 0, .ro, 0x0⟩,
   ⟨0x5000080104, 16, 52, 0, .ro, 0x0⟩,
   ⟨0x5000080108, 16, 52, 0, .ro, 0x0⟩,
   ⟨0x5000080500, 4, 64, 1, .ro, 0x0⟩]

def regsMEM : List RegDesc :=
  [⟨0x5000090000, 4, 1, 0, .cfg, 0xFFFFFF⟩,
   ⟨0x5000090004, 4, 1, 0, .cfg, 0xFFFF⟩,
   ⟨0x5000090008, 4, 1, 0, .w1c, 0xFF⟩,
   ⟨0x500009000C, 4, 1, 0, .ro, 0x0⟩,
   ⟨0x5000090010, 4, 1, 0, .ro, 0x0⟩,
   ⟨0x5000090020, 4, 1, 0, .sup, 0xFFFFFFFF⟩,
   ⟨0x5000090024, 4, 1, 0, .sup, 0xFF⟩,
   ⟨0x5000090028, 4, 1, 0, .sup, 0xFFFFFFFF⟩,
   ⟨0x500009002C, 4, 1, 0, .sup, 0x1⟩,
   ⟨0x5000090030, 4, 1, 0, .ro, 0x0⟩,
   ⟨0x5000090034, 4, 1, 0, .ro, 0x0⟩,
   ⟨0x5000090038, 4, 1, 0, .ro, 0x0⟩,
   ⟨0x500009003C, 4, 1, 0, .ro, 0x0⟩,
   ⟨0x5000090040, 4, 1, 0, .ro, 0x0⟩,
   ⟨0x5000090050, 4, 1, 0, .rc, 0x0⟩,
   ⟨0x5000090054, 4, 1, 0, .rc, 0x0⟩,
   ⟨0x5000090058, 4, 1, 0, .rc, 0x0⟩,
   ⟨0x5000090080, 4, 5, 0, .ro, 0x0⟩,
   ⟨0x50000900A0, 4, 1, 0, .ro, 0x0⟩]

def regsDMC : List RegDesc :=
  [⟨0x50000A0000, 4, 1, 0, .cfg, 0xFF01FF⟩,
   ⟨0x50000A0004, 4, 1, 0, .cfg, 0xFFFF⟩,
   ⟨0x50000A0008, 4, 1, 0, .w1c, 0x3F⟩,
   ⟨0x50000A000C, 4, 1, 0, .ro, 0x0⟩,
   ⟨0x50000A0010, 4, 1, 0, .ro, 0x0⟩,
   ⟨0x50000A0020, 4, 1, 0, .ro, 0x0⟩,
   ⟨0x50000A0024, 4, 1, 0, .ro, 0x0⟩,
   ⟨0x50000A0030, 4, 1, 0, .rc, 0x0⟩,
   ⟨0x50000A0034, 4, 1, 0, .rc, 0x0⟩,
   ⟨0x50000A0038, 4, 1, 0, .rc, 0x0⟩,
   ⟨0x50000A003C, 4, 1, 0, .rc, 0x0⟩,
   ⟨0x50000A0040, 4, 4, 0, .rc, 0x0⟩]

def regsDMA : List RegDesc :=
  [⟨0x50000B0000, 4, 1, 0, .cfg, 0xFF⟩,
   ⟨0x50000B0004, 4, 1, 0, .w1c, 0x7F⟩,
   ⟨0x50000B0010, 4, 1, 0, .ro, 0x0⟩,
   ⟨0x50000B0014, 4, 1, 0, .ro, 0x0⟩,
   ⟨0x50000B0020, 4, 1, 0, .rc, 0x0⟩,
   ⟨0x50000B0024, 4, 1, 0, .rc, 0x0⟩,
   ⟨0x50000B0100, 32, 32, 0, .cfg, 0xFFFFF01⟩,
   ⟨0x50000B0104, 32, 32, 0, .rw, 0xFFFFFFFF⟩,
   ⟨0x50000B0108, 32, 32, 0, .rw, 0xFFFFFFFF⟩,
   ⟨0x50000B010C, 32, 32, 0, .wo, 0x3⟩,
   ⟨0x50000B0110, 32, 32, 0, .ro, 0x0⟩,
   ⟨0x50000B0114, 32, 32, 0, .ro, 0x0⟩,
   ⟨0x50000B0118, 32, 32, 0, .ro, 0x0⟩,
   ⟨0x50000B011C, 32, 32, 0, .rc, 0x0⟩]

def regsCVU : List RegDesc :=
  [⟨0x50000C0000, 4, 1, 0, .cfg, 0xFF⟩,
   ⟨0x50000C0004, 4, 1, 0, .w1c, 0x3⟩,
   ⟨0x50000C0010, 4, 1, 0, .rc, 0x0⟩,
   ⟨0x50000C0100, 16, 4, 0, .wo, 0x7FFFFF⟩,
   ⟨0x50000C0104, 16, 4, 0, .ro, 0x0⟩]

def regsDFL : List RegDesc :=
  [⟨0x50000D0000, 4, 1, 0, .w1c, 0x3⟩,
   ⟨0x50000D0004, 4, 1, 0, .ro, 0x0⟩,
   ⟨0x50000D0010, 4, 1, 0, .rc, 0x0⟩,
   ⟨0x50000D0014, 4, 1, 0, .rc, 0x0⟩,
   ⟨0x50000D0018, 4, 1, 0, .rc, 0x0⟩,
   ⟨0x50000D001C, 4, 1, 0, .rc, 0x0⟩]

def regsCRY : List RegDesc :=
  [⟨0x50000E0000, 4, 1, 0, .w1c, 0x1F⟩,
   ⟨0x50000E0004, 4, 1, 0, .ro, 0x0⟩,
   ⟨0x50000E0008, 4, 1, 0, .ro, 0x0⟩,
   ⟨0x50000E000C, 4, 1, 0, .ro, 0x0⟩,
   ⟨0x50000E0010, 4, 1, 0, .sup, 0x10F⟩,
   ⟨0x50000E0020, 4, 1, 0, .rc, 0x0⟩,
   ⟨0x50000E0100, 8, 16, 0, .ro, 0x0⟩,
   ⟨0x50000E0104, 8, 16, 0, .ro, 0x0⟩,
   ⟨0x50000E0200, 8, 64, 1, .ro, 0x0⟩,
   ⟨0x50000E0204, 8, 64, 1, .ro, 0x0⟩]

def regsLNP : List RegDesc :=
  [⟨0x5000200000, 4, 1, 0, .cfg, 0xF7FFFF3F⟩,
   ⟨0x5000200004, 4, 1, 0, .w1c, 0x1F⟩,
   ⟨0x5000200008, 4, 1, 0, .rc, 0x0⟩,
   ⟨0x500020000C, 4, 1, 0, .rc, 0x0⟩,
   ⟨0x5000200100, 4, 89, 0, .cfg, 0xFF3FF7⟩,
   ⟨0x5000200300, 4, 89, 0, .ro, 0x0⟩]

def regsJOB : List RegDesc :=
  [⟨0x5000210000, 4, 1, 0, .cfg, 0x7FFFFF0F⟩,
   ⟨0x5000210004, 4, 1, 0, .w1c, 0x1F⟩,
   ⟨0x5000210008, 4, 1, 0, .ro, 0x0⟩,
   ⟨0x500021000C, 4, 1, 0, .wo, 0x7FFFFF⟩,
   ⟨0x5000210010, 4, 1, 0, .wo, 0x3F3F⟩,
   ⟨0x5000210014, 4, 1, 0, .wo, 0x3F⟩,
   ⟨0x5000210018, 4, 1, 0, .wo, 0x13F⟩,
   ⟨0x5000210020, 4, 4, 0, .rc, 0x0⟩,
   ⟨0x5000210030, 4, 4, 0, .rc, 0x0⟩,
   ⟨0x5000210040, 4, 1, 0, .ro, 0x0⟩,
   ⟨0x5000210044, 4, 1, 0, .ro, 0x0⟩,
   ⟨0x5000211000, 32, 64, 1, .rw, 0xFFFFFFFF⟩,
   ⟨0x5000211004, 32, 64, 1, .rw, 0xFFFFFFFF⟩,
   ⟨0x5000211008, 32, 64, 1, .ro, 0x0⟩,
   ⟨0x500021100C, 32, 64, 1, .ro, 0x0⟩,
   ⟨0x5000211010, 32, 64, 1, .ro, 0x0⟩,
   ⟨0x5000211014, 32, 64, 1, .ro, 0x0⟩,
   ⟨0x5000211018, 32, 64, 1, .ro, 0x0⟩,
   ⟨0x500021101C, 32, 64, 1, .rw, 0xF⟩]

def regsETH : List RegDesc :=
  [⟨0x5000240000, 4, 1, 0, .cfg, 0x3F01⟩,
   ⟨0x5000240004, 4, 1, 0, .w1c, 0x7⟩,
   ⟨0x5000240008, 4, 1, 0, .ro, 0x0⟩,
   ⟨0x500024000C, 4, 1, 0, .cfg, 0xFFFFFFFF⟩,
   ⟨0x5000240010, 4, 1, 0, .cfg, 0xFFFF⟩,
   ⟨0x5000240014, 4, 1, 0, .cfg, 0xFFFFFFFF⟩,
   ⟨0x5000240018, 4, 1, 0, .cfg, 0x7FFFFF⟩,
   ⟨0x500024001C, 4, 1, 0, .ro, 0x0⟩,
   ⟨0x5000240020, 4, 1, 0, .rw, 0x3F⟩,
   ⟨0x5000240024, 4, 1, 0, .cfg, 0x7FFFFF⟩,
   ⟨0x5000240028, 4, 1, 0, .wo, 0xF⟩,
   ⟨0x500024002C, 4, 1, 0, .ro, 0x0⟩,
   ⟨0x5000240030, 4, 1, 0, .rc, 0x0⟩,
   ⟨0x5000240034, 4, 1, 0, .rc, 0x0⟩,
   ⟨0x5000240038, 4, 1, 0, .rc, 0x0⟩,
   ⟨0x500024003C, 4, 1, 0, .rc, 0x0⟩]

def regsTIM : List RegDesc :=
  [⟨0x5000250000, 4, 1, 0, .cfg, 0xFFFF03⟩,
   ⟨0x5000250004, 4, 1, 0, .w1c, 0xF⟩,
   ⟨0x5000250008, 4, 1, 0, .ro, 0x0⟩,
   ⟨0x5000250010, 4, 1, 0, .ro, 0x0⟩,
   ⟨0x5000250014, 4, 1, 0, .ro, 0x0⟩,
   ⟨0x5000250018, 4, 1, 0, .rw, 0xFFFFFFFF⟩,
   ⟨0x500025001C, 4, 1, 0, .rw, 0x7⟩,
   ⟨0x5000250020, 4, 1, 0, .rw, 0xFFFFFFFF⟩,
   ⟨0x5000250024, 4, 1, 0, .rw, 0x1FF⟩,
   ⟨0x5000250100, 32, 4, 0, .rw, 0xFFFFFFFF⟩,
   ⟨0x5000250104, 32, 4, 0, .rw, 0xFFFFFFFF⟩,
   ⟨0x5000250108, 32, 4, 0, .rw, 0xFFFFFFFF⟩,
   ⟨0x500025010C, 32, 4, 0, .rw, 0xFFFFFFFF⟩,
   ⟨0x5000250110, 32, 4, 0, .rw, 0xFFFF03⟩,
   ⟨0x5000250114, 32, 4, 0, .ro, 0x0⟩]

def regsCAM : List RegDesc :=
  [⟨0x5000280000, 4, 1, 0, .w1c, 0x3F⟩,
   ⟨0x5000280010, 4, 2, 0, .rc, 0x0⟩,
   ⟨0x5000280100, 128, 2, 0, .cfg, 0x3FFF⟩,
   ⟨0x5000280104, 128, 2, 0, .cfg, 0xFFF1FFF⟩,
   ⟨0x5000280108, 128, 2, 0, .cfg, 0xFFFFFFFF⟩,
   ⟨0x500028010C, 128, 2, 0, .cfg, 0xFFFFFF⟩,
   ⟨0x5000280110, 128, 2, 0, .cfg, 0xFF7FFFFF⟩,
   ⟨0x5000280114, 128, 2, 0, .rw, 0xFF00FF⟩,
   ⟨0x5000280118, 128, 2, 0, .rw, 0xFFF⟩,
   ⟨0x500028011C, 128, 2, 0, .rw, 0xFFF0FFF⟩,
   ⟨0x5000280120, 128, 2, 0, .rw, 0xFFF0FFF⟩,
   ⟨0x5000280124, 128, 2, 0, .rw, 0x1FFF1FFF⟩,
   ⟨0x5000280128, 128, 2, 0, .rw, 0xF⟩,
   ⟨0x500028012C, 128, 2, 0, .rw, 0x1FFF⟩,
   ⟨0x5000280130, 128, 2, 0, .rw, 0xFFFFFF⟩,
   ⟨0x5000280134, 128, 2, 0, .rw, 0xFFFF⟩,
   ⟨0x5000280138, 128, 2, 0, .rw, 0xFFFF3FFF⟩,
   ⟨0x500028013C, 128, 2, 0, .wo, 0x1⟩,
   ⟨0x5000280140, 128, 2, 0, .ro, 0x0⟩,
   ⟨0x5000280144, 128, 2, 0, .ro, 0x0⟩,
   ⟨0x5000280148, 128, 2, 0, .rc, 0x0⟩,
   ⟨0x500028014C, 128, 2, 0, .rc, 0x0⟩,
   ⟨0x5000280150, 128, 2, 0, .rc, 0x0⟩,
   ⟨0x5000280154, 128, 2, 0, .rc, 0x0⟩,
   ⟨0x5000280200, 8, 32, 0, .rw, 0xFFF0FFF⟩,
   ⟨0x5000280204, 8, 32, 0, .rw, 0x1FFF1FFF⟩]

def regsFCO : List RegDesc :=
  [⟨0x5000030000, 4, 1, 0, .w1c, 0xF⟩,
   ⟨0x5000030004, 4, 1, 0, .ro, 0x0⟩,
   ⟨0x5000030008, 4, 1, 0, .ro, 0x0⟩,
   ⟨0x500003000C, 4, 1, 0, .sup, 0xFF⟩,
   ⟨0x5000030010, 4, 1, 0, .sup, 0x1⟩,
   ⟨0x5000030014, 4, 1, 0, .sup, 0x1FFFF⟩,
   ⟨0x5000030018, 4, 1, 0, .ro, 0x0⟩,
   ⟨0x500003001C, 4, 1, 0, .ro, 0x0⟩,
   ⟨0x5000030020, 4, 1, 0, .ro, 0x0⟩,
   ⟨0x5000030024, 4, 1, 0, .ro, 0x0⟩,
   ⟨0x5000030028, 4, 1, 0, .rc, 0x0⟩,
   ⟨0x500003002C, 4, 1, 0, .rc, 0x0⟩,
   ⟨0x5000031000, 4, 1024, 0, .ro, 0x0⟩,
   ⟨0x5000032000, 4, 1024, 0, .cfg, 0xFF03⟩,
   ⟨0x5000033000, 4, 1024, 0, .rc, 0x0⟩]

def regsSAF : List RegDesc :=
  [⟨0x5000040000, 4, 1, 0, .cfg, 0xF⟩,
   ⟨0x5000040004, 4, 1, 0, .w1c, 0xFF⟩,
   ⟨0x5000040008, 4, 1, 0, .ro, 0x0⟩,
   ⟨0x500004000C, 4, 1, 0, .ro, 0x0⟩,
   ⟨0x5000040010, 4, 1, 0, .sup, 0x1⟩,
   ⟨0x5000040014, 4, 1, 0, .ro, 0x0⟩,
   ⟨0x5000040018, 4, 1, 0, .ro, 0x0⟩,
   ⟨0x5000040020, 4, 1, 0, .rc, 0x0⟩,
   ⟨0x5000040024, 4, 1, 0, .rc, 0x0⟩,
   ⟨0x5000040028, 4, 1, 0, .rc, 0x0⟩]

def regsBST : List RegDesc :=
  [⟨0x5000050000, 4, 1, 0, .cfg, 0x3FFFFF⟩,
   ⟨0x5000050004, 4, 1, 0, .w1c, 0xF⟩,
   ⟨0x5000050008, 4, 1, 0, .ro, 0x0⟩,
   ⟨0x500005000C, 4, 1, 0, .ro, 0x0⟩,
   ⟨0x5000050010, 4, 1, 0, .ro, 0x0⟩,
   ⟨0x5000050014, 4, 1, 0, .ro, 0x0⟩,
   ⟨0x5000050020, 4, 1, 0, .rc, 0x0⟩,
   ⟨0x5000050024, 4, 1, 0, .rc, 0x0⟩,
   ⟨0x5000050028, 4, 1, 0, .rc, 0x0⟩]

def regsBCL : List RegDesc :=
  [⟨0x5000010000, 4, 1, 0, .ro, 0x0⟩,
   ⟨0x5000010004, 4, 1, 0, .ro, 0x0⟩,
   ⟨0x5000010008, 4, 1, 0, .ro, 0x0⟩,
   ⟨0x500001000C, 4, 1, 0, .ro, 0x0⟩,
   ⟨0x5000010010, 4, 1, 0, .ro, 0x0⟩,
   ⟨0x5000010014, 4, 1, 0, .ro, 0x0⟩,
   ⟨0x5000010018, 4, 1, 0, .ro, 0x0⟩,
   ⟨0x500001001C, 4, 1, 0, .ro, 0x0⟩,
   ⟨0x5000010020, 4, 1, 0, .ro, 0x0⟩,
   ⟨0x5000010024, 4, 1, 0, .ro, 0x0⟩,
   ⟨0x5000010028, 4, 1, 0, .ro, 0x0⟩]

def regsCRU : List RegDesc :=
  [⟨0x5000020000, 4, 1, 0, .w1c, 0xF⟩,
   ⟨0x5000020004, 4, 1, 0, .ro, 0x0⟩,
   ⟨0x5000020008, 4, 1, 0, .cfg, 0xFFF⟩,
   ⟨0x500002000C, 4, 1, 0, .ro, 0x0⟩,
   ⟨0x5000020010, 4, 1, 0, .ro, 0x0⟩]

def regsOBS : List RegDesc :=
  [⟨0x5000300000, 4, 1, 0, .cfg, 0xFFFF⟩,
   ⟨0x5000300004, 4, 1, 0, .sup, 0x1FE⟩,
   ⟨0x5000300008, 4, 1, 0, .w1c, 0x3⟩,
   ⟨0x5000300010, 4, 1, 0, .rc, 0x0⟩,
   ⟨0x5000300014, 4, 1, 0, .rc, 0x0⟩,
   ⟨0x5000300018, 4, 1, 0, .rc, 0x0⟩,
   ⟨0x500030001C, 4, 1, 0, .rc, 0x0⟩,
   ⟨0x5000300100, 8, 64, 0, .ro, 0x0⟩,
   ⟨0x5000300104, 8, 64, 0, .ro, 0x0⟩]

def regsCAL : List RegDesc :=
  [⟨0x5000060000, 4, 1, 0, .cfg, 0xFFFFF⟩,
   ⟨0x5000060004, 4, 1, 0, .w1c, 0x1F⟩,
   ⟨0x5000060008, 4, 1, 0, .ro, 0x0⟩,
   ⟨0x500006000C, 4, 1, 0, .ro, 0x0⟩,
   ⟨0x5000060010, 4, 1, 0, .ro, 0x0⟩,
   ⟨0x5000060020, 4, 1, 0, .rc, 0x0⟩,
   ⟨0x5000060024, 4, 1, 0, .rc, 0x0⟩,
   ⟨0x5000060100, 4, 9, 0, .ro, 0x0⟩,
   ⟨0x5000060140, 4, 5, 0, .ro, 0x0⟩,
   ⟨0x5000060180, 4, 18, 0, .ro, 0x0⟩,
   ⟨0x5000060200, 4, 88, 0, .ro, 0x0⟩]

/-- Every register map of the spec, by unit index. -/
def regMap : Nat → List RegDesc
  | 0x00 => regsIDC
  | 0x01 => regsBCL
  | 0x02 => regsCRU
  | 0x03 => regsFCO
  | 0x04 => regsSAF
  | 0x05 => regsBST
  | 0x06 => regsCAL
  | 0x07 => regsSEQ
  | 0x08 => regsXLT
  | 0x09 => regsMEM
  | 0x0A => regsDMC
  | 0x0B => regsDMA
  | 0x0C => regsCVU
  | 0x0D => regsDFL
  | 0x0E => regsCRY
  | 0x10 => regsRDG
  | 0x11 => regsCRN
  | 0x12 => regsACT
  | 0x13 => regsHLK
  | 0x14 => regsSTB
  | 0x18 => regsPLN
  | 0x19 => regsPOS
  | 0x1A => regsSTP
  | 0x1B => regsSWI
  | 0x20 => regsLNP
  | 0x21 => regsJOB
  | 0x22 => regsTWN
  | 0x23 => regsCSC
  | 0x24 => regsETH
  | 0x25 => regsTIM
  | 0x28 => regsCAM
  | 0x30 => regsOBS
  | _ => []

/-! R482: the fault sources, as the 10-bit value of SOURCE. -/
namespace Src

def CRU_RPLL_UNLOCK : Nat := 0x020
def CRU_CLK_MON : Nat := 0x021
def CRU_VMON : Nat := 0x022
def CRU_DIE_HOT : Nat := 0x023
def FCO_LOG_OVERFLOW : Nat := 0x030
def FCO_SCREE_QUOTA : Nat := 0x031
def FCO_SCREE_SPILL : Nat := 0x032
def SAF_INTERLOCK : Nat := 0x040
def SAF_DISCREPANCY : Nat := 0x041
def SAF_GATE_RB : Nat := 0x042
def SAF_SAF_XCHK : Nat := 0x043
def SAF_CEILING : Nat := 0x044
def SAF_GUARD : Nat := 0x045
def SAF_CEIL_XCHK : Nat := 0x046
def BST_RIDGE_FAIL : Nat := 0x050
def BST_PAIR_FAIL : Nat := 0x051
def BST_CVU_FAIL : Nat := 0x052
def BST_CUT : Nat := 0x053
def BST_STARVED : Nat := 0x054
def CAL_CAL_FAIL : Nat := 0x060
def CAL_CAL_STALE : Nat := 0x061
def SEQ_LOCKSTEP : Nat := 0x070
def SEQ_NO_PAIR : Nat := 0x071
def SEQ_TRAP_HALT : Nat := 0x072
def SEQ_SUP_WDOG : Nat := 0x073
def SEQ_SUP_HALT : Nat := 0x074
def XLT_XLATE : Nat := 0x080
def XLT_WALK_UNCORR : Nat := 0x081
def XLT_WALK_BUS : Nat := 0x082
def MEM_CE : Nat := 0x090
def MEM_UE : Nat := 0x091
def MEM_TRI_FIX : Nat := 0x092
def MEM_TRI_FAIL : Nat := 0x093
def MEM_SCREE_LOST : Nat := 0x094
def MEM_REPAIR_CAND : Nat := 0x095
def DMC_DRAM_CE : Nat := 0x0A0
def DMC_DRAM_UE : Nat := 0x0A1
def DMC_DRAM_HOT : Nat := 0x0A2
def DMC_DRAM_TEMP : Nat := 0x0A3
def DMC_CHANNEL_FAIL : Nat := 0x0A4
def DMA_DESC_FETCH : Nat := 0x0B0
def DMA_CHAIN_LIMIT : Nat := 0x0B1
def DMA_UNCORR : Nat := 0x0B2
def DMA_XF_TIMEOUT : Nat := 0x0B3
def DMA_WIPE : Nat := 0x0B4
def CVU_XF_TIMEOUT : Nat := 0x0C0
def CRY_AUTH : Nat := 0x0E0
def CRY_UNWRAP : Nat := 0x0E1
def CRY_REPLAY : Nat := 0x0E2
def CRY_KEYGEN : Nat := 0x0E3
def RDG_BAND_TRANSLATION_FAULT : Nat := 0x100
def RDG_UNCORRECTABLE_READ : Nat := 0x101
def RDG_HALO_FAULT : Nat := 0x102
def RDG_ROTATION_HALTED : Nat := 0x103
def RDG_OVERLAP_VOIDED : Nat := 0x104
def CRN_UNDERRUN : Nat := 0x110
def CRN_UNDERRUN_RUN : Nat := 0x111
def CRN_MODE_LATE : Nat := 0x112
def CRN_HEALTH_LATE : Nat := 0x113
def CRN_FIRED_STALE : Nat := 0x114
def CRN_RING_UNCORR : Nat := 0x115
def CRN_STATE_WINDOW_FULL : Nat := 0x116
def ACT_TEST_ABORT : Nat := 0x120
def ACT_GATE_STRAY : Nat := 0x121
def ACT_MASS_FAIL : Nat := 0x122
def ACT_UNHIDEABLE : Nat := 0x123
def ACT_TRIM_NACK : Nat := 0x124
def ACT_HOLD_TIMEOUT : Nat := 0x125
def ACT_ACT_UNCORR : Nat := 0x126
def HLK_LINK_DOWN : Nat := 0x130
def HLK_LINE_LOST : Nat := 0x131
def HLK_HST_LOST : Nat := 0x132
def HLK_HEAD_HOT : Nat := 0x133
def HLK_HEAD_SOFT : Nat := 0x134
def HLK_NOZZLE_FAULT : Nat := 0x135
def HLK_DRIVER_FAULT : Nat := 0x136
def HLK_ORDER_NAK : Nat := 0x137
def HLK_CAPX_FAIL : Nat := 0x138
def STB_OVERSPEED : Nat := 0x140
def STB_OVS_RUN : Nat := 0x141
def STB_STANDSTILL : Nat := 0x142
def STB_POS_JUMP : Nat := 0x143
def STB_PLACE_LATE : Nat := 0x144
def PLN_DRIVE_FAULT : Nat := 0x180
def PLN_FOLLOW_ERR : Nat := 0x181
def PLN_AXP_LINK : Nat := 0x182
def PLN_LIMIT_TRIP : Nat := 0x183
def PLN_HOMING_ABORT : Nat := 0x184
def PLN_HOMING_LOST : Nat := 0x185
def PLN_EDIT_REFUSED : Nat := 0x186
def POS_AMPLITUDE : Nat := 0x190
def POS_QERR : Nat := 0x191
def POS_QERR_RUN : Nat := 0x192
def POS_SSI_ERR : Nat := 0x193
def STP_STALL : Nat := 0x1A0
def STP_RETAIN_LOST : Nat := 0x1A1
def SWI_CHATTER : Nat := 0x1B0
def LNP_RETRAIN : Nat := 0x200
def LNP_DESKEW : Nat := 0x201
def JOB_JOB_DOWN : Nat := 0x210
def JOB_MSG_LOST : Nat := 0x211
def JOB_STREAM_HALT : Nat := 0x212
def TWN_TWIN_LINK : Nat := 0x220
def TWN_TWIN_SLOW : Nat := 0x221
def TWN_RIDGE_DIVERGE : Nat := 0x222
def TWN_TIE_UNDECIDED : Nat := 0x223
def TWN_INPUT_DIVERGE : Nat := 0x224
def TWN_TAKEOVER : Nat := 0x225
def TWN_SYNC_FAIL : Nat := 0x226
def TWN_VARIANT_MISMATCH : Nat := 0x227
def TWN_IMAGE_MISMATCH : Nat := 0x228
def TWN_SHADOW_DEGRADED : Nat := 0x229
def TWN_SLOT_CLASH : Nat := 0x22A
def CSC_CSC_LINK : Nat := 0x230
def CSC_CSC_LOST : Nat := 0x231
def CSC_LEAD_LOST : Nat := 0x232
def CSC_MODE_LATE_REPORTED : Nat := 0x233
def CSC_LEAD_NO_AXIS : Nat := 0x234
def CSC_CSC_REFUSED : Nat := 0x235
def CSC_TIME_STEP : Nat := 0x236
def ETH_ETH_LINK : Nat := 0x240
def TIM_PTP_HOLDOVER : Nat := 0x250
def CAM_CSI_ERR : Nat := 0x280
def CAM_FRAME_BAD : Nat := 0x281
def CAM_FRAME_MISSED : Nat := 0x282
def CAM_UNOWNED : Nat := 0x283

end Src

/-- R482: the sources that have entries in FCO_SEV and FCO_CNT. -/
def faultSources : List Nat :=
  [0x020, 0x021, 0x022, 0x023, 0x030, 0x031, 0x032, 0x040, 0x041, 0x042, 0x043, 0x044,
   0x045, 0x046, 0x050, 0x051, 0x052, 0x053, 0x054, 0x060, 0x061, 0x070, 0x071, 0x072,
   0x073, 0x074, 0x080, 0x081, 0x082, 0x090, 0x091, 0x092, 0x093, 0x094, 0x095, 0x0A0,
   0x0A1, 0x0A2, 0x0A3, 0x0A4, 0x0B0, 0x0B1, 0x0B2, 0x0B3, 0x0B4, 0x0C0, 0x0E0, 0x0E1,
   0x0E2, 0x0E3, 0x100, 0x101, 0x102, 0x103, 0x104, 0x110, 0x111, 0x112, 0x113, 0x114,
   0x115, 0x116, 0x120, 0x121, 0x122, 0x123, 0x124, 0x125, 0x126, 0x130, 0x131, 0x132,
   0x133, 0x134, 0x135, 0x136, 0x137, 0x138, 0x140, 0x141, 0x142, 0x143, 0x144, 0x180,
   0x181, 0x182, 0x183, 0x184, 0x185, 0x186, 0x190, 0x191, 0x192, 0x193, 0x1A0, 0x1A1,
   0x1B0, 0x200, 0x201, 0x210, 0x211, 0x212, 0x220, 0x221, 0x222, 0x223, 0x224, 0x225,
   0x226, 0x227, 0x228, 0x229, 0x22A, 0x230, 0x231, 0x232, 0x233, 0x234, 0x235, 0x236,
   0x240, 0x250, 0x280, 0x281, 0x282, 0x283]

end Sys2Proof.Machine
end

