-- ==== Sys2Proof/Machine/Ops.lean ====
section
/-! DEFINITION. The named operations that every meaning is written with: bit fields, byte order, the sparse store,
registers, memory, free values and the clock. -/

namespace Sys2Proof.Machine

/-! ## Bit fields and byte order -/

/-- The `n`-bit field of `v` whose lowest bit is `lo`. -/
def fld {w : Nat} (v : BitVec w) (lo n : Nat) : Nat := (v.toNat >>> lo) % 2 ^ n

/-- Bit `i` of `v`. -/
def bit {w : Nat} (v : BitVec w) (i : Nat) : Bool := v.getLsbD i

/-- `v` with the `n`-bit field at `lo` set to `x`. -/
def setFld {w : Nat} (v : BitVec w) (lo n x : Nat) : BitVec w :=
  (v &&& ~~~(BitVec.ofNat w ((2 ^ n - 1) <<< lo))) ||| BitVec.ofNat w ((x % 2 ^ n) <<< lo)

/-- `v` with bit `i` set to `b`. -/
def setBit {w : Nat} (v : BitVec w) (i : Nat) (b : Bool) : BitVec w := setFld v i 1 (if b then 1 else 0)

/-- The bits of `x` up to bit `n` as a two's complement number. -/
def sInt (n x : Nat) : Int :=
  if x % 2 ^ n < 2 ^ (n - 1) then (x % 2 ^ n : Nat) else ((x % 2 ^ n : Nat) : Int) - (2 ^ n : Nat)

/-- An integer as `n` bits of two's complement. -/
def uNat (n : Nat) (z : Int) : Nat := (z % (2 ^ n : Nat)).toNat

/-- A signed 32-bit register value. -/
def sWord (v : BitVec 32) : Int := sInt 32 v.toNat

/-- An integer as a 32-bit register value. -/
def toWord (z : Int) : BitVec 32 := BitVec.ofNat 32 (uNat 32 z)

/-- R14: little-endian. -/
def leNat : Bytes → Nat
  | [] => 0
  | b :: bs => b.toNat + 256 * leNat bs

/-- R14: the `n` low bytes of `x`, little-endian. -/
def leBytes : Nat → Nat → Bytes
  | 0, _ => []
  | n + 1, x => BitVec.ofNat 8 x :: leBytes n (x / 256)

/-- The field of `n` bytes at offset `off`; bytes beyond the end read as 0. -/
def fieldLE (bs : Bytes) (off n : Nat) : Nat := leNat ((bs.drop off).take n)

/-- The signed field of `n` bytes at offset `off`. -/
def fieldLEs (bs : Bytes) (off n : Nat) : Int := sInt (8 * n) (fieldLE bs off n)

/-- `n` bytes from `off`, filled up with 0. -/
def slicePad (bs : Bytes) (off n : Nat) : Bytes :=
  let got := (bs.drop off).take n
  got ++ List.replicate (n - got.length) 0

/-! ## The sparse store

A list of (key, value) pairs by strictly rising key without a value 0; an unlisted key reads as 0. -/

def Sparse.get {w : Nat} : List (Nat × BitVec w) → Nat → BitVec w
  | [], _ => 0
  | (b, v) :: l, a => if a = b then v else Sparse.get l a

/-- The list without key `a`. -/
def Sparse.del {w : Nat} (l : List (Nat × BitVec w)) (a : Nat) : List (Nat × BitVec w) := l.filter (fun p => p.1 != a)

/-- `(a, v)` put before the first greater key. -/
def Sparse.ins {w : Nat} : List (Nat × BitVec w) → Nat → BitVec w → List (Nat × BitVec w)
  | [], a, v => [(a, v)]
  | (b, x) :: l, a, v => if a < b then (a, v) :: (b, x) :: l else (b, x) :: Sparse.ins l a v

def Sparse.put {w : Nat} (l : List (Nat × BitVec w)) (a : Nat) (v : BitVec w) : List (Nat × BitVec w) :=
  if v = 0 then Sparse.del l a else Sparse.ins (Sparse.del l a) a v

/-- The canonical form: keys strictly rising, no value 0. -/
def Sparse.wf {w : Nat} : List (Nat × BitVec w) → Bool
  | [] => true
  | (a, v) :: l => v != 0 && l.all (fun p => decide (a < p.1)) && Sparse.wf l

/-- Ascending values from key `a`. -/
def Sparse.putAll {w : Nat} : List (Nat × BitVec w) → Nat → List (BitVec w) → List (Nat × BitVec w)
  | l, _, [] => l
  | l, a, v :: vs => Sparse.putAll (Sparse.put l a v) (a + 1) vs

/-! ## Lists of units -/

/-- Element `i`, or `d` outside the list. -/
def nth {α : Type} (l : List α) (i : Nat) (d : α) : α := l.getD i d

/-- The list with element `i` changed; unchanged outside it. -/
def upd {α : Type} (l : List α) (i : Nat) (f : α → α) : List α := l.modify i f

/-- The bits of a mask that are set, below `n`. -/
def maskBits {w : Nat} (v : BitVec w) (n : Nat) : List Nat := (List.range n).filter (fun i => bit v i)

/-- The mask of a list of bit numbers. -/
def maskOf (w : Nat) (l : List Nat) : BitVec w := l.foldl (fun m i => setBit m i true) 0

/-- Fields joined into a word: lowest bit, width, value. -/
def fields (l : List (Nat × Nat × Nat)) : BitVec 32 := l.foldl (fun v f => setFld v f.1 f.2.1 f.2.2) 0

def flag (b : Bool) : Nat := if b then 1 else 0

/-- A word with bit `i` set where `p i` holds. -/
def bitsWhere (n : Nat) (p : Nat → Bool) : BitVec 32 := (List.range n).foldl (fun v i => if p i then setBit v i true else v) 0

namespace State

/-! ## Registers -/

/-- The stored value of the register at a control-space address. -/
def reg (s : State) (a : Nat) : BitVec 32 := Sparse.get s.regs a

def setReg (s : State) (a : Nat) (v : BitVec 32) : State := { s with regs := Sparse.put s.regs a v }

def rfld (s : State) (a lo n : Nat) : Nat := fld (s.reg a) lo n

def rbit (s : State) (a i : Nat) : Bool := bit (s.reg a) i

def setRfld (s : State) (a lo n x : Nat) : State := s.setReg a (setFld (s.reg a) lo n x)

/-- R12: hardware sets bit `i` of an event register. -/
def event (s : State) (a i : Nat) : State := s.setReg a (setBit (s.reg a) i true)

/-- A count since the last read, which holds at 0xFFFF_FFFF. -/
def count (s : State) (a n : Nat) : State :=
  s.setReg a (BitVec.ofNat 32 (min 0xFFFFFFFF ((s.reg a).toNat + n)))

/-! ## Memory -/

/-- R358: whether a physical address lies in DRAM or an SRAM pool of this module. -/
def inMemory (s : State) (a : Nat) : Bool :=
  a < Config.dramBytes s.die.variant || (Config.dosePool ≤ a && a < Config.poolEnd)

/-- One byte of memory. -/
def rdByte (s : State) (a : Nat) : Byte := Sparse.get s.mem a

/-- `n` bytes from `a`. -/
def rd (s : State) (a n : Nat) : Bytes := (List.range n).map (fun i => s.rdByte (a + i))

/-- The little-endian value of `n` bytes from `a`. -/
def rdLE (s : State) (a n : Nat) : Nat := leNat (s.rd a n)

/-- The DRAM channel of an address: PA [9:8] XOR PA [17:16] (R387). -/
def dramChannel (a : Nat) : Nat := ((a >>> 8) ^^^ (a >>> 16)) % 4

/-- Whether a write to `a` reaches memory: inside a region (R359), and not on a failed DRAM channel (R394). -/
def writable (s : State) (a : Nat) : Bool :=
  s.inMemory a && (Config.dosePool ≤ a || !bit s.dmc.failed (dramChannel a))

/-- One byte written; what is not writable takes nothing. -/
def wrByte (s : State) (a : Nat) (v : Byte) : State :=
  if s.writable a then { s with mem := Sparse.put s.mem a v } else s

/-- Bytes written in ascending order from `a`. -/
def wrBytes : State → Nat → Bytes → State
  | s, _, [] => s
  | s, a, b :: bs => wrBytes (s.wrByte a b) (a + 1) bs

/-- Writes bytes in ascending order from `a`.  A write makes fresh check codes, so what it covers has no error
afterwards (R373, R375). -/
def wr (s : State) (a : Nat) (bs : Bytes) : State :=
  let covered := fun e : Nat => decide (a ≤ e) && decide (e < a + bs.length)
  { s.wrBytes a bs with mu := { s.mu with ces := s.mu.ces.filter (fun e => !covered e),
                                          ues := s.mu.ues.filter (fun e => !covered e) } }

/-- Writes the `n` low bytes of `x`. -/
def wrLE (s : State) (a n x : Nat) : State := s.wr a (leBytes n x)

/-! ## Outputs and free values -/

/-- Records something that leaves the module. -/
def emit (s : State) (o : Output) : State := { s with out := o :: s.out }

/-- A free value and the state that has drawn it. -/
def draw (s : State) : BitVec 64 × State := (Config.freeValue s.draws, { s with draws := s.draws + 1 })

/-! ## Units by index -/

def ctx (s : State) (c : Nat) : Ctx := nth s.seq.ctxs c Ctx.reset

def updCtx (s : State) (c : Nat) (f : Ctx → Ctx) : State := { s with seq := { s.seq with ctxs := upd s.seq.ctxs c f } }

def stream (s : State) (x : Nat) : Stream := nth s.streams x Stream.reset

def updStream (s : State) (x : Nat) (f : Stream → Stream) : State := { s with streams := upd s.streams x f }

def ridge (s : State) (i : Nat) : Ridge := nth s.rdg.ridges i (Ridge.reset i)

def updRidge (s : State) (i : Nat) (f : Ridge → Ridge) : State :=
  { s with rdg := { s.rdg with ridges := upd s.rdg.ridges i f } }

def joblink (s : State) (l : Nat) : JobLink := nth s.job l JobLink.reset

def updJob (s : State) (l : Nat) (f : JobLink → JobLink) : State := { s with job := upd s.job l f }

def headlink (s : State) (l : Nat) : HeadLink := nth s.hlk.links l HeadLink.reset

def updHead (s : State) (l : Nat) (f : HeadLink → HeadLink) : State :=
  { s with hlk := { s.hlk with links := upd s.hlk.links l f } }

def axis (s : State) (a : Nat) : Axis := nth s.mot.axes a Axis.reset

def updAxis (s : State) (a : Nat) (f : Axis → Axis) : State := { s with mot := { s.mot with axes := upd s.mot.axes a f } }

def posu (s : State) (u : Nat) : PosUnit := nth s.pos u PosUnit.reset

def updPos (s : State) (u : Nat) (f : PosUnit → PosUnit) : State := { s with pos := upd s.pos u f }

def stepper (s : State) (m : Nat) : Stepper := nth s.stp m Stepper.reset

def updStp (s : State) (m : Nat) (f : Stepper → Stepper) : State := { s with stp := upd s.stp m f }

def chan (s : State) (c : Nat) : Chan := nth s.mv.chans c Chan.reset

def updChan (s : State) (c : Nat) (f : Chan → Chan) : State := { s with mv := { s.mv with chans := upd s.mv.chans c f } }

def cvu (s : State) (u : Nat) : Cvu := nth s.mv.cvus u Cvu.reset

def updCvu (s : State) (u : Nat) (f : Cvu → Cvu) : State := { s with mv := { s.mv with cvus := upd s.mv.cvus u f } }

def pipe (s : State) (p : Nat) : Pipe := nth s.cam p Pipe.reset

def updPipe (s : State) (p : Nat) (f : Pipe → Pipe) : State := { s with cam := upd s.cam p f }

def link (s : State) (k : LinkId) : Link := (s.links.find? (fun l => l.id = k)).getD (Link.reset k)

def updLink (s : State) (k : LinkId) (f : Link → Link) : State :=
  { s with links := s.links.map (fun l => if l.id = k then f l else l) }

/-! ## The variant (R1, R5) -/

def isX (s : State) : Bool := s.die.variant = 1

def hasAxis (s : State) : Bool := s.die.variant = 1 || s.die.variant = 2

/-- Logical ridges. -/
def ridgeCount (s : State) : Nat := if s.die.variant = 3 then 8 else 16

/-- Entries of the actuator table: actuator r × 65,536 + c; on the G1H-F only columns below 32,768 have one. -/
def actuators (_s : State) : Nat := 1048576

/-- Whether the unit with this index is present: bit n of IDC_UNITS (R4, R5). -/
def unitPresent (s : State) (u : Nat) : Bool :=
  let lo : Nat := if s.die.variant = 3 then 0x001F7FFF else 0x0F1F7FFF
  let hi : Nat := if s.die.variant = 1 then 0x0001013F else 0x0001002F
  if u < 32 then (lo >>> u) % 2 = 1 else (hi >>> (u - 32)) % 2 = 1

/-! ## Time (R454, R456) -/

/-- The timebase in ns. -/
def now (s : State) : Nat := s.clk.ticks >>> 32

/-- R456: what a slew takes up in one PCLK, in 2⁻³² ns: SLEW ppm of INC, rounded down; a SLEW of 0 loads as 50. -/
def slewStep (s : State) : Nat :=
  let ppm := s.rfld Reg.TIM_CTRL 16 8
  s.clk.inc * (if ppm = 0 then 50 else ppm) / 1000000

/-- `n` PCLK pass: each adds INC and the part of a slew that fits (R454, R456). -/
def tick (s : State) (n : Nat) : State :=
  if s.clk.released then
    let d : Nat := n * s.slewStep
    let part : Int := if s.clk.slew.natAbs ≤ d then s.clk.slew else if s.clk.slew < 0 then -(d : Int) else (d : Int)
    let sum : Int := (s.clk.ticks + n * s.clk.inc : Nat) + part
    { s with clk := { s.clk with
        pclk := s.clk.pclk + n, ticks := uNat 96 sum, slew := s.clk.slew - part } }
  else s

/-- The clock runs on to PCLK sample `t` (log entry 6): time does not run back. -/
def at_ (s : State) (t : Nat) : State := s.tick (t - s.clk.pclk)

/-! ## Observation (R528 to R530) -/

/-- R528: OBS_CNT[i] counts one more. -/
def obsCount (s : State) (i : Nat) : State := { s with obs := { s.obs with counts := upd s.obs.counts i (· + 1) } }

/-- R529, R530: a trace record joins the buffer of 64 KiB when its type is enabled; a full buffer, or one that has lost
records, drops it and counts it.  SEQ is given when it is sent. -/
def trace (s : State) (typ : Nat) (body : Bytes) : State :=
  let r := leBytes 1 typ ++ leBytes 1 body.length ++ [0, 0] ++ leBytes 8 s.now ++ body
  if !s.rbit Reg.OBS_TRC_MASK typ then s
  else if s.obs.lost != 0 || 65536 < (s.obs.buffer.map List.length).sum + r.length then
    ({ s with obs := { s.obs with lost := s.obs.lost + 1 } }.count Reg.OBS_TRC_LOST 1).event Reg.OBS_EVENT 1
  else { s with obs := { s.obs with buffer := s.obs.buffer ++ [r] } }

end State

end Sys2Proof.Machine
end

