-- ==== Sys2Proof/Machine/Frames.lean ====
section
/-! DEFINITION. Check values of frames and the envelopes of head-link, twin and cascade frames (R218, R314, R326): a
16-byte header, the body, and a trailer of the CRC-32C of both and 4 reserved bytes. -/

namespace Sys2Proof.Machine

/-! ## Check values -/

/-- One bit of a reflected CRC of polynomial `p`. -/
def crcBit {w : Nat} (p c : BitVec w) : BitVec w := if bit c 0 then (c >>> 1) ^^^ p else c >>> 1

def crcByte {w : Nat} (p c : BitVec w) (b : Byte) : BitVec w :=
  let c := c ^^^ BitVec.ofNat w b.toNat
  crcBit p (crcBit p (crcBit p (crcBit p (crcBit p (crcBit p (crcBit p (crcBit p c)))))))

/-- CRC-32C (Castagnoli): reflected polynomial 0x82F63B78, start and final complement all ones (log entry 13). -/
def crc32c (bs : Bytes) : BitVec 32 := ~~~(bs.foldl (crcByte 0x82F63B78) 0xFFFFFFFF)

/-! ## Envelopes -/

/-- Bodies are a multiple of 8 bytes. -/
def pad8 (bs : Bytes) : Bytes := bs ++ List.replicate ((8 - bs.length % 8) % 8) 0

/-- R218, R314: header, body and trailer. -/
def withTrailer (hdr body : Bytes) : Bytes := hdr ++ body ++ leBytes 4 (crc32c (hdr ++ body)).toNat ++ [0, 0, 0, 0]

/-- What R218 puts into the header of a downstream head-link frame; LENGTH follows from the body. -/
structure HeadHdr where
  typ : Nat
  flags : Nat
  link : Nat
  seq : Nat
  chunk : Nat
  swtag : Nat
  fmap : Nat
  deriving DecidableEq, Repr

/-- R218: a head-link frame; PORT is 0 downstream. -/
def headBytes (h : HeadHdr) (body : Bytes) : Bytes :=
  let b := pad8 body
  withTrailer (leBytes 1 h.typ ++ leBytes 1 h.flags ++ leBytes 1 h.link ++ [0] ++ leBytes 4 h.seq ++ leBytes 2 h.chunk ++
    leBytes 2 b.length ++ leBytes 2 h.swtag ++ leBytes 1 h.fmap ++ [0]) b

/-- R314: a twin-link frame. -/
def twinBytes (typ flags tseq tack : Nat) (body : Bytes) : Bytes :=
  let b := pad8 body
  withTrailer (leBytes 1 typ ++ leBytes 1 flags ++ [0, 0] ++ leBytes 4 tseq ++ leBytes 4 tack ++ leBytes 2 b.length ++ [0, 0]) b

/-- R326: the header of a cascade frame: ORIGIN in byte 2, LTKN in bytes 14 and 15. -/
def cscHeader (typ origin seq ack ltkn len : Nat) : Bytes :=
  leBytes 1 typ ++ [0] ++ leBytes 1 (origin % 8) ++ [0] ++ leBytes 4 seq ++ leBytes 4 ack ++ leBytes 2 len ++ leBytes 2 ltkn

/-- R326: a cascade frame. -/
def cscBytes (typ origin seq ack ltkn : Nat) (body : Bytes) : Bytes :=
  let b := pad8 body
  withTrailer (cscHeader typ origin seq ack ltkn b.length) b

/-- R440: a job-link frame with CREDIT 256: DATA with a whole message (FIRST and LAST), or IDLE_ACK. -/
def jobBytes (fseq fack : Nat) (msg : Option Bytes) : Bytes :=
  let b := msg.getD []
  withTrailer (leBytes 1 (if msg.isSome then 1 else 0) ++ leBytes 1 (if msg.isSome then 3 else 0) ++ leBytes 2 256 ++ leBytes 4 fseq ++
    leBytes 4 fack ++ leBytes 2 b.length ++ [0, 0]) b

/-! ## Bodies that several units send -/

/-- R258: the 32 bytes of a swath plan. -/
def planBytes (p : SwathPlan) : Bytes :=
  leBytes 4 p.layer ++ leBytes 2 p.swath ++ leBytes 1 p.dir ++ leBytes 1 p.pass ++ leBytes 4 (uNat 32 p.lineFirst) ++
    leBytes 4 (uNat 32 p.lineLast) ++ leBytes 4 (uNat 32 p.indexOffset) ++ leBytes 2 p.speed ++ leBytes 2 p.swtag ++
    leBytes 4 (uNat 32 p.indexTarget) ++ [0, 0, 0, 0]

/-- R316: one record of a TXREC frame. -/
def txBytes (r : TxRec) : Bytes :=
  leBytes 4 r.layer ++ leBytes 2 r.swath ++ leBytes 1 r.kind ++ [0] ++ leBytes 4 (uNat 32 r.line) ++ leBytes 4 r.lseq ++
    leBytes 2 r.ridges.toNat ++ List.replicate 6 0

/-- R316: the body of an OUTCOME frame. -/
def outcomeBytes (x kind code segno off : Nat) : Bytes :=
  leBytes 1 x ++ leBytes 1 kind ++ leBytes 1 code ++ [0] ++ leBytes 4 segno ++ leBytes 4 off ++ [0, 0, 0, 0]

/-- R326: a mode setting's code and group, and its VALUE; the codes and VALUEs are those of R104 and R132.  A binding is no
MODE setting; it is never sent. -/
def modeCode : ModeSetting → Nat × Nat × Nat
  | .bankSel g b => (1, g, b)
  | .rowMap m => (2, 0, m.toNat)
  | .maskSel g k n => (3, g, k + 256 * (n - 1))
  | .halftone g d n e pa pb => (4, g, d + 2 ^ 8 * n + 2 ^ 16 * e + 2 ^ 24 * pa + 2 ^ 32 * pb)
  | .binding _ _ _ _ => (0, 0, 0)

/-- R326: the body of a MODE frame. -/
def modeBytes (m : ModeSetting) (p : BuildPos) (cancel : Bool) : Bytes :=
  let z := modeCode m
  leBytes 1 z.1 ++ leBytes 1 z.2.1 ++ [0, 0] ++ leBytes 4 p.layer ++ leBytes 2 p.swath ++ [0, 0] ++ leBytes 4 (uNat 32 p.line) ++
    leBytes 8 z.2.2 ++ leBytes 1 (if cancel then 1 else 0) ++ List.replicate 7 0

/-- R316: one axis of an AXIS body. -/
def axisBytes (a : AxisState) : Bytes := leBytes 8 (uNat 64 a.pos) ++ leBytes 4 (uNat 32 a.vel) ++ leBytes 4 (uNat 32 a.acc)

/-- R316, R326: the body of an AXIS frame: PLN_STATE in the low half of STATE. -/
def axesBody (tick : Nat) (axes : List AxisState) (plnState : BitVec 32) : Bytes :=
  leBytes 8 tick ++ axes.flatMap axisBytes ++ leBytes 4 plnState.toNat ++ [0, 0, 0, 0]

/-- R326: the body of a SWGATE frame. -/
def swgateBytes (layer swath : Nat) : Bytes := leBytes 4 layer ++ leBytes 2 swath ++ [0, 0]

/-- R326: the body of a REPORT. -/
def reportBytes (kind code swath layer : Nat) : Bytes := leBytes 1 kind ++ leBytes 1 code ++ leBytes 2 swath ++ leBytes 4 layer

/-- R316, R326: three stamps of a TIME frame. -/
def stampBytes (t1 t2 t3 : Nat) : Bytes := leBytes 8 t1 ++ leBytes 8 t2 ++ leBytes 8 t3

/-- R199, R316: the body of an ACTREC frame.  The order of a record's fields after SUB the spec does not give (log entry
141). -/
def actBytes : ActRec → Bytes
  | .test t0 shots results => [0, 0, 0, 0, 0, 0, 0, 0] ++ leBytes 8 t0 ++ leBytes 4 shots.length ++ leBytes 4 results.length ++
      shots.flatMap (leBytes 2) ++
      results.flatMap (fun r => leBytes 4 r.act ++ leBytes 1 r.result ++ leBytes 3 (uNat 24 r.lateness))
  | .trimAck l => [1, 0, 0, 0, 0, 0, 0, 0] ++ leBytes 8 l
  | .commit => [2, 0, 0, 0, 0, 0, 0, 0]
  | .refusal => [3, 0, 0, 0, 0, 0, 0, 0]
  | .edit i v => [4, 0, 0, 0, 0, 0, 0, 0] ++ leBytes 4 i.toNat ++ leBytes 4 v.toNat

end Sys2Proof.Machine
end

