-- ==== Sys2Proof/Machine/Fault.lean ====
section
/-! DEFINITION. Events, context states, the fault collector with its reactions, the fire gate's causes, and the chip
reset: what every unit uses to report. -/

namespace Sys2Proof.Machine

/-! ## Contexts: records and states (R330, R332) -/

/-- R330: the 256-byte record of a context; REGION comes from its stream. -/
def Ctx.record (k : Ctx) (r : Region) : Bytes :=
  let flags := (if k.z then 1 else 0) + (if k.n then 2 else 0) + (if k.c then 4 else 0) + (if k.v then 8 else 0) +
    (if k.intrap then 16 else 0) + (if k.innmi then 32 else 0)
  (k.k.map (fun v => leBytes 8 v.toNat)).flatten ++ leBytes 8 k.pc.toNat ++ leBytes 1 flags ++ leBytes 1 k.rstate ++
    leBytes 1 k.prio ++ leBytes 1 k.beat ++ leBytes 2 k.evpend.toNat ++ leBytes 2 k.wmask.toNat ++
    leBytes 8 k.tvec.toNat ++ leBytes 8 k.tpc.toNat ++ leBytes 8 k.taddr.toNat ++ leBytes 1 k.tcause ++
    leBytes 1 k.tflags.toNat ++ leBytes 1 k.tbeat ++ [0] ++ leBytes 4 k.wdog ++ leBytes 8 k.xroot.toNat ++
    leBytes 1 k.keyslot ++ [0, 0, 0] ++ leBytes 4 k.dmamask.toNat ++
    leBytes 4 (uNat 32 r.col0) ++ leBytes 4 (uNat 32 r.col1) ++ leBytes 4 (uNat 32 r.line0) ++
    leBytes 4 (uNat 32 r.line1) ++ leBytes 4 r.layer0 ++ leBytes 4 r.layer1 ++ leBytes 4 k.quota ++ leBytes 4 k.qused ++
    leBytes 8 k.timer.toNat ++ leBytes 8 k.start.toNat ++ leBytes 8 k.sigfrom.toNat ++ leBytes 8 k.cclks.toNat

namespace State

/-- R331: the supervisor. -/
def super (s : State) : Nat := s.rfld Reg.SEQ_CTRL 0 6

/-- R332: the record takes the state as of the switch-out; the CCLK cycles run by then are a free value (log entry
15). -/
def saveCtx (s : State) (c : Nat) : State :=
  let (v, s) := s.draw
  s.updCtx c (fun k => { k with cclks := v, saved := Ctx.record { k with cclks := v } (s.stream c).region })

/-- The pair that runs context `c`, if any. -/
def pairOf (s : State) (c : Nat) : Option Nat := s.seq.pairs.findIdx? (fun p => p.running = c && c != 0)

/-- The pair that runs `c` is free. -/
def freePair (s : State) (c : Nat) : State :=
  { s with seq := { s.seq with pairs := s.seq.pairs.map (fun p => if p.running = c then { p with running := 0, used := 0 } else p) } }

/-- R332, R334: `c` becomes READY behind every context that has been READY longer. -/
def makeReady (s : State) (c : Nat) : State :=
  let s := s.updCtx c (fun k => { k with rstate := 1 })
  { s with seq := { s.seq with ready := s.seq.ready.filter (· != c) ++ [c] } }

/-- R332: a RUNNING context leaves its pair and becomes READY, its record saved. -/
def switchOut (s : State) (c : Nat) : State := ((s.freePair c).makeReady c).saveCtx c

/-- R332, R352: event `e` for context `c`; an event for a context that is OFF is discarded, and one in the mask of a
WAIT wakes it. -/
def raiseEvent (s : State) (c e : Nat) : State :=
  let k := s.ctx c
  if c = 0 || k.rstate = 0 then s
  else
    let s := s.updCtx c (fun k => { k with evpend := setBit k.evpend e true })
    if k.rstate = 3 && bit k.wmask e then s.makeReady c else s

/-- R332: READY, RUNNING or WAITING to HALTED; the state is saved at a boundary. -/
def enterHalted (s : State) (c : Nat) : State :=
  let k := s.ctx c
  if c = 0 || k.rstate = 0 || k.rstate = 4 then s
  else
    let s := (s.freePair c).updCtx c (fun k => { k with rstate := 4 })
    let s := s.saveCtx c
    { s with seq := { s.seq with ready := s.seq.ready.filter (· != c) } }

/-! ## The fire gate (R483) -/

/-- R483: firing is permitted while every cause is clear. -/
def permitted (s : State) : Bool :=
  !(s.saf.startup || s.saf.interlock || s.saf.discrep || s.saf.fault || s.saf.swgate || s.saf.cascade)

/-- R483, R244, R248, R290: the gate outputs follow the causes, and a RETIRED module holds them; when firing becomes permitted again, the strobe unit places
only skip pulses for 10,000 PCLK. -/
def settleGate (s : State) : State :=
  if s.permitted && s.twn.role != 5 then
    if s.pins.fireGate then s
    else { s with pins := { s.pins with fireGate := true },
                  saf := { s.saf with openedAt := some s.clk.pclk, skipWindow := true } }
  else if s.pins.fireGate then
    { s with pins := { s.pins with fireGate := false }, saf := { s.saf with closedAt := some s.clk.pclk } }
  else s

/-- R244: the kind of the closure in progress: INTERLOCK once a cause of that kind has been set in it. -/
def closureKind (s : State) (interlock : Bool) : Bool := if s.permitted then interlock else s.saf.closedIlk || interlock

/-- R483: an interlock demand. -/
def setInterlock (s : State) : State :=
  let k := s.closureKind true
  { s with saf := { s.saf with interlock := true, closedIlk := k } }.settleGate

/-- R483: a message with GATE from `src` for `ctx`; SAF_CAUSE keeps the first since the last rearm. -/
def setFaultCause (s : State) (src ctx : Nat) : State :=
  let k := s.closureKind false
  let s := if s.rbit Reg.SAF_CAUSE 31 then s
    else s.setReg Reg.SAF_CAUSE (setBit (setFld (setFld 0 0 10 src) 10 6 ctx) 31 true)
  { s with saf := { s.saf with fault := true, closedIlk := k } }.settleGate

/-- R483: DISCREP, SWGATE, CASCADE and STARTUP set or cleared. -/
def setCauses (s : State) (f : Safety → Safety) : State :=
  let k := if s.permitted then false else s.saf.closedIlk
  { s with saf := { f s.saf with closedIlk := k } }.settleGate

/-! ## Unit reset (R476 BRST, R520) -/

/-- Registers that read as start-up or the image has set them (RO per start-up and per image), counts that outlast a reset, and
the units that are out of service for good (R502): a unit's reset keeps them. -/
def fromStart (a : Nat) : Bool :=
  [Reg.CRU_STATE, Reg.CRU_CRSTS, Reg.SAF_EDGEMAX, Reg.BST_BOOT, Reg.BST_OUT, Reg.CRY_KEK, Reg.ACT_LOADFIX].contains a ||
    (List.range 64).any (fun x => a = Reg.JOB_BUFBASE_LO x || a = Reg.JOB_BUFBASE_HI x)

/-- The registers of a unit at the release of reset, with the CFG fields of the loader's copy. -/
def resetUnitRegs (s : State) (u : Nat) : List (Nat × BitVec 32) :=
  let inUnit := fun a : Nat => decide (Config.controlBase + u * 0x10000 ≤ a) && decide (a < Config.controlBase + (u + 1) * 0x10000) &&
    !fromStart a
  let kept := s.regs.filter (fun p => !inUnit p.1)
  let start := (resetRegs.filter (fun p => inUnit p.1)).foldl (fun l p => Sparse.put l p.1 p.2) kept
  (s.boot.cfgCopy.filter (fun p => inUnit p.1)).foldl (fun l p => Sparse.put l p.1 p.2) start

/-- R152, R154: the ridges as they stand at the release of reset, but that a retired ridge runs no logical ridge again: its
logical ridge runs on the spare, there is no other, and the rotation stays halted. -/
def ridgesAfresh (s : State) : Rdg :=
  { Rdg.reset with
    ridges := (List.range s.ridgeCount).map (fun i =>
      { Ridge.reset i with phys := if bit s.rdg.retired i then s.ridgeCount else i }),
    spare := if s.rdg.retired = 0 then some s.ridgeCount else none,
    rotHalt := decide (s.rdg.retired ≠ 0), retired := s.rdg.retired }

/-- R476: BRST returns the source's unit to its state at the release of reset, its CFG fields reloaded; work in
flight in it is discarded and completes nothing; the role of the pair and what is retired stay (log entry 182). -/
def resetUnit (s : State) (u : Nat) : State :=
  let s := { s with regs := s.resetUnitRegs u }
  if u = 0x03 then { s with fco := { Collector.reset with rstMsg := s.fco.rstMsg } }
  else if u = 0x04 then { s with saf := Safety.reset }.settleGate
  else if u = 0x05 then
    -- the targets of its slices return to service, unless they are retired
    { s with bist := Bist.reset, rdg := { s.rdg with inBist := none },
             seq := { s.seq with pairs := s.seq.pairs.zipIdx.map (fun (p : Pair × Nat) =>
               { p.1 with inService := !bit s.seq.retired p.2 }) } }
  else if u = 0x06 then { s with cal := Cal.reset }
  else if u = 0x07 then
    { s with seq := { Seq.reset with
        ctxs := s.seq.ctxs.map (fun k =>
          { Ctx.reset with prio := k.prio, wdog := k.wdog, xroot := k.xroot, keyslot := k.keyslot,
                           dmamask := k.dmamask, quota := k.quota, start := k.start }),
        retired := s.seq.retired,
        pairs := Seq.reset.pairs.zipIdx.map (fun (p : Pair × Nat) => { p.1 with inService := !bit s.seq.retired p.2 }) } }
  else if u = 0x08 then { s with tlb := [] }
  else if u = 0x09 then { s with mu := { s.mu with scrub := none, repeats := [], candidates := [] } }
  else if u = 0x0A then { s with dmc := Dmc.reset }
  else if u = 0x0B then
    { s with mv := { s.mv with chans := List.replicate 32 Chan.reset, infOwner := none, infWait := [], defOwner := none, defWait := [] } }
  else if u = 0x0C then { s with mv := { s.mv with cvus := List.replicate 4 Cvu.reset } }
  else if u = 0x0E then
    { s with mv := { s.mv with slots := List.replicate 16 0, pend := List.replicate 16 none, nonceGen := List.replicate 64 0 } }
  else if u = 0x10 then
    { s with rdg := s.ridgesAfresh, bist := { s.bist with slices := s.bist.slices.filter (fun x => x.kind != 0) } }
  else if u = 0x11 then { s with crn := Cornice.reset }
  else if u = 0x12 then { s with act := Act.reset }
  else if u = 0x13 then { s with hlk := Hlk.reset }
  else if u = 0x14 then { s with stb := Strobe.reset }
  else if u = 0x18 then { s with mot := Motion.reset }
  else if u = 0x19 then { s with pos := List.replicate 4 PosUnit.reset }
  else if u = 0x1A then { s with stp := List.replicate 2 Stepper.reset }
  else if u = 0x1B then { s with swi := List.replicate 8 { active := false, faulty := false } }
  else if u = 0x20 then { s with links := allLinks.map Link.reset }
  else if u = 0x21 then
    { s with job := List.replicate 4 JobLink.reset,
             streams := s.streams.map (fun (st : Stream) => { st with opened := false, full := [], arriving := none }) }
  else if u = 0x22 then { s with twn := { Twin.reset with role := s.twn.role } }
  else if u = 0x23 then { s with csc := Csc.reset }
  else if u = 0x25 then { s with trg := List.replicate 4 Trigger.reset }
  else if u = 0x28 then { s with cam := List.replicate 2 Pipe.reset }
  else s

/-! ## The collector (R474 to R481) -/

/-- R474: the 64-bit message. -/
def msgWord (m : FaultMsg) : BitVec 64 :=
  BitVec.ofNat 64 (m.src % 1024 * 2 ^ 54 + m.kind % 64 * 2 ^ 48 + m.ctx % 64 * 2 ^ 42 + m.detail.toNat)

/-- R477: who receives FAULT. -/
def intReaction (s : State) (c : Nat) : State :=
  let st := (s.ctx c).rstate
  let s1 := if c != 0 && st != 0 then s.raiseEvent c 8 else s
  if (c = 0 || st = 0 || st = 4) && c != s.super then s1.raiseEvent s.super 8 else s1

/-- R351: an NMI for the supervisor; one that is held takes further ones into it, and a waiting supervisor wakes. -/
def nmiReaction (s : State) (m : BitVec 64) : State :=
  let s := if s.seq.nmi.isSome then s else { s with seq := { s.seq with nmi := some m } }
  if (s.ctx s.super).rstate = 3 then s.makeReady s.super else s

/-- R479: the message enters the log; when the log is full it is counted as dropped, and `true` says that this is the
first loss since the log last had room. -/
def logMessage (s : State) (m : BitVec 64) (sev : Nat) : State × Bool :=
  if s.fco.fill < 256 then
    let h := s.rfld Reg.FCO_LOG_HEAD 0 8
    let e : LogEntry := { idx := h, msg := m, stamp := BitVec.ofNat 64 s.now, sev := sev }
    let s := { s with fco := { s.fco with fill := s.fco.fill + 1, lossSeen := false,
                                          log := e :: s.fco.log.filter (fun x => x.idx != h) } }
    ((s.setReg Reg.FCO_LOG_HEAD (BitVec.ofNat 32 ((h + 1) % 256))).event Reg.FCO_EVENT 0, false)
  else
    let s := s.count Reg.FCO_DROPPED 1
    if s.fco.lossSeen then (s, false) else ({ s with fco := { s.fco with lossSeen := true } }, true)

/-- R474, R478: the counts and the LAST words of an accepted message. -/
def countMsg (s : State) (m : FaultMsg) : State :=
  let w := msgWord m
  let s := ((s.count Reg.FCO_MSGS 1).obsCount 7).trace 1 (leBytes 8 w.toNat)
  let s := if faultSources.contains m.src then s.count (Reg.FCO_CNT m.src) 1 else s
  (s.setReg Reg.FCO_LAST_LO (BitVec.ofNat 32 w.toNat)).setReg Reg.FCO_LAST_HI (BitVec.ofNat 32 (w.toNat >>> 32))

/-- R476: GATE, with the severity of the message. -/
def gateReaction (s : State) (cfg : BitVec 32) (m : FaultMsg) : State :=
  if bit cfg 13 then
    (if fld cfg 0 2 = 3 then { s with fco := { s.fco with sev3Gate := true } } else s).setFaultCause m.src m.ctx
  else s

/-- R480: ERR_N is asserted until start-up reaches READY, so in every chip reset too, and while its latch is set. -/
def errAsserted (s : State) : Bool := s.boot.phase != 13 || s.boot.failed || s.fco.errLatch

/-- R476: ERRN and CRST. -/
def pinReactions (s : State) (cfg : BitVec 32) (w : BitVec 64) : State :=
  let s := if bit cfg 12 then { s with fco := { s.fco with errLatch := true } } else s
  if bit cfg 11 then { s with fco := { s.fco with resetDue := true, rstMsg := w } } else s

/-- R476: INT, NMI and URST. -/
def unitReactions (s : State) (cfg : BitVec 32) (m : FaultMsg) : State :=
  let s := if bit cfg 8 then s.intReaction m.ctx else s
  let s := if bit cfg 9 then s.nmiReaction (msgWord m) else s
  if bit cfg 10 then s.resetUnit (m.src / 16) else s

/-- R474 to R476: a message's counts and every reaction but HALT and LOG, by its source's FCO_SEV. -/
def react (s : State) (m : FaultMsg) : State :=
  let cfg := s.reg (Reg.FCO_SEV m.src)
  let s := s.countMsg m
  let s := if fld cfg 0 2 = 3 then s.event Reg.FCO_EVENT 2 else s
  ((s.gateReaction cfg m).pinReactions cfg (msgWord m)).unitReactions cfg m

/-- R333, R476 HALT: the context halts; `true` says that it was the supervisor and ran until now. -/
def haltReaction (s : State) (cfg : BitVec 32) (c : Nat) : State × Bool :=
  if bit cfg 14 then
    let was := (s.ctx c).rstate
    (s.enterHalted c, decide (c = s.super) && was != 4 && was != 0)
  else (s, false)

/-- R476 LOG, R479: the message enters the log, but not one of a full log; `true` says that the log has overflowed. -/
def logReaction (s : State) (cfg : BitVec 32) (m : FaultMsg) : State × Bool :=
  if bit cfg 15 && m.src != Src.FCO_LOG_OVERFLOW then s.logMessage (msgWord m) (fld cfg 0 2) else (s, false)

/-- R474 to R481: the collector accepts a message and applies its reactions (log entry 8).  `fuel` bounds the messages
that a reaction itself raises: SUP_HALT when the supervisor halts (R333), LOG_OVERFLOW when the log is full (R479). -/
def raiseN : Nat → State → FaultMsg → State
  | 0, s, _ => s
  | fuel + 1, s, m =>
    let cfg := s.reg (Reg.FCO_SEV m.src)
    let h := (s.react m).haltReaction cfg m.ctx
    let s := if h.2 then raiseN fuel h.1 { src := Src.SEQ_SUP_HALT, kind := 0, ctx := m.ctx, detail := 0 } else h.1
    let l := s.logReaction cfg m
    if l.2 then raiseN fuel (l.1.event Reg.FCO_EVENT 1) { src := Src.FCO_LOG_OVERFLOW, kind := 0, ctx := 0, detail := 0 } else l.1

/-- A fault message reaches the collector. -/
def raiseMsg (s : State) (m : FaultMsg) : State := raiseN 4 s m

/-- A fault of source `src` with no kind and no detail, for the module itself. -/
def raise (s : State) (src : Nat) : State := s.raiseMsg { src := src, kind := 0, ctx := 0, detail := 0 }

/-- A fault of source `src` that concerns context `c`. -/
def raiseFor (s : State) (src c : Nat) : State := s.raiseMsg { src := src, kind := 0, ctx := c, detail := 0 }

/-- R332, R333: HALTED, with SUP_HALT when it is the supervisor. -/
def haltCtx (s : State) (c : Nat) : State :=
  let was := (s.ctx c).rstate
  let s := s.enterHalted c
  if c = s.super && was != 4 && was != 0 then s.raiseFor Src.SEQ_SUP_HALT c else s

/-! ## Chip reset (R290, R476, R517) -/

/-- The state a reset leaves: the die with its fuses, the pins, the island, the counts that only power loss
clears, and the waiting commands stay; everything else starts again.  TOWN, the gate and the strobes are stopped. -/
def chipReset (s : State) (cause : Nat) : State :=
  { State.reset with
    pending := s.pending, die := s.die, island := s.island, out := s.out, draws := s.draws,
    pins := { s.pins with town := false, fireGate := false, cmpHigh := List.replicate 4 false },
    boot := { Boot.reset with rstCause := cause, failedStarts := s.boot.failedStarts },
    rdg := { Rdg.reset with ridges := (List.range s.ridgeCount).map Ridge.reset, spare := some s.ridgeCount },
    regs := Sparse.put State.reset.regs Reg.CRU_CRSTS (s.reg Reg.CRU_CRSTS) }

/-- R516: start-up has failed with `code`; every lane but the trace lane is in DEEP, and every output is held. -/
def failStart (s : State) (code : Nat) : State :=
  { s with boot := { s.boot with failed := true, code := code }, links := allLinks.map Link.reset,
           pins := { s.pins with town := false, fireGate := false } }

/-- R476 CRST, R481, R517: the reset that a CRST reaction causes; before READY it counts as a failed start, and the
third ends start-up. -/
def crstReset (s : State) : State :=
  let ph := s.boot.phase
  let early := ph != 13
  let fails := if early then s.boot.failedStarts + 1 else s.boot.failedStarts
  let msg := s.fco.rstMsg
  let s := (s.chipReset 2).count Reg.CRU_CRSTS 1
  let s := { s with fco := { s.fco with rstMsg := msg }, boot := { s.boot with failedStarts := fails, phase := 1 } }
  if early && 3 ≤ fails then { s with boot := { s.boot with phase := ph } }.failStart 2 else s

end State

end Sys2Proof.Machine
end

