-- ==== Sys2Proof/Machine/Mem.lean ====
section
/-! DEFINITION. Checked reads and writes of the memories (R373 to R381) and the translation of virtual addresses with
its fault slots (R361 to R372). -/

namespace Sys2Proof.Machine

/-- The readers of MEM_UE_HI.READER. -/
inductive Reader where
  | sequencer | dma | cvu | ridge | headLink | act | walker | scrubber
  deriving DecidableEq, Repr

def Reader.code : Reader → Nat
  | .sequencer => 0
  | .dma => 1
  | .cvu => 2
  | .ridge => 3
  | .headLink => 4
  | .act => 5
  | .walker => 6
  | .scrubber => 7

/-- The SRAM pool of an address: 0 DOSE, 1 ACT, 2 DIFF, 3 GEOM, 4 SEQ (R358). -/
def poolOf (a : Nat) : Option Nat :=
  if a < Config.dosePool then none
  else if a < Config.actPool then some 0
  else if a < Config.diffPool then some 1
  else if a < Config.geomPool then some 2
  else if a < Config.seqPool then some 3
  else if a < Config.poolEnd then some 4
  else none

/-- R378: the first 0x2_5000 bytes of the SEQ pool are held three times. -/
def tripled (a : Nat) : Bool := Config.seqPool ≤ a && a < Config.seqPool + 0x25000

/-- R358: control space. -/
def inControl (a : Nat) : Bool := Config.controlBase ≤ a && a < Config.controlEnd

/-- What a read found. -/
inductive ReadResult where
  | ok (bs : Bytes)
  | uncorr
  | busErr
  deriving DecidableEq, Repr

namespace State

def inDram (s : State) (a : Nat) : Bool := a < Config.dramBytes s.die.variant

/-- A message of the memories: the physical address is its detail (log entry 11). -/
def raiseAddr (s : State) (src c a : Nat) : State :=
  s.raiseMsg { src := src, kind := 0, ctx := c, detail := BitVec.ofNat 42 a }

/-- R381: one more correctable error at a byte of SRAM; at CE_REPEAT its row becomes a candidate. -/
def countRepeat (s : State) (a : Nat) : State :=
  let n := ((s.mu.repeats.find? (fun p => p.1 = a)).map Prod.snd).getD 0 + 1
  let s := { s with mu := { s.mu with repeats := (a, n) :: s.mu.repeats.filter (fun p => p.1 != a) } }
  if s.rfld Reg.MEM_CTRL 16 8 ≤ n && !s.mu.candidates.contains a then
    let s := { s with mu := { s.mu with candidates := a :: s.mu.candidates } }
    let s := s.setReg Reg.MEM_CAND (BitVec.ofNat 32 s.mu.candidates.length)
    (s.event Reg.MEM_EVENT 5).raiseAddr Src.MEM_REPAIR_CAND 0 a
  else s

/-- R374, R375: a correctable error at `a` is corrected, written back and counted. -/
def correct (s : State) (c a : Nat) : State :=
  let s := { s with mu := { s.mu with ces := s.mu.ces.filter (· != a) } }
  if (poolOf a).isSome then
    (((s.count Reg.MEM_CES 1).event Reg.MEM_EVENT 0).raiseAddr Src.MEM_CE c a).countRepeat a
  else ((s.count Reg.DMC_CES 1).event Reg.DMC_EVENT 0).raiseAddr Src.DMC_DRAM_CE c a

/-- R378: a tripled byte with one bad copy is voted and written back. -/
def triFix (s : State) (c a : Nat) : State :=
  let s := { s with mu := { s.mu with ues := s.mu.ues.erase a } }
  ((s.count Reg.MEM_TRIFIX 1).event Reg.MEM_EVENT 2).raiseAddr Src.MEM_TRI_FIX c a

/-- R377: an uncorrectable read at `a` is reported and recorded. -/
def reportUE (s : State) (r : Reader) (c a : Nat) : State :=
  match poolOf a with
  | some p =>
    let s := if tripled a then (s.event Reg.MEM_EVENT 3).raiseAddr Src.MEM_TRI_FAIL c a else s
    let s := s.setReg Reg.MEM_UE_LO (BitVec.ofNat 32 a)
    let s := s.setReg Reg.MEM_UE_HI (setFld (setFld (setFld 0 0 8 (a >>> 32)) 8 3 p) 16 3 r.code)
    ((s.count Reg.MEM_UES 1).event Reg.MEM_EVENT 1).raiseAddr Src.MEM_UE c a
  | none =>
    let l := a / 64 * 64
    let s := s.setReg Reg.DMC_UE_LO (BitVec.ofNat 32 l)
    let s := s.setReg Reg.DMC_UE_HI (setFld (setFld 0 0 8 (l >>> 32)) 8 3 r.code)
    ((s.count Reg.DMC_UES 1).event Reg.DMC_EVENT 1).raiseAddr Src.DMC_DRAM_UE c l

/-- Whether the byte at `a` reads uncorrectable: a bad byte (of a tripled word, two bad copies), a bad beat of DRAM, or
a failed channel (R377, R378, R394). -/
def badAt (s : State) (a : Nat) : Bool :=
  if (poolOf a).isSome then
    if tripled a then 2 ≤ s.mu.ues.count a else s.mu.ues.contains a
  else s.mu.ues.any (fun e => e / 4 = a / 4) || bit s.dmc.failed (dramChannel a)

/-- The repairs a read makes on its way: single-bit errors and outvoted copies in its range. -/
def repairRange (s : State) (c a n : Nat) : State :=
  let s := (s.mu.ces.filter (fun e => decide (a ≤ e) && decide (e < a + n))).foldl (fun s e => s.correct c e) s
  (s.mu.ues.filter (fun e => decide (a ≤ e) && decide (e < a + n) && tripled e && s.mu.ues.count e = 1)).foldl
    (fun s e => s.triFix c e) s

/-- A checked read of `n` bytes of memory on behalf of context `c` (R359, R373 to R378). -/
def readMem (s : State) (r : Reader) (c a n : Nat) : State × ReadResult :=
  if !(s.inMemory a && s.inMemory (a + n - 1)) then (s, .busErr)
  else
    match (List.range n).find? (fun i => s.badAt (a + i)) with
    | some i => ((s.repairRange c a n).reportUE r c (a + i), .uncorr)
    | none => (s.repairRange c a n, .ok (s.rd a n))

/-! ## DRAM requests (R387 to R393) -/

/-- DMC_LINES: the 64-byte lines of DRAM that an access of a class moves. -/
def movedLines (s : State) (cls a n : Nat) : State :=
  if s.inDram a then s.count (Reg.DMC_LINES cls) ((a + n - 1) / 64 - a / 64 + 1) else s

/-- R393: an access to a DRAM channel in self-refresh waits for the exit; the channel. -/
def sleeping (s : State) (a : Nat) : Option Nat :=
  if s.inDram a && bit s.dmc.selfRef (dramChannel a) then some (dramChannel a) else none

/-- R388: a request of a class that waits at a channel. -/
def postReq (s : State) (ch cls who : Nat) : State :=
  if s.dmc.reqs.any (fun r => r.chan = ch && r.who = who) then s
  else { s with dmc := { s.dmc with reqs := s.dmc.reqs ++ [DramReq.mk ch cls who] } }

/-- A checked write: outside every region it is discarded with a bus error (R359), and a DRAM write that is not whole
aligned words is discarded with one and sets BAD_WRITE (R375). -/
def writeMem (s : State) (a : Nat) (bs : Bytes) : State × Bool :=
  if !(s.inMemory a && s.inMemory (a + bs.length - 1)) then (s, false)
  else if s.inDram a && (a % 4 != 0 || bs.length % 4 != 0) then (s.event Reg.DMC_EVENT 5, false)
  else (s.wr a bs, true)

end State

/-! ## Translation -/

/-- R369: what an access is, with its code in XLT_FS_INFO.ACCESS. -/
inductive AccessKind where
  | read | write | fetch | cas
  deriving DecidableEq, Repr

def AccessKind.code : AccessKind → Nat
  | .read => 0
  | .write => 1
  | .fetch => 2
  | .cas => 3

/-- R368: a translation fault: its kind and the table level (0 for RANGE). -/
structure XltFault where
  kind : Nat
  level : Nat
  deriving DecidableEq, Repr

namespace Xlt

def NOMAP : Nat := 1
def PERM : Nat := 2
def BADPTE : Nat := 3
def RANGE : Nat := 4
def WALK_UNCORR : Nat := 5
def WALK_BUS : Nat := 6

end Xlt

/-- Bytes that an entry at a level maps: 1 GiB, 2 MiB, 4 KiB. -/
def levelBytes (l : Nat) : Nat := if l = 1 then 0x40000000 else if l = 2 then 0x200000 else 0x1000

/-- R361: the index of a level's table. -/
def levelIndex (l va : Nat) : Nat := (va / levelBytes l) % 512

def ptePa (e : BitVec 64) : Nat := fld e 12 28 * 4096

/-- R362, R364: a table may lie in the SEQ pool or in present DRAM. -/
def State.tableAt (s : State) (a : Nat) : Bool := s.inDram a || (Config.seqPool ≤ a && a < Config.poolEnd)

/-- R358: whether `[a, a + n)` lies wholly inside the regions. -/
def State.regionCovers (s : State) (a n : Nat) : Bool :=
  a + n ≤ Config.dramBytes s.die.variant || (Config.dosePool ≤ a && a + n ≤ Config.poolEnd) ||
    (Config.controlBase ≤ a && a + n ≤ Config.controlEnd)

/-- R364: an entry with V = 1 that is malformed at its level. -/
def State.pteBad (s : State) (l : Nat) (e : BitVec 64) : Bool :=
  let leaf := bit e 1
  let pa := ptePa e
  let n := levelBytes l
  fld e 7 5 != 0 || fld e 40 8 != 0 || fld e 5 2 = 3 ||
    if leaf then
      (bit e 3 && !bit e 2) || fld e 2 3 = 0 || pa % n != 0 || !s.regionCovers pa n ||
        (pa < Config.seqPool + 0x25000 && Config.seqPool < pa + n) ||
        (inControl pa && !(l = 3 && fld e 5 2 = 1))
    else l = 3 || fld e 2 5 != 0 || !s.tableAt pa

/-- R365: whether a leaf admits the access. -/
def pteAllows (e : BitVec 64) (k : AccessKind) (agent : Reader) : Bool :=
  let engine := agent != .sequencer
  (match k with
    | .read => bit e 2
    | .write => bit e 3
    | .fetch => bit e 4
    | .cas => bit e 2 && bit e 3) &&
  (fld e 5 2 = 0 || (fld e 5 2 = 1 && !engine) || (fld e 5 2 = 2 && engine))

/-- R367: the cached entry of a context at a level that covers `va`. -/
def State.cached (s : State) (c l va : Nat) : Option (BitVec 64) :=
  (s.tlb.find? (fun t => t.ctx = c && t.level = l && t.base = va / levelBytes l * levelBytes l)).map TlbEntry.entry

def State.cache (s : State) (c l va : Nat) (e : BitVec 64) : State :=
  { s with tlb := { ctx := c, level := l, base := va / levelBytes l * levelBytes l, entry := e } ::
      s.tlb.filter (fun t => !(t.ctx = c && t.level = l && t.base = va / levelBytes l * levelBytes l)) }

/-- R361 to R366: the walk from `level` with the table at `table` for an agent; `fuel` counts the levels left. -/
def State.walkFrom : Nat → State → Nat → Nat → Nat → Nat → AccessKind → Reader → State × Except XltFault Nat
  | 0, s, _, _, l, _, _, _ => (s, .error { kind := Xlt.BADPTE, level := l })
  | fuel + 1, s, c, va, l, table, k, agent =>
    let fromEntry (s : State) (e : BitVec 64) (fresh : Bool) : State × Except XltFault Nat :=
      if bit e 1 then
        if pteAllows e k agent then
          (if fresh then s.cache c l va e else s, .ok (ptePa e + va % levelBytes l))
        else (s, .error { kind := Xlt.PERM, level := l })
      else State.walkFrom fuel (if fresh then s.cache c l va e else s) c va (l + 1) (ptePa e) k agent
    match s.cached c l va with
    | some e => fromEntry s e false
    | none =>
      match (s.movedLines (if agent = .ridge then 0 else 1) (table + 8 * levelIndex l va) 8).readMem .walker c
          (table + 8 * levelIndex l va) 8 with
      | (s, .busErr) => (s, .error { kind := Xlt.WALK_BUS, level := l })
      | (s, .uncorr) => (s, .error { kind := Xlt.WALK_UNCORR, level := l })
      | (s, .ok bs) =>
        let e : BitVec 64 := BitVec.ofNat 64 (leNat bs)
        if !bit e 0 then (s, .error { kind := Xlt.NOMAP, level := l })
        else if s.pteBad l e then (s, .error { kind := Xlt.BADPTE, level := l })
        else fromEntry s e true

namespace State

/-- R367: the cached leaf that covers `va`, with its level. -/
def leafFor (s : State) (c va : Nat) : Option (Nat × BitVec 64) :=
  [1, 2, 3].findSome? (fun l => ((s.cached c l va).filter (fun e => bit e 1)).map (fun e => (l, e)))

/-- R361 to R368: the physical address of a virtual one for context `c`: by the cached leaf that covers it, whatever the tables
hold now (R367), or by a walk. -/
def translate (s : State) (c va : Nat) (k : AccessKind) (agent : Reader) : State × Except XltFault Nat :=
  if 2 ^ 39 ≤ va then (s, .error { kind := Xlt.RANGE, level := 0 })
  else
    match s.leafFor c va with
    | some (l, e) =>
      (s, if pteAllows e k agent then .ok (ptePa e + va % levelBytes l) else .error { kind := Xlt.PERM, level := l })
    | none =>
      let s := s.count Reg.XLT_WALKS 1
      let root := (s.ctx c).xroot
      if fld root 0 12 != 0 || fld root 40 24 != 0 || !s.tableAt root.toNat then
        (s, .error { kind := Xlt.BADPTE, level := 1 })
      else s.walkFrom 3 c va 1 root.toNat k agent

/-- R368: the counts, events and messages of a translation fault. -/
def faultRaised (s : State) (c va : Nat) (f : XltFault) : State :=
  let s := (s.count Reg.XLT_FAULTS 1).event Reg.XLT_EVENT 0
  let s := s.raiseMsg { src := Src.XLT_XLATE, kind := f.kind, ctx := c, detail := BitVec.ofNat 42 va }
  if f.kind = Xlt.WALK_UNCORR then
    (s.event Reg.XLT_EVENT 1).raiseMsg { src := Src.XLT_WALK_UNCORR, kind := f.kind, ctx := c, detail := BitVec.ofNat 42 va }
  else if f.kind = Xlt.WALK_BUS then
    (s.event Reg.XLT_EVENT 2).raiseMsg { src := Src.XLT_WALK_BUS, kind := f.kind, ctx := c, detail := BitVec.ofNat 42 va }
  else s

/-- The word of XLT_FS_INFO and XLT_SEQF. -/
def faultInfo (c : Nat) (f : XltFault) (k : AccessKind) : BitVec 32 :=
  setFld (setFld (setFld (setFld (setFld 0 0 6 c) 8 3 f.kind) 12 2 k.code) 14 2 f.level) 31 1 1

/-- R369: what a slot records of a fault. -/
def slotRecord (s : State) (slot c va : Nat) (f : XltFault) (k : AccessKind) : State :=
  let s := s.setReg (Reg.XLT_FS_VA_LO slot) (BitVec.ofNat 32 va)
  let s := s.setReg (Reg.XLT_FS_VA_HI slot) (BitVec.ofNat 32 (va >>> 32))
  s.setReg (Reg.XLT_FS_INFO slot) (faultInfo c f k)

/-- R369: a fault of an engine fills its slot and raises XLT_FAULT (event 14) for the context it works for. -/
def slotFault (s : State) (slot c va : Nat) (f : XltFault) (k : AccessKind) : State :=
  ((s.slotRecord slot c va f k).faultRaised c va f).raiseEvent c 14

/-- R369: a fault of a sequencer access is recorded in XLT_SEQF of its context. -/
def seqFault (s : State) (c va : Nat) (f : XltFault) (k : AccessKind) : State :=
  (s.setReg (Reg.XLT_SEQF c) (faultInfo c f k)).faultRaised c va f

/-- R369: whether a slot holds a fault. -/
def slotHolds (s : State) (slot : Nat) : Bool := s.rbit (Reg.XLT_FS_INFO slot) 31

def clearSlot (s : State) (slot : Nat) : State := s.setReg (Reg.XLT_FS_INFO slot) 0

/-- R367: every cached entry of the context whose range overlaps the aligned range goes; SIZE 3 is the whole context. -/
def invalidate (s : State) (c size va : Nat) : State :=
  let n := if size = 0 then 0x1000 else if size = 1 then 0x200000 else if size = 2 then 0x40000000 else 2 ^ 39
  let lo := va / n * n
  { s with tlb := s.tlb.filter (fun t => !(t.ctx = c && t.base < lo + n && lo < t.base + levelBytes t.level)) }

end State

end Sys2Proof.Machine
end

