-- ==== Sys2Proof/Machine/Report.lean ====
section
/-! DEFINITION. What a module says: its role, upstream job-link messages (R63, R441), twin-link frames (R315), and
the scree log (R19 to R25, R559, R560). -/

namespace Sys2Proof.Machine

/-- R441: the highest FSEQ a side may send is the peer's last FACK plus CREDIT. -/
def JobLink.maySend (j : JobLink) : Bool :=
  match j.peerAck with
  | none => j.txNext < j.peerCredit
  | some a => (j.txNext + 2 ^ 32 - a) % 2 ^ 32 ≤ j.peerCredit

/-- The FACK this side reports: the highest FSEQ received in order; before the first frame 2³² − 1. -/
def JobLink.fack (j : JobLink) : Nat := (j.rxNext + (2 ^ 32 - 1)) % 2 ^ 32

namespace State

/-! ## Roles (R293) -/

/-- SOLO or ACTIVE: this module owns the outputs. -/
def owns (s : State) : Bool := s.twn.role = 1 || s.twn.role = 2

/-- STANDBY or SYNCING: inputs reach the module through the twin link (R295). -/
def follows (s : State) : Bool := s.twn.role = 3 || s.twn.role = 4

/-- R4, R506: start-up has reached READY and has not failed. -/
def running (s : State) : Bool := s.boot.phase = 13 && !s.boot.failed

/-! ## Links -/

/-- R434: LNP_LSTAT.STATE 5 is ACTIVE. -/
def linkActive (s : State) (k : LinkId) : Bool := (s.link k).st = 5

/-- R432: a frame arrives on a link: the adaptation of its receive lanes goes on. -/
def heardOn (s : State) (k : LinkId) : State := s.updLink k (fun l => { l with frozen := [] })

/-! ## Upstream messages (R63, R440, R441, R447) -/

/-- R440: a frame of a job link goes out: DATA with a message, or IDLE_ACK. -/
def jobEmit (s : State) (l fseq : Nat) (msg : Option Bytes) : State :=
  s.emit (.jobFrame l (jobBytes fseq (s.joblink l).fack msg))

/-- R441: every frame not acknowledged goes out again. -/
def jobAgain (s : State) (l : Nat) : State :=
  ((s.joblink l).unacked.foldl (fun s z => s.jobEmit l z.1 (some z.2)) s).count (Reg.JOB_RETX l) (s.joblink l).unacked.length

/-- R441: sends the oldest waiting message as one DATA frame (every upstream message fits one), while the peer's credit
lets it; `n` bounds the frames sent. -/
def pumpJob : Nat → State → Nat → State
  | 0, s, _ => s
  | n + 1, s, l =>
    let j := s.joblink l
    match j.txq with
    | [] => s
    | m :: rest =>
      if s.running && s.linkActive (.job l) && j.maySend then
        let s := s.updJob l (fun j => { j with txq := rest, unacked := j.unacked ++ [(j.txNext, m)],
                                               txNext := (j.txNext + 1) % 2 ^ 32 })
        pumpJob n (s.jobEmit l j.txNext (some m)) l
      else s

/-- A message goes out, or waits for the peer's credit. -/
def queueAny (s : State) (l : Nat) (m : Bytes) : State :=
  pumpJob 64 ((s.updJob l (fun j => { j with txq := j.txq ++ [m] })).emit (.jobMsg l m)) l

/-- R447: a message joins the link's 64-message queue; a full queue discards it and sets TXQ_FULL.  Exported scree-log
entries (TYPE 4) take no place in it. -/
def queueUp (s : State) (l : Nat) (m : Bytes) : State :=
  if 64 ≤ ((s.joblink l).txq.filter (fun q => fieldLE q 0 1 != 4)).length then s.event Reg.JOB_EVENT 2
  else s.queueAny l m

/-- R293, R304: only the module that owns the outputs speaks on its job links; on a link that is not ACTIVE the message
waits (log entry 26). -/
def upMsg (s : State) (l : Nat) (m : Bytes) : State := if s.owns then s.queueUp l m else s

/-- The link that carries a context's stream (R61). -/
def streamLink (s : State) (x : Nat) : Option Nat := (s.stream x).desc.map StreamDesc.link

/-- R63: STATUS. -/
def statusMsg (x code segno off : Nat) : Bytes := [2, BitVec.ofNat 8 x, BitVec.ofNat 8 code, 0] ++ leBytes 4 segno ++ leBytes 4 off

/-- A STATUS on the link of the context's stream. -/
def sendStatus (s : State) (x code segno off : Nat) : State :=
  match s.streamLink x with
  | some l => s.upMsg l (statusMsg x code segno off)
  | none => s

/-- R64, R68: SEG_REQ from JOB_NEXT and JOB_LIMIT, with FLAGS [0] RETRY. -/
def sendSegReq (s : State) (x : Nat) (retry : Bool) : State :=
  match s.streamLink x with
  | some l => s.upMsg l ([1, BitVec.ofNat 8 x, if retry then 1 else 0, 0] ++
      leBytes 4 (s.reg (Reg.JOB_NEXT x)).toNat ++ leBytes 4 (s.reg (Reg.JOB_LIMIT x)).toNat)
  | none => s

/-! ## Twin-link frames (R314, R315) -/

/-- R315: TACK is the highest TSEQ received in order; before the first frame 2³² − 1. -/
def twinTack (s : State) : Nat := (s.twn.rxNext + (2 ^ 32 - 1)) % 2 ^ 32

/-- A frame of the twin link goes out. -/
def twinEmit (s : State) (typ tseq : Nat) (body : Bytes) : State := s.emit (.twinFrame (twinBytes typ 0 tseq s.twinTack body))

/-- R315: CRC, ROLE and TIEBREAK frames go ahead of waiting frames of other types, and SYNC frames go last. -/
def twinClass (typ : Nat) : Nat := if typ = 3 || typ = 1 || typ = 0x0E then 0 else if typ = 0x0D then 2 else 1

/-- R315: waiting frames go out, each with the next TSEQ, until 256 are unacknowledged. -/
def twinPump (s : State) : State :=
  let go := ((s.twn.waiting.take (256 - s.twn.unacked.length)).zipIdx).map (fun z => ((s.twn.txNext + z.2) % 2 ^ 32, z.1.1, z.1.2))
  { s with twn := { s.twn with txNext := (s.twn.txNext + go.length) % 2 ^ 32, unacked := s.twn.unacked ++ go,
                               waiting := s.twn.waiting.drop go.length },
           out := (go.map (fun z => Output.twinFrame (twinBytes z.2.1 0 z.1 s.twinTack z.2.2))).reverse ++ s.out }

/-- Sends a frame of the type and body when the twin link is up. -/
def twinSend (s : State) (typ : Nat) (body : Bytes) : State :=
  if s.twn.linkUp && s.linkActive .twin then
    let after := fun (z : Nat × Bytes) => decide (twinClass typ < twinClass z.1)
    twinPump { s with twn := { s.twn with
      waiting := s.twn.waiting.filter (fun z => !after z) ++ (typ, body) :: s.twn.waiting.filter after } }
  else s

/-- R315: every frame not acknowledged goes out again. -/
def twinAgain (s : State) : State :=
  (s.twn.unacked.foldl (fun s z => s.twinEmit z.2.1 z.1 z.2.2) s).count Reg.TWN_RETX s.twn.unacked.length

/-- R295: the module that owns the outputs mirrors an item to a standby or to a joiner from HELLO onward (R308). -/
def mirror (s : State) (typ : Nat) (body : Bytes) : State :=
  if s.twn.role = 2 || (s.twn.role = 1 && s.twn.phase != 0) then s.twinSend typ body else s

/-- R295: the outcome of a line for a standby (R316: 0 taken, 1 fired, 2 withheld, 3 void order). -/
def mirrorLine (s : State) (l : CLine) (kind : Nat) (ridges : BitVec 16) : State :=
  s.mirror 5 (txBytes { layer := l.layer, swath := l.swath, kind := kind, line := l.line, lseq := l.lseq.getD 0, ridges := ridges })

/-- R293, R316: the body of a ROLE frame. -/
def roleBody (s : State) : Bytes :=
  leBytes 1 s.twn.role ++ [if s.pins.tws then 1 else 0] ++ leBytes 2 s.twn.topTkn ++ leBytes 1 s.die.variant ++ leBytes 1 s.die.step ++
    [0, 0] ++ leBytes 4 (s.reg Reg.BCL_COMPAT).toNat ++ [0, 0, 0, 0]

/-! ## Cascade frames (R323 to R326) -/

/-- The port of a module toward the lead, or away from it. -/
def cscPort (s : State) (down : Bool) : CscPort := if down then s.csc.downPort else s.csc.upPort

def updCsc (s : State) (down : Bool) (f : CscPort → CscPort) : State :=
  { s with csc := if down then { s.csc with downPort := f s.csc.downPort } else { s.csc with upPort := f s.csc.upPort } }

/-- R326: the highest frame number received in order on a port. -/
def cscAckNo (s : State) (down : Bool) : Nat := ((s.cscPort down).rxNext + (2 ^ 32 - 1)) % 2 ^ 32

/-- Position 0 is the lead. -/
def isLead (s : State) : Bool := s.pins.cpos = 0

/-- R326: LTKN: the lead puts its own TKN there, a member the highest it has seen. -/
def ownLtkn (s : State) : Nat := if s.isLead then s.hlk.tkn else s.csc.ltkn

/-- R326: a cascade frame on a port. -/
def cscFrameOf (s : State) (down : Bool) (f : CscSent) : Output :=
  .cscFrame down (cscBytes f.typ f.origin f.seq (s.cscAckNo down) f.ltkn f.body)

/-- R326: a cascade frame goes out on a port. -/
def cscEmit (s : State) (down : Bool) (f : CscSent) : State := s.emit (s.cscFrameOf down f)

/-- R315, R326: waiting frames of a port go out, each with the next number, until 256 are unacknowledged. -/
def cscPump (s : State) (down : Bool) : State :=
  let p := s.cscPort down
  let go := ((p.waiting.take (256 - p.unacked.length)).zipIdx).map (fun z => { z.1 with seq := (p.txNext + z.2) % 2 ^ 32 })
  let s := s.updCsc down (fun p => { p with txNext := (p.txNext + go.length) % 2 ^ 32, unacked := p.unacked ++ go,
                                            waiting := p.waiting.drop go.length })
  { s with out := (go.map (s.cscFrameOf down)).reverse ++ s.out }

/-- R326: a frame of some origin goes out on a port that is up, and stays until acknowledged. -/
def cscPass (s : State) (down : Bool) (typ origin ltkn : Nat) (body : Bytes) : State :=
  if (s.cscPort down).up && s.linkActive (if down then .cdn else .cup) then
    let f : CscSent := { seq := 0, typ := typ, origin := origin, ltkn := ltkn, body := body }
    (s.updCsc down (fun p => { p with waiting := p.waiting ++ [f] })).cscPump down
  else s

/-- R326: sends a frame of this position. -/
def cscSend (s : State) (down : Bool) (typ : Nat) (body : Bytes) : State := s.cscPass down typ s.pins.cpos s.ownLtkn body

/-- R326: every frame of a port not acknowledged goes out again. -/
def cscAgain (s : State) (down : Bool) : State :=
  let un := (s.cscPort down).unacked
  (un.foldl (fun s f => s.cscEmit down f) s).count Reg.CSC_RETX un.length

/-- R326: IDLE_ACK on a port; it takes no number. -/
def cscIdle (s : State) (down : Bool) : State :=
  s.cscEmit down { seq := (s.cscPort down).txNext, typ := 0, origin := s.pins.cpos, ltkn := s.ownLtkn, body := [] }

/-- R323: the lead distributes. -/
def distribute (s : State) (typ : Nat) (body : Bytes) : State := if s.isLead then s.cscSend true typ body else s

/-- R324 to R326: a member reports up: KIND 0 MODE_LATE, 1 COMMITTED, 2 FAULT, 3 HB. -/
def report (s : State) (kind code swath layer : Nat) : State :=
  if s.isLead then s
  else s.cscSend false 0x0B (reportBytes kind code swath layer)

/-! ## The scree log -/

/-- R20: the 32 bytes of an entry. -/
def screeBytes (e : ScreeEntry) : Bytes :=
  leBytes 1 e.kind ++ leBytes 1 e.ctx ++ leBytes 2 e.rowmask.toNat ++ leBytes 4 e.layer ++ leBytes 2 e.swath ++
    leBytes 2 e.firstCol ++ leBytes 2 e.lastCol ++ leBytes 2 e.source ++ leBytes 4 (uNat 32 e.firstLine) ++
    leBytes 4 (uNat 32 e.lastLine) ++ leBytes 4 e.count ++ leBytes 4 e.seq

/-- R20: SOURCE is CPOS and the twin slot. -/
def screeSource (s : State) : Nat := s.pins.cpos % 8 + (if s.pins.tws then 8 else 0)

/-- R23: the ring of 4,096 entries in SEQ. -/
def screeRing (seq : Nat) : Nat := Config.seqPool + 0x5000 + 32 * (seq % 4096)

/-- The number of entries the spill area of MEMPLAN holds: each takes two lines' worth of 32 bytes (log entry 12). -/
def spillSlots (s : State) : Nat := s.boot.plan.spillLen / 64

/-- R379: the two copies of an entry in the spill area, 256 bytes apart and so on different DRAM channels. -/
def spillAt (s : State) (seq : Nat) : Nat :=
  let k := seq % (max 1 s.spillSlots)
  s.boot.plan.spillBase + 512 * (k / 8) + 32 * (k % 8)

/-- R23: the links that export an entry: the context's own, or for CONTEXT 0 every link with an open stream. -/
def screeLinks (s : State) (c : Nat) : List Nat :=
  if c = 0 then
    (List.range 4).filter (fun l => (List.range 64).any (fun x =>
      (s.stream x).opened && decide ((s.stream x).desc.map StreamDesc.link = some l)))
  else (s.streamLink c).toList

/-- R23, R24: exports one entry on a link; on one that is not ACTIVE it goes out at the entry to ACTIVE (R443). -/
def exportOn (s : State) (l : Nat) (e : ScreeEntry) : State :=
  if s.owns && s.linkActive (.job l) then s.queueAny l (4 :: screeBytes e) else s

/-- R25: the fill of the spill area against its limits. -/
def screeFill (s : State) : State :=
  let n := s.scree.slots.length
  let cap := s.spillSlots
  if !s.scree.held && 7 * cap < 8 * n then
    { s with scree := { s.scree with held := true } }.raise Src.FCO_SCREE_SPILL
  else if s.scree.held && 4 * n ≤ 3 * cap then { s with scree := { s.scree with held := false } }
  else s

/-- R20, R23, R24: an entry is written with the given SEQ, to the ring and twice to the spill area, mirrored and
exported. -/
def screePut (s : State) (e : ScreeEntry) : State :=
  let links := s.screeLinks e.ctx
  let bs := screeBytes e
  let s := { s with scree := { s.scree with
      nextSeq := (e.seq + 1) % 2 ^ 32, written := true,
      slots := s.scree.slots ++ [ScreeSlot.mk e links []] } }
  let s := (s.wr (screeRing e.seq) bs)
  let s := if s.spillSlots = 0 then s else (s.wr (s.spillAt e.seq) bs).wr (s.spillAt e.seq + 256) bs
  let s := ((s.obsCount 2).obsCount (if e.kind = 0x20 then 32 else 32 + e.kind)).trace 2 bs
  let s := s.mirror 6 bs
  let s := links.foldl (fun s l => s.exportOn l e) s
  -- R22: entries of the layer in progress that carry a context's number count against its quota
  let s := if e.ctx != 0 && e.kind != 0x13 && some e.layer = s.mot.lastLayer
    then s.updCtx e.ctx (fun k => { k with qused := k.qused + 1 }) else s
  s.screeFill

/-- The next entry of this module; SOURCE and SEQ are filled in.  An entry that withholds no code but 0 withholds
nothing (R44) and is not written; a standby writes the entries mirrored to it (R295). -/
def screeWrite (s : State) (e : ScreeEntry) : State :=
  if e.count = 0 || s.follows then s else s.screePut { e with source := s.screeSource, seq := s.scree.nextSeq }

/-- R67: whether `a` is at or before `b` in modulo-2³² order. -/
def seqUpTo (a b : Nat) : Bool := (b + 2 ^ 32 - a) % 2 ^ 32 < 2 ^ 31

/-- R67, R23, R24: an acknowledgement on a link; entries that every link they were exported on has acknowledged are
freed.  The acknowledgement that reaches a standby shows that the active module has exported what had no link yet. -/
def screeAck (s : State) (l upTo : Nat) : State :=
  let known := fun (k : ScreeSlot) => if s.follows && k.sentOn.isEmpty then { k with sentOn := s.screeLinks k.entry.ctx } else k
  let mark := fun (k : ScreeSlot) =>
    if k.sentOn.contains l && seqUpTo k.entry.seq upTo && !k.ackedOn.contains l then { k with ackedOn := l :: k.ackedOn } else k
  let done := fun (k : ScreeSlot) => !k.sentOn.isEmpty && k.sentOn.all (fun l => k.ackedOn.contains l)
  ({ s with scree := { s.scree with slots := (s.scree.slots.map (fun k => mark (known k))).filter (fun k => !done k) } }).screeFill

/-- R379: the entry as it is found for an export.  While the ring holds it, it is taken from there; otherwise from the
first copy of the spill area, or from the second, and with both uncorrectable SCREE_LOST is raised and it is neither
exported nor freed. -/
def screeFetch (s : State) (e : ScreeEntry) : State × Bool :=
  if (s.scree.nextSeq + 2 ^ 32 - e.seq) % 2 ^ 32 ≤ 4096 then (s, true)
  else
    match s.readMem .dma 0 (s.spillAt e.seq) 32 with
    | (s, .ok _) => (s, true)
    | (s, _) =>
      match s.readMem .dma 0 (s.spillAt e.seq + 256) 32 with
      | (s, .ok _) => (s, true)
      | (s, _) => ((s.event Reg.MEM_EVENT 7).raise Src.MEM_SCREE_LOST, false)

/-- An entry of the log goes out on a link. -/
def exportSlot (s : State) (l : Nat) (k : ScreeSlot) : State :=
  let s := { s with scree := { s.scree with slots := s.scree.slots.map (fun (q : ScreeSlot) =>
    if q.entry.seq = k.entry.seq && !q.sentOn.contains l then { q with sentOn := l :: q.sentOn } else q) } }
  match s.screeFetch k.entry with
  | (s, true) => s.exportOn l k.entry
  | (s, false) => s

/-- R304, R443: exports again on a link every entry not yet acknowledged there; an entry with CONTEXT 0 that no link has
exported yet goes out as well. -/
def reexport (s : State) (l : Nat) : State :=
  s.scree.slots.foldl (fun s k =>
    if (k.sentOn.contains l || (k.sentOn.isEmpty && (s.screeLinks k.entry.ctx).contains l)) && !k.ackedOn.contains l then
      s.exportSlot l k
    else s) s

/-- R23: a stream has opened on link `l`: the entries that no link has exported yet go out there. -/
def exportNew (s : State) (l : Nat) : State :=
  s.scree.slots.foldl (fun s k =>
    if k.sentOn.isEmpty && (s.screeLinks k.entry.ctx).contains l then s.exportSlot l k else s) s

end State

end Sys2Proof.Machine
end

