-- ==== Sys2Proof/Machine/Dose.lean ====
section
/-! DEFINITION. The firing grid, build order, the mode settings in force at a line, and the tables they select
(chapter 02). -/

namespace Sys2Proof.Machine

/-! ## Lines of a swath (R33, R40, R258) -/

/-- Lines of the plan's range. -/
def planLen (p : SwathPlan) : Nat := (p.lineLast - p.lineFirst + 1).toNat

/-- The `k`-th line in firing order. -/
def planLine (p : SwathPlan) (k : Nat) : Int := if p.dir = 0 then p.lineFirst + k else p.lineLast - k

/-- The place of a line in firing order. -/
def planIndex (p : SwathPlan) (n : Int) : Int := if p.dir = 0 then n - p.lineFirst else p.lineLast - n

/-- The first line in firing order. -/
def planFirst (p : SwathPlan) : Int := planLine p 0

def planHas (p : SwathPlan) (n : Int) : Bool := decide (p.lineFirst ≤ n) && decide (n ≤ p.lineLast)

/-- R40: line `n` comes at or after line `m` in a swath of direction `dir`. -/
def atOrAfter (dir : Nat) (n m : Int) : Bool := if dir = 0 then decide (m ≤ n) else decide (n ≤ m)

/-- R40: the order of swaths. -/
def swathBefore (l1 s1 l2 s2 : Nat) : Bool := l1 < l2 || (l1 = l2 && s1 < s2)

/-- Where a line lies: its swath's layer, number and direction, and the line. -/
structure At where
  layer : Nat
  swath : Nat
  dir : Nat
  line : Int
  deriving DecidableEq, Repr

def planAt (p : SwathPlan) (n : Int) : At := { layer := p.layer, swath := p.swath, dir := p.dir, line := n }

namespace State

/-- R33: the grid point of a line, in 2⁻⁸ counts. -/
def gridPoint (s : State) (n : Int) : Int := (s.dose.grid.origin + n * s.dose.grid.pitch) / 256

def rowline (s : State) (r : Nat) : Int := nth s.dose.grid.rowline r 0

/-- R174: the largest ROWLINE minus the smallest. -/
def rowspan (s : State) : Int :=
  let l := s.dose.grid.rowline
  l.foldl max (nth l 0 0) - l.foldl min (nth l 0 0)

/-! ## Plans and the first untransmitted line (R100, R155, R176) -/

/-- The swaths whose lines have ordinals: the current one and the queue, in build order. -/
def planned (s : State) : List Swath := s.mot.current.toList ++ s.mot.queue

/-- The plan of a swath that is current, queued or the last complete one. -/
def planOf (s : State) (layer swath : Nat) : Option SwathPlan :=
  ((s.planned.map Swath.plan) ++ s.crn.lastPlan.toList).find? (fun p => p.layer = layer && p.swath = swath)

/-- The swath that holds an ordinal. -/
def swathAt (s : State) (q : Nat) : Option Swath :=
  s.planned.find? (fun w => decide (w.firstOrd ≤ q) && decide (q < w.firstOrd + planLen w.plan))

/-- A line of the state window. -/
def cline (s : State) (q : Nat) : Option CLine := s.crn.window.find? (fun l => l.ord = q)

def updLine (s : State) (q : Nat) (f : CLine → CLine) : State :=
  { s with crn := { s.crn with window := s.crn.window.map (fun l => if l.ord = q then f l else l) } }

/-- The first ordinal past the window. -/
def windowEnd (s : State) : Nat := s.crn.freed + s.crn.window.length

/-- Ordinal of the first untransmitted line (R176); past every ordinal given when there is none. -/
def firstUntx (s : State) : Nat :=
  match s.crn.window.find? (fun l => !l.taken && !l.dropped) with
  | some l => l.ord
  | none => s.windowEnd

/-- R176: U: its swath, and its line; no line when every line of every planned swath has been transmitted. -/
def firstUntxAt (s : State) : Option (SwathPlan × Option Int) :=
  match s.swathAt s.firstUntx with
  | some w => some (w.plan, some (planLine w.plan (s.firstUntx - w.firstOrd)))
  | none =>
    match s.planned.getLast? with
    | some w => some (w.plan, none)
    | none => s.crn.lastPlan.map (fun p => (p, none))

/-- The position just past what has been taken, for the settings in force at U (R176); before the first swath, that before
every line. -/
def atU (s : State) : At :=
  match s.firstUntxAt with
  | some (p, some n) => planAt p n
  | some (p, none) => planAt p (planLine p (planLen p))
  | none => { layer := 0, swath := 0, dir := 0, line := -2147483648 }

/-! ## Mode settings (R41, R42) -/

/-- Where a change applies from. -/
def ModeChange.ap (m : ModeChange) : BuildPos := m.moved.getD m.at_

/-- R41: whether the change governs a line. -/
def governs (m : ModeChange) (a : At) : Bool :=
  let p := ModeChange.ap m
  swathBefore p.layer p.swath a.layer a.swath ||
    (p.layer = a.layer && p.swath = a.swath && atOrAfter a.dir a.line p.line)

/-- R42: the value of a setting at a line: that of the latest change in stream order that governs the line. -/
def modeAt {α : Type} (s : State) (pick : ModeSetting → Option α) (a : At) (start : α) : α :=
  s.dose.changes.foldl (fun v m => if governs m a then (pick m.setting).getD v else v) start

def bankAt (s : State) (g : Nat) (a : At) : Nat :=
  s.modeAt (fun m => match m with
    | .bankSel h b => if h = g then some b else none
    | _ => none) a (nth s.dose.bankSel0 g 0)

def rowmapAt (s : State) (a : At) : BitVec 64 :=
  s.modeAt (fun m => match m with
    | .rowMap v => some v
    | _ => none) a s.dose.rowmap0

/-- The mask and PASS_COUNT of a group. -/
def maskAt (s : State) (g : Nat) (a : At) : Nat × Nat :=
  s.modeAt (fun m => match m with
    | .maskSel h k n => if h = g then some (k, n) else none
    | _ => none) a (nth s.dose.mask0 g (0, 1))

def halftoneAt (s : State) (g : Nat) (a : At) : Halftone :=
  s.modeAt (fun m => match m with
    | .halftone h d n e pa pb =>
      if h = g then some { dither := d, gain := n, eshift := e, phaseA := pa, phaseB := pb } else none
    | _ => none) a (nth s.dose.half0 g Halftone.start)

/-- The curve and material that a change gives a context's binding. -/
def pickBinding (x id : Nat) (m : ModeSetting) : Option (Nat × Nat) :=
  match m with
  | .binding y i cv mt => if y = x && i = id then some (cv, mt) else none
  | _ => none

/-- R86: curve and material of a context's binding: its first BINDING applies to every line, and a later one from its
activation point on. -/
def bindingAt (s : State) (x id : Nat) (a : At) : Option (Nat × Nat) :=
  ((s.stream x).bindings.find? (fun b => b.id = id)).map (fun b =>
    s.dose.changes.foldl (fun v m =>
      if b.order ≤ m.order && governs m a then (pickBinding x id m.setting).getD v else v) (b.curve, b.material))

/-- R35: the group of a row under a row map. -/
def groupIn (map : BitVec 64) (r : Nat) : Nat := fld map (4 * r) 3

def groupAt (s : State) (r : Nat) (a : At) : Nat := groupIn (s.rowmapAt a) r

def rowsOf (map : BitVec 64) (g : Nat) : List Nat := (List.range 16).filter (fun r => groupIn map r = g)

def rowGroup (s : State) (g : Nat) : RowGroup := nth s.dose.groups g RowGroup.reset

/-- A bank of a group. -/
def bank (s : State) (g b : Nat) : DoseBank := nth s.dose.banks (4 * g + b) DoseBank.empty

/-- The bank in force for a group at a line. -/
def bankInForce (s : State) (g : Nat) (a : At) : DoseBank := s.bank g (s.bankAt g a)

/-- R134: V₀ = 0, V_m = NOMINAL of class m. -/
def DoseBank.level (b : DoseBank) (m : Nat) : Nat := if m = 0 then 0 else (nth b.entries (m - 1) (0, 0)).2

/-- R56: the pass of a position of group `g` at module column `c`. -/
def passAt (s : State) (g : Nat) (indexOffset : Int) (c : Nat) (a : At) : Nat :=
  let m := (s.maskAt g a).1
  let row := (a.line % 16).toNat
  let col := (((c : Int) + indexOffset / 256) % 16).toNat
  if m = 0 then 0 else nth (nth s.dose.masks m []) (16 * row + col) 0

/-! ## When a setting is reached (R41, R176, R177) -/

/-- Where a change's first governed line lies against U: `none` when its swath is not yet planned; otherwise whether it
lies before U, and its ordinal when it lies at or after U in a planned swath. -/
def settingPlace (s : State) (p : BuildPos) : Option (Bool × Option Nat) :=
  match s.firstUntxAt with
  | none => none
  | some (u, ul) =>
    -- the planned swath that follows the place, for a line after its swath's last
    let nextOf := s.planned.find? (fun w => swathBefore p.layer p.swath w.plan.layer w.plan.swath)
    let fromSwath := fun (w : Option Swath) =>
      match w with
      | none => none
      | some w => some (decide (w.firstOrd < s.firstUntx), some w.firstOrd)
    match s.planned.find? (fun w => w.plan.layer = p.layer && w.plan.swath = p.swath) with
    | some w =>
      let k := planIndex w.plan p.line
      if (planLen w.plan : Int) ≤ k then fromSwath nextOf
      else
        let q := w.firstOrd + k.toNat
        some (decide (q < s.firstUntx), some q)
    | none =>
      if swathBefore u.layer u.swath p.layer p.swath then
        -- beyond U's swath: a later planned swath means that its own was lost (R41)
        fromSwath nextOf
      else if u.layer = p.layer && u.swath = p.swath && ul.isNone then
        if (planLen u : Int) ≤ planIndex u p.line then none else some (true, none)
      else
        match s.crn.lastPlan with
        | some l =>
          if l.layer = p.layer && l.swath = p.swath && (planLen l : Int) ≤ planIndex l p.line then fromSwath nextOf
          else if swathBefore l.layer l.swath p.layer p.swath then fromSwath nextOf
          else some (true, none)
        -- no swath has ended: every swath before the planned ones was lost (R41)
        | none => fromSwath nextOf

/-- R176: the setting has been reached. -/
def reached (s : State) (p : BuildPos) : Bool :=
  match s.settingPlace p with
  | some (b, _) => b
  | none => false

/-! ## Actuators (R184) -/

/-- R35: the index of an actuator; its entry lies in the ACT pool. -/
def actAddr (idx : Nat) : Nat := Config.actPool + 16 * idx

/-- R184: bytes 0 to 3 of an entry. -/
structure RenderWord where
  hide : Nat
  partner : Nat
  shareL : Nat
  shareR : Nat
  dgain : Int
  deriving DecidableEq, Repr

def renderWordOf (v : Nat) : RenderWord :=
  { hide := v % 4, partner := v / 16 % 16, shareL := v / 256 % 32, shareR := v / 65536 % 32, dgain := sInt 8 (v / 2 ^ 24) }

def renderWord (s : State) (idx : Nat) : RenderWord := renderWordOf (s.rdLE (actAddr idx) 4)

/-- Whether a byte of the render word reads uncorrectable. -/
def renderWordBad (s : State) (idx : Nat) : Bool := (List.range 4).any (fun i => s.badAt (actAddr idx + i))

end State

end Sys2Proof.Machine
end

