-- ==== Sys2Proof/Machine/Records.lean ====
section
/-! DEFINITION. The records of an inflated segment body and their format checks (R77 to R90, R103), and the directory
entry of R142. -/

namespace Sys2Proof.Machine

/-! ## Geometry records (R79, R82, R84) -/

/-- Points of 8 bytes, X then Y; also the bytes that follow them. -/
def takePoints : Nat → Bytes → Option (List (Int × Int) × Bytes)
  | 0, bs => some ([], bs)
  | n + 1, bs =>
    if bs.length < 8 then none
    else
      match takePoints n (bs.drop 8) with
      | none => none
      | some (ps, rest) => some ((fieldLEs bs 0 4, fieldLEs bs 4 4) :: ps, rest)

/-- R79: loops of a contour record. -/
def takeLoops : Nat → Bytes → Option (List (List (Int × Int)) × Bytes)
  | 0, bs => some ([], bs)
  | n + 1, bs =>
    let npts := fieldLE bs 0 4
    if bs.length < 8 || npts < 3 || 1048576 < npts || fieldLE bs 4 4 != 0 || bs.length < 8 + 8 * npts then none
    else
      match takePoints npts (bs.drop 8) with
      | none => none
      | some (ps, rest) =>
        match takeLoops n rest with
        | none => none
        | some (ls, rest) => some (ps :: ls, rest)

/-- R79, R81: a CONTOUR record. -/
def parseContour (bs : Bytes) : Option Geo :=
  let fill := fieldLE bs 8 1
  let role := fieldLE bs 9 1
  let bind := fieldLE bs 10 1
  let group := fieldLE bs 11 1
  let loops := fieldLE bs 12 4
  if bs.length < 16 || 1 < fill || 1 < role || loops = 0 || 65535 < loops || (role = 0 && group != 0) ||
      (role = 1 && (group = 0 || bind != 0)) then none
  else
    match takeLoops loops (bs.drop 16) with
    | some (ls, []) => some (.contour (fill = 1) (role = 1) bind group ls)
    | _ => none

/-- The knots of a lattice: layers strictly rising. -/
def takeKnots : Nat → Option Nat → Bytes → Option (List (Nat × Nat))
  | 0, _, _ => some []
  | n + 1, last, bs =>
    let l := fieldLE bs 0 4
    let t := fieldLE bs 4 2
    if 2 ^ 24 ≤ l || 4095 < t || fieldLE bs 6 2 != 0 || (match last with
        | none => false
        | some p => decide (l ≤ p)) then none
    else (takeKnots n (some l) (bs.drop 8)).map (fun ks => (l, t) :: ks)

/-- R82: a LATTICE record. -/
def parseLattice (bs : Bytes) : Option Geo :=
  let f := fieldLE bs 8 1
  let nk := fieldLE bs 11 1
  let cx := fieldLE bs 12 4
  let cy := fieldLE bs 16 4
  let cz := fieldLE bs 20 4
  let x0 := fieldLEs bs 32 4
  let x1 := fieldLEs bs 36 4
  let y0 := fieldLEs bs 40 4
  let y1 := fieldLEs bs 44 4
  if f = 0 || 4 < f || fieldLE bs 10 1 = 0 || nk = 0 || 8 < nk || bs.length != 48 + 8 * nk || cx < 0x400 || 0xFFFFFF < cx ||
      cy < 0x400 || 0xFFFFFF < cy || cz < 0x100 || 0xFFFFFF < cz || decide (x1 ≤ x0) || decide (y1 ≤ y0) then none
  else (takeKnots nk none (bs.drop 48)).map (fun ks =>
    .lattice f (fieldLE bs 9 1) (fieldLE bs 10 1) cx cy cz (fieldLE bs 24 2) (fieldLE bs 26 2) (fieldLE bs 28 2)
      (fieldLE bs 30 2) x0 x1 y0 y1 ks)

/-- Values of two bytes. -/
def takeHalves : Nat → Bytes → List Nat
  | 0, _ => []
  | n + 1, bs => fieldLE bs 0 2 :: takeHalves n (bs.drop 2)

/-- R84: a GREY record. -/
def parseGrey (bs : Bytes) : Option Geo :=
  let w := fieldLE bs 20 2
  let h := fieldLE bs 22 2
  let sx := fieldLE bs 24 4
  let sy := fieldLE bs 28 4
  let samples := takeHalves (w * h) (bs.drop 32)
  if fieldLE bs 10 2 != 0 || w = 0 || 4096 < w || h = 0 || 4096 < h || sx < 0x40 || 0x100000 < sx || sy < 0x40 ||
      0x100000 < sy || bs.length != 32 + (2 * w * h + 7) / 8 * 8 || samples.any (fun v => decide (4096 < v)) ||
      (bs.drop (32 + 2 * w * h)).any (· != 0) then none
  else some (.grey (fieldLE bs 8 1) (fieldLE bs 9 1) (fieldLEs bs 12 4) (fieldLEs bs 16 4) w h sx sy samples)

/-- A geometry record of the type. -/
def parseGeo (typ : Nat) (bs : Bytes) : Option Geo :=
  if typ = 1 then parseContour bs else if typ = 2 then parseLattice bs else if typ = 3 then parseGrey bs else none

/-- The binding that a record names; a CLIP contour names none (R81). -/
def Geo.bind : Geo → Option Nat
  | .contour _ false b _ _ => some b
  | .contour _ true _ _ _ => none
  | .lattice _ b _ _ _ _ _ _ _ _ _ _ _ _ _ => some b
  | .grey b _ _ _ _ _ _ _ _ => some b

/-- The clip group and the role of a record, as R142 lists them. -/
def Geo.clipRole : Geo → Nat × Nat
  | .contour _ c _ g _ => (g, if c then 1 else 0)
  | .lattice _ _ g _ _ _ _ _ _ _ _ _ _ _ _ => (g, 0)
  | .grey _ g _ _ _ _ _ _ _ => (g, 0)

/-- A coordinate as far as the signed 32-bit fields of a box reach. -/
def clampBox (x : Int) : Int := max (-2147483648) (min 2147483647 x)

/-- R142: the smallest box that holds the record's points, its clip box or its tile: XMIN, XMAX, YMIN, YMAX.  XMAX and
YMAX of a clip box and of a tile are set to their exclusive ends (DESIGN CHOICE, log entry 145); an end past the field's
range stands at its limit (log entry 145). -/
def Geo.box : Geo → Int × Int × Int × Int
  | .contour _ _ _ _ loops =>
    let ps := loops.flatten
    let xs := ps.map Prod.fst
    let ys := ps.map Prod.snd
    (xs.foldl min (nth xs 0 0), xs.foldl max (nth xs 0 0), ys.foldl min (nth ys 0 0), ys.foldl max (nth ys 0 0))
  | .lattice _ _ _ _ _ _ _ _ _ _ x0 x1 y0 y1 _ => (x0, x1, y0, y1)
  | .grey _ _ x0 y0 w h sx sy _ => 
    (x0, clampBox (x0 + (w * sx : Nat)), y0, clampBox (y0 + (h * sy : Nat)))

/-- R142: a directory entry. -/
def dirEntry (off typ : Nat) (g : Geo) (bodyVa : Nat) : Bytes :=
  let b := Geo.box g
  let c := Geo.clipRole g
  leBytes 4 off ++ leBytes 1 typ ++ leBytes 1 ((Geo.bind g).getD 0) ++ leBytes 1 c.1 ++ leBytes 1 c.2 ++
    leBytes 4 (uNat 32 b.1) ++ leBytes 4 (uNat 32 b.2.1) ++ leBytes 4 (uNat 32 b.2.2.1) ++ leBytes 4 (uNat 32 b.2.2.2) ++
    leBytes 8 bodyVa

/-! ## Records of a body (R77, R78, R86, R88, R90, R103) -/

/-- R103: the length of a directive record, for the types of R77. -/
def directiveLen (typ : Nat) : Option Nat :=
  if typ = 0x40 || typ = 0x43 || typ = 0x44 || typ = 0x45 then some 16
  else if typ = 0x41 then some 24
  else if typ = 0x42 || typ = 0x4C then some 32
  else if typ = 0x48 || typ = 0x49 then some 80
  else if typ = 0x4A then some 144
  else if typ = 0x4B then some 152
  else if typ = 0x4D then some 40
  else none

/-- What a parsed record is. -/
inductive Parsed where
  | geo (typ : Nat) (g : Geo)
  | item (r : JRec)
  deriving DecidableEq, Repr

/-- What the parser carries through a stream: binding IDs seen, the last CAIRN_ID, layers closed by a GEOM_END. -/
structure ParseState where
  bound : List Nat
  cairn : Nat
  closed : List Nat
  deriving DecidableEq, Repr

/-- R78: one record, `bs` its LENGTH bytes, of a segment for `layer`. -/
def parseRec (layer : Nat) (p : ParseState) (bs : Bytes) : Option (Parsed × ParseState) :=
  let typ := fieldLE bs 0 1
  if typ = 0 then some (.item .nop, p)
  else if typ ≤ 3 then
    if p.closed.contains layer then none
    else
      match parseGeo typ bs with
      | none => none
      | some g =>
        match Geo.bind g with
        | some b => if p.bound.contains b then some (.geo typ g, p) else none
        | none => some (.geo typ g, p)
  else if typ = 4 then
    let curve := fieldLE bs 9 1
    let mat := fieldLE bs 10 2
    let apl := fieldLE bs 12 4
    if bs.length != 24 || curve = 0 || mat = 0 || 2 ^ 24 ≤ apl || fieldLE bs 18 2 != 0 then none
    else
      let id := fieldLE bs 8 1
      some (.item (.binding id curve mat { layer := apl, swath := fieldLE bs 16 2, line := fieldLEs bs 20 4 }),
        { p with bound := if p.bound.contains id then p.bound else id :: p.bound })
  else if typ = 5 then
    if bs.length != 16 || fieldLE bs 8 4 != layer || fieldLE bs 12 4 != 0 || p.closed.contains layer then none
    else some (.item (.geomEnd layer), { p with closed := layer :: p.closed })
  else if typ = 6 then
    let id := fieldLE bs 8 4
    if bs.length != 16 || id ≤ p.cairn || 1 < fieldLE bs 12 4 then none
    else some (.item (.cairn id (fieldLE bs 12 4 = 1)), { p with cairn := id })
  else
    match directiveLen typ with
    | none => none
    | some n => if bs.length != n then none else some (.item (.directive typ bs), p)

/-- R77: every record of a body with its byte offset; `fuel` bounds their number. -/
def parseBody (layer : Nat) : Nat → ParseState → Nat → Bytes → Option (List (Nat × Parsed) × ParseState)
  | _, p, _, [] => some ([], p)
  | 0, _, _, _ => none
  | fuel + 1, p, off, bs =>
    let n := fieldLE bs 4 4
    if bs.length < 8 || fieldLE bs 1 3 != 0 || n < 8 || n % 8 != 0 || bs.length < n then none
    else
      match parseRec layer p (bs.take n) with
      | none => none
      | some (r, p) =>
        match parseBody layer fuel p (off + n) (bs.drop n) with
        | none => none
        | some (rs, p) => some ((off, r) :: rs, p)

end Sys2Proof.Machine
end

