-- ==== Sys2Proof/Machine/Render.lean ====
section
/-! DEFINITION. The arithmetic of a ridge (R110 to R136): sub-samples, the inside test, lattice fields, fill fraction,
compositing, dose curve, hiding, halftone and the slice. -/

namespace Sys2Proof.Machine

/-! ## Sub-samples and records (R113 to R120) -/

/-- R114: what the edges of a closed loop contribute to the winding number at a point. -/
def windEdges (x y : Int) : List ((Int × Int) × (Int × Int)) → Int
  | [] => 0
  | ((x0, y0), (x1, y1)) :: es =>
    let d := (x - x0) * (y1 - y0) - (x1 - x0) * (y - y0)
    let w : Int := if y0 ≤ y && y < y1 && d < 0 then 1 else if y1 ≤ y && y < y0 && 0 < d then -1 else 0
    w + windEdges x y es

/-- R79: a loop closes from its last point to its first. -/
def loopEdges (l : List (Int × Int)) : List ((Int × Int) × (Int × Int)) := l.zip (l.drop 1 ++ l.take 1)

/-- R80, R114: the winding number over every loop of a record. -/
def winding (loops : List (List (Int × Int))) (x y : Int) : Int :=
  (loops.map (fun l => windEdges x y (loopEdges l))).sum

/-- R80: the fill rule. -/
def insideLoops (nonzero : Bool) (loops : List (List (Int × Int))) (x y : Int) : Bool :=
  let w := winding loops x y
  if nonzero then w != 0 else w % 2 != 0

/-- R115: inside at least one CLIP contour of the group, of the same context and layer. -/
def insideClip (recs : List CacheRec) (c g : Nat) (x y : Int) : Bool :=
  recs.any (fun r => r.ctx = c && match r.geo with
    | .contour nz true _ h loops => decide (h = g) && insideLoops nz loops x y
    | _ => false)

/-- R83: the threshold of a lattice at a layer. -/
def latticeThreshold : List (Nat × Nat) → Nat → Int
  | [], _ => 0
  | [(_, t)], _ => t
  | (l0, t0) :: (l1, t1) :: ks, layer =>
    if layer ≤ l0 then t0
    else if layer < l1 then t0 + Int.tdiv (((t1 : Int) - t0) * (layer - l0 : Nat)) ((l1 - l0 : Nat) : Int)
    else latticeThreshold ((l1, t1) :: ks) layer

/-- R119: a triple product. -/
def mul3 (a b c : Int) : Int := a * b / 32768 * c

/-- R119: the normalised distance of the field. -/
def fieldDistance (field : Nat) (sx cx sy cy sz cz : Int) : Int :=
  let d := match field with
    | 1 => ((sx * cy + sy * cz + sz * cx).natAbs : Int) * 4096 / 1610514433
    | 2 => (3221028867 - (cx + cy + cz) * 32767) * 4096 / 6442057734
    | 3 => ((mul3 sx sy sz + mul3 sx cy cz + mul3 cx sy cz + mul3 cx cy sz).natAbs : Int) * 4096 / 1518407569
    | _ => (3221028867 - (cx * cy + cy * cz + cz * cx)) * 4096 / 4294705156
  min d 4096

/-- R118: a phase from a coordinate. -/
def cellPhase (u : Int) (cell ph : Nat) : Nat := uNat 16 (65536 * u / (cell : Int) + (ph : Int))

/-- R118 to R120: inside the field. -/
def insideField (field cellX cellY cellZ angle phX phY phZ : Nat) (knots : List (Nat × Nat)) (layer : Nat)
    (x y : Int) : Bool :=
  let co := cosPhase angle
  let si := sinPhase angle
  let u := if angle = 0 then x else (x * co - y * si) / 32768
  let v := if angle = 0 then y else (x * si + y * co) / 32768
  let z : Int := 256 * layer + 128
  let pX := cellPhase u cellX phX
  let pY := cellPhase v cellY phY
  let pZ := cellPhase z cellZ phZ
  decide (fieldDistance field (sinPhase pX) (cosPhase pX) (sinPhase pY) (cosPhase pY) (sinPhase pZ) (cosPhase pZ)
    ≤ latticeThreshold knots layer)

/-- R116: S of a record at a sub-sample. -/
def sampleValue (recs : List CacheRec) (layer : Nat) (r : CacheRec) (x y : Int) : Nat :=
  if !(decide (r.xmin ≤ x) && decide (x ≤ r.xmax) && decide (r.ymin ≤ y) && decide (y ≤ r.ymax)) then 0
  else
    match r.geo with
    | .contour nz false _ _ loops => if insideLoops nz loops x y then 4096 else 0
    | .contour _ true _ _ _ => 0
    | .lattice field _ g cellX cellY cellZ angle phX phY phZ bx0 bx1 by0 by1 knots =>
      if decide (bx0 ≤ x) && decide (x < bx1) && decide (by0 ≤ y) && decide (y < by1) && insideClip recs r.ctx g x y &&
          insideField field cellX cellY cellZ angle phX phY phZ knots layer x y then 4096 else 0
    | .grey _ g x0 y0 width height stepX stepY samples =>
      let i := (x - x0) / (stepX : Int)
      let j := (y - y0) / (stepY : Int)
      if decide (0 ≤ i) && decide (i < width) && decide (0 ≤ j) && decide (j < height) &&
          (g = 0 || insideClip recs r.ctx g x y) then
        nth samples (j.toNat * width + i.toNat) 0
      else 0

/-- The binding of a record that renders. -/
def CacheRec.binding (r : CacheRec) : Option Nat := Geo.bind r.geo

/-! ## Fill fraction and compositing (R121 to R124) -/

/-- Whether a sub-sample lies in a region (R121 step 3). -/
def inRegion (g : Region) (layer : Nat) (x y : Int) : Bool :=
  decide (256 * g.col0 ≤ x) && decide (x < 256 * (g.col1 + 1)) && decide (256 * g.line0 ≤ y) &&
    decide (y < 256 * (g.line1 + 1)) && decide (g.layer0 ≤ layer) && decide (layer ≤ g.layer1)

/-- The four sub-sample coordinates of a position along an axis that starts at `base` (R113). -/
def subSamples (base : Int) : List Int := [base + 32, base + 96, base + 160, base + 224]

/-- What a position renders to before hiding: nothing, a target dose, or a void with its kind and context and with the
dose when the kind leaves it defined (R123, R131). -/
inductive Target where
  | empty
  | dose (d ctx : Nat)
  | void (kind ctx : Nat) (d : Option Nat)
  deriving DecidableEq, Repr

/-- R124. -/
def curveDose (knots : List Nat) (f : Nat) : Nat :=
  if f = 4096 then nth knots 64 0
  else
    let k0 : Int := ((nth knots (f / 64) 0 : Nat) : Int)
    let k1 : Int := ((nth knots (f / 64 + 1) 0 : Nat) : Int)
    (k0 + (k1 - k0) * (f % 64 : Nat) / 64).toNat

namespace State

def curve (s : State) (id : Nat) : Option DoseCurve := s.dose.curves.find? (fun c => c.id = id)

/-- R121, R122: fill fraction and curve of a context at a position. -/
def ctxFill (s : State) (p : SwathPlan) (recs : List CacheRec) (x c r : Nat) (n : Int) : Nat × Option Nat :=
  let a := planAt p n
  let material := (s.rowGroup (s.groupAt r a)).material
  let region := (s.stream x).region
  let mine := recs.filter (fun q => q.ctx = x && match CacheRec.binding q with
    | some b => ((s.bindingAt x b a).map Prod.snd) = some material
    | none => false)
  let xs := subSamples (p.indexOffset + 256 * (c : Int))
  let ys := subSamples (256 * (n + s.rowline r))
  let pts := (ys.flatMap (fun y => xs.map (fun x => (x, y)))).filter (fun q => inRegion region p.layer q.1 q.2)
  let vals := mine.map (fun q => (q, pts.map (fun z => sampleValue recs p.layer q z.1 z.2)))
  let top := (List.range pts.length).map (fun i => (vals.map (fun v => nth v.2 i 0)).foldl max 0)
  let hit := (vals.filter (fun v => v.2.any (· != 0))).filterMap (fun v => CacheRec.binding v.1)
  let low := hit.foldl (fun (b : Option Nat) i => match b with
    | none => some i
    | some j => some (min i j)) none
  (top.sum / 16, low.bind (fun b => (s.bindingAt x b a).map Prod.fst))

/-- Whether a region covers a position, at any sub-sample. -/
def regionCoversPos (s : State) (p : SwathPlan) (g : Region) (c r : Nat) (n : Int) : Bool :=
  (subSamples (256 * (n + s.rowline r))).any (fun y =>
    (subSamples (p.indexOffset + 256 * (c : Int))).any (fun x => inRegion g p.layer x y))

/-- The contexts with records in a cache. -/
def cacheCtxs (recs : List CacheRec) : List Nat := (List.range 64).filter (fun x => recs.any (fun q => q.ctx = x))

/-- R22: a context whose positions are withheld by its quota at a line. -/
def quotaHeld (s : State) (p : SwathPlan) (n : Int) (x : Nat) : Bool :=
  s.scree.holds.any (fun h => h.ctx = x && h.layer = p.layer && h.swath = p.swath && atOrAfter p.dir n h.first &&
    atOrAfter p.dir h.last n)

/-- The range voids of a ridge that reach a position (R140, R148, R149): kind and context, the lowest kind. -/
def rangeVoid (s : State) (p : SwathPlan) (voids : List VoidRange) (swOrd q c r : Nat) (n : Int) : Option (Nat × Nat) :=
  (voids.filter (fun v => v.swOrd = swOrd && v.fromOrd ≤ q && match v.act with
      | some i => decide (i = 65536 * r + c)
      | none => s.regionCoversPos p (s.stream v.ctx).region c r n)).foldl
    (fun (b : Option (Nat × Nat)) v => match b with
      | none => some (v.kind, v.ctx)
      | some k => if v.kind < k.1 then some (v.kind, v.ctx) else b) none

/-- R123, R124, R22, R131, R140, R148, R149: the target of a position. -/
def target (s : State) (p : SwathPlan) (recs : List CacheRec) (voids : List VoidRange) (swOrd q c r : Nat) (n : Int) : Target :=
  let a := planAt p n
  let fills := ((cacheCtxs recs).map (fun x => (x, s.ctxFill p recs x c r n))).filter (fun v => v.2.1 != 0)
  let act := if s.renderWordBad (65536 * r + c) then some (0x0E, 0) else none
  let ranged := match s.rangeVoid p voids swOrd q c r n, act with
    | some k, some u => if u.1 < k.1 then some u else some k
    | some k, none => some k
    | none, u => u
  match ranged with
  | some (k, x) => .void k x none
  | none =>
    match fills with
    | [] => .empty
    | [(x, f, cv)] =>
      let d := curveDose (((cv.bind s.curve).map DoseCurve.knots).getD []) f
      if s.quotaHeld p n x then .void 0x13 x (some d)
      else if (s.rowGroup (s.groupAt r a)).kind = 0 then .empty
      else .dose d x
    | (x, _, _) :: _ => .void 0x11 x none

/-! ## Hiding (R126 to R131) -/

/-- R56: whether a position is in pass. -/
def inPass (s : State) (p : SwathPlan) (c r : Nat) (n : Int) : Bool :=
  let a := planAt p n
  s.passAt (s.groupAt r a) p.indexOffset c a = p.pass

def columns (s : State) : Nat := if s.die.variant = 3 then 32768 else 65536

def wordAt (s : State) (c r : Nat) : RenderWord := s.renderWord (65536 * r + c)

/-- R126: how many hidden rows give their dose to position (c, p, n). -/
def substCount (s : State) (pl : SwathPlan) (c p : Nat) (n : Int) : Nat :=
  let a := planAt pl n
  ((List.range 16).filter (fun r =>
    let w := s.wordAt c r
    let nr := n + s.rowline p - s.rowline r
    decide (r ≠ p) && w.hide = 1 && w.partner = p && s.groupAt r a = s.groupAt p a && planHas pl nr && s.inPass pl c r nr)).length

/-- R127, R131: what the neighbour at column `k` with share `share` toward (·, r, n) delivers: an amount, or the void it
passes on. -/
def spreadFrom (s : State) (pl : SwathPlan) (t : Target) (k r : Nat) (n : Int) (share : Nat) : Nat × Option (Nat × Nat) :=
  if share = 0 || (s.wordAt k r).hide != 2 || !s.inPass pl k r n then (0, none)
  else
    match t with
    | .empty => (0, none)
    | .dose d _ => (d * share / 16, none)
    | .void _ _ (some d) => (d * share / 16, none)
    | .void kd x none => (0, some (kd, x))

/-- R129, R130: whether a share of a hidden position with a non-zero amount is undeliverable.  The row map of the hidden
position's line says whether the partner row is in its group (DESIGN CHOICE, log entry 163). -/
def undeliverable (s : State) (pl : SwathPlan) (w : RenderWord) (d c r : Nat) (n : Int) : Bool :=
  let a := planAt pl n
  if w.hide = 3 then true
  else if w.hide = 2 then
    let side := fun (share : Nat) (k : Int) =>
      decide (d * share / 16 ≠ 0) && (decide (k < 0) || decide ((s.columns : Int) ≤ k) || (s.wordAt k.toNat r).hide != 0 ||
        !s.inPass pl k.toNat r n)
    side w.shareL ((c : Int) - 1) || side w.shareR ((c : Int) + 1)
  else
    let m := n + s.rowline r - s.rowline w.partner
    decide (d ≠ 0) && (!planHas pl m || (s.wordAt c w.partner).hide != 0 || !s.inPass pl c w.partner m ||
      s.groupAt w.partner a != s.groupAt r a)

end State

/-! ## The halftone (R132 to R134) -/

/-- R133: the ordered threshold value. -/
def orderedValue (a b : Nat) : Nat :=
  let u : BitVec 4 := BitVec.ofNat 4 a ^^^ BitVec.ofNat 4 b
  let v : BitVec 4 := BitVec.ofNat 4 a
  128 * fld u 0 1 + 64 * fld v 0 1 + 32 * fld u 1 1 + 16 * fld v 1 1 + 8 * fld u 2 1 + 4 * fld v 2 1 +
    2 * fld u 3 1 + fld v 3 1

def threshold (h : Halftone) (indexOffset : Int) (c : Nat) (n : Int) : Nat :=
  let a := ((n + h.phaseA) % 16).toNat
  let b := (((c : Int) + indexOffset / 256 + h.phaseB) % 16).toNat
  let v := orderedValue a b
  if h.dither = 0 then 128 else if h.dither = 1 then v else 64 + v / 2

/-- R134 step 3: the largest class whose level is not above D'. -/
def classBelow (b : DoseBank) (d : Int) : Nat → Nat
  | 0 => 0
  | m + 1 => if ((State.DoseBank.level b (m + 1) : Nat) : Int) ≤ d then m + 1 else classBelow b d m

/-- R134: class and new carried error. -/
def halftoneStep (b : DoseBank) (h : Halftone) (t deff : Nat) (e : Int) : Nat × Int :=
  let d : Int := deff + e * h.gain * 2 ^ h.eshift / 16
  let k :=
    if d < 0 then 0
    else
      let m := classBelow b d b.highest
      if m = b.highest then m
      else
        let v0 : Int := State.DoseBank.level b m
        let v1 : Int := State.DoseBank.level b (m + 1)
        if (t : Int) < (d - v0) * 256 / (v1 - v0) then m + 1 else m
  let e' := (d - State.DoseBank.level b k) / 2 ^ h.eshift
  (k, max (-128) (min 127 e'))

/-! ## One position and one slice (R112) -/

/-- What a position of a slice becomes: its code, its new carried error, and its void with kind and context. -/
structure PosOut where
  code : Nat
  err : Int
  void : Option (Nat × Nat)
  deriving DecidableEq, Repr

/-- R123, R126 to R131, R134 to R136: a position from its target, its neighbours' targets and its carried error. -/
def State.position (s : State) (pl : SwathPlan) (left right here : Target) (e : Int) (c r : Nat) (n : Int) : PosOut :=
  let a := planAt pl n
  match here with
  | .empty => { code := 0, err := 0, void := none }
  | .void k x _ => { code := 0, err := 0, void := some (k, x) }
  | .dose d x =>
    let w := s.wordAt c r
    let g := s.groupAt r a
    let b := s.bankInForce g a
    let h := s.halftoneAt g a
    let t := threshold h pl.indexOffset c n
    let pass := s.inPass pl c r n
    if w.hide != 0 then
      let (k, e') := halftoneStep b h t d e
      { code := 0, err := e', void := if k != 0 && pass && s.undeliverable pl w d c r n then some (0x12, x) else none }
    else
      let fromL := if c = 0 then (0, none) else s.spreadFrom pl left (c - 1) r n (s.wordAt (c - 1) r).shareR
      let fromR := s.spreadFrom pl right (c + 1) r n (s.wordAt (c + 1) r).shareL
      match fromL.2, fromR.2 with
      | some v, some u => { code := 0, err := 0, void := some (if u.1 < v.1 then u else v) }
      | some v, none => { code := 0, err := 0, void := some v }
      | none, some v => { code := 0, err := 0, void := some v }
      | none, none =>
        let sum := d + s.substCount pl c r n * d + fromL.1 + fromR.1
        let deff := min 65535 ((sum : Int) * (256 + w.dgain) / 256).toNat
        let (k, e') := halftoneStep b h t deff e
        { code := if pass then k else 0, err := e', void := none }

/-- R110: two codes to the byte, the even column in the low half. -/
def packCodes : List Nat → Bytes
  | [] => []
  | [a] => [BitVec.ofNat 8 a]
  | a :: b :: l => BitVec.ofNat 8 (a + 16 * b) :: packCodes l

/-- R110: a slice's bytes from its codes, row by row. -/
def packSlice (codes : List (List Nat)) : Bytes := codes.flatMap packCodes

/-- R110: the codes of some bytes of a slice. -/
def unpackCodes (bs : Bytes) : List Nat := bs.flatMap (fun b => [b.toNat % 16, b.toNat / 16])

/-- The codes of a row of a slice. -/
def sliceRow (bs : Bytes) (r : Nat) : List Nat := unpackCodes ((bs.drop (2048 * r)).take 2048)

/-- R110: the code of local column `j`, row `r` in a slice. -/
def sliceCode (bs : Bytes) (r j : Nat) : Nat :=
  let b := (nth bs (2048 * r + j / 2) 0).toNat
  if j % 2 = 0 then b % 16 else b / 16

/-- R111: the KINDS word. -/
def kindsWord (voids : List VoidRec) : BitVec 32 :=
  let has := fun k => voids.any (fun v => v.kind = k)
  setBit (setBit (setBit (setBit 0 0 (has 0x11)) 1 (has 0x0F)) 2 (has 0x0E)) 3 (has 0x12)

/-- R111: the number of positions voided. -/
def voidCount (voids : List VoidRec) : Nat := (voids.map (fun v => (maskBits v.rows 16).length)).sum

/-- R111: the slice CRC. -/
def sliceCrc (slice : Bytes) (voids : List VoidRec) : BitVec 32 :=
  crc32c (slice ++ leBytes 4 (voidCount voids) ++ leBytes 4 (kindsWord voids).toNat)

/-- A slice as rendered: codes by row, new carried errors (actuator, error), void records. -/
structure SliceOut where
  codes : List (List Nat)
  errs : List (Nat × Int)
  voids : List VoidRec
  deriving DecidableEq, Repr

/-- The carried errors of `n` actuators from index `b`, from a list by rising index that starts there or later. -/
def errorsFrom : List (Nat × Int) → Nat → Nat → List Int
  | _, _, 0 => []
  | [], _, n + 1 => 0 :: errorsFrom [] 0 n
  | (a, e) :: l, b, n + 1 => if a = b then e :: errorsFrom l (b + 1) n else 0 :: errorsFrom ((a, e) :: l) (b + 1) n

/-- One more voided position in the void records of a slice. -/
def addVoid (l : List VoidRec) (col row kind ctx : Nat) : List VoidRec :=
  if l.any (fun v => v.col = col && v.kind = kind && v.ctx = ctx) then
    l.map (fun v => if v.col = col && v.kind = kind && v.ctx = ctx then { v with rows := setBit v.rows row true } else v)
  else { kind := kind, ctx := ctx, col := col, rows := setBit 0 row true } :: l

/-- R112: one row of a slice, from the row's targets with the column across on either side. -/
def State.renderRow (s : State) (pl : SwathPlan) (n : Int) (carried : List (Nat × Int)) (c0 width r : Nat) (left right : Target)
    (ts : List Target) : List PosOut :=
  let base := 65536 * r + c0
  let mine := carried.filter (fun p => base ≤ p.1 && p.1 < base + width)
  let lefts := left :: ts
  let rights := ts.drop 1 ++ [right]
  ((lefts.zip (ts.zip (rights.zip (errorsFrom mine base width)))).zipIdx).map (fun q =>
    s.position pl q.1.1 q.1.2.2.1 q.1.2.1 q.1.2.2.2 (c0 + q.2) r n)

/-- R112: the slice of line `n` (ordinal `q`) in the columns from `c0`, `width` of them.  `edge` gives the targets of the
columns on either side (the halo of R130). -/
def State.renderSlice (s : State) (pl : SwathPlan) (swOrd q : Nat) (n : Int) (rg : Ridge) (c0 width : Nat)
    (edge : Bool → Nat → Target) : SliceOut :=
  let out := (List.range 16).map (fun r =>
    (r, s.renderRow pl n rg.carried c0 width r (edge false r) (edge true r)
      ((List.range width).map (fun j => s.target pl rg.cache rg.voids swOrd q (c0 + j) r n))))
  { codes := out.map (fun row => row.2.map PosOut.code),
    errs := out.flatMap (fun row => (row.2.zipIdx).filterMap (fun o =>
      if o.1.err = 0 then none else some (65536 * row.1 + c0 + o.2, o.1.err))),
    voids := (out.flatMap (fun row => (row.2.zipIdx).filterMap (fun o =>
      o.1.void.map (fun v => (c0 + o.2, row.1, v.1, v.2))))).foldl (fun l z => addVoid l z.1 z.2.1 z.2.2.1 z.2.2.2) [] }

end Sys2Proof.Machine
end

