-- ==== Sys2Proof/Machine/CorniceOps.lean ====
section
/-! DEFINITION. The cornice as operations: the state window, epochs and squashes, void orders, entries of a line, the
first untransmitted line and what frees a line (R155 to R182). -/

namespace Sys2Proof.Machine

/-! ## Spans of columns -/

/-- `[c0, c1]` without `[a, b]`. -/
def cutSpan (a b : Nat) (s : Nat × Nat) : List (Nat × Nat) :=
  if s.2 < a || b < s.1 then [s]
  else (if s.1 < a then [(s.1, a - 1)] else []) ++ (if b < s.2 then [(b + 1, s.2)] else [])

/-- `[c0, c1]` without any of the intervals. -/
def cutSpans (l : List (Nat × Nat)) (c0 c1 : Nat) : List (Nat × Nat) :=
  l.foldl (fun acc p => acc.flatMap (cutSpan p.1 p.2)) [(c0, c1)]

/-- Intervals by rising start, those that touch or overlap joined. -/
def joinSpans (l : List (Nat × Nat)) : List (Nat × Nat) :=
  let sorted := l.mergeSort (fun p q => decide (p.1 ≤ q.1))
  (sorted.foldl (fun (acc : List (Nat × Nat)) p => match acc with
    | [] => [p]
    | q :: rest => if p.1 ≤ q.2 + 1 then (q.1, max q.2 p.2) :: rest else p :: acc) []).reverse

/-- The spans of rows `rows` over columns `c0` to `c1`. -/
def rowSpans (rows : List Nat) (c0 c1 : Nat) : List LoggedSpan := rows.map (fun r => { row := r, c0 := c0, c1 := c1 })

/-- Prisms of one line: spans with equal columns grouped by row. -/
def prisms (l : List LoggedSpan) : List (Nat × Nat × BitVec 16) :=
  let byRow := (List.range 16).flatMap (fun r =>
    (joinSpans ((l.filter (fun p => p.row = r)).map (fun p => (p.c0, p.c1)))).map (fun q => (r, q.1, q.2)))
  byRow.foldl (fun (acc : List (Nat × Nat × BitVec 16)) q =>
    if acc.any (fun z => z.1 = q.2.1 && z.2.1 = q.2.2) then
      acc.map (fun z => if z.1 = q.2.1 && z.2.1 = q.2.2 then (z.1, z.2.1, setBit z.2.2 q.1 true) else z)
    else acc ++ [(q.2.1, q.2.2, setBit 0 q.1 true)]) []

/-- COUNT over several parts: 0xFFFF_FFFF absorbs. -/
def addCount (a b : Nat) : Nat := if a = 0xFFFFFFFF || b = 0xFFFFFFFF then 0xFFFFFFFF else a + b

/-- Whether two entries of one kind, context and prism lie on lines that follow one another. -/
def sameRun (a b : ScreeEntry) : Bool :=
  a.kind = b.kind && a.ctx = b.ctx && a.rowmask = b.rowmask && a.layer = b.layer && a.swath = b.swath &&
    a.firstCol = b.firstCol && a.lastCol = b.lastCol && (b.firstLine = a.lastLine + 1 || b.lastLine + 1 = a.firstLine)

/-- The two as one. -/
def joinRun (a b : ScreeEntry) : ScreeEntry :=
  { a with firstLine := min a.firstLine b.firstLine, lastLine := max a.lastLine b.lastLine, count := addCount a.count b.count }

/-- Entries in order, each joined to an earlier one where they make one prism. -/
def mergeEntries (l : List ScreeEntry) : List ScreeEntry :=
  l.foldl (fun acc e =>
    if acc.any (fun a => sameRun a e) then acc.map (fun a => if sameRun a e then joinRun a e else a) else acc ++ [e]) []

/-- R110: the logical ridges that own a column of `[c0, c1]`. -/
def ridgesOf (c0 c1 : Nat) : List Nat := (List.range 16).filter (fun i => decide (4096 * i ≤ c1) && decide (c0 ≤ 4096 * i + 4095))

namespace State

def allRidges (s : State) : BitVec 16 := BitVec.ofNat 16 (2 ^ s.ridgeCount - 1)

/-! ## Entries of a line (R19, R163, R560) -/

/-- Non-zero codes of row `r` of a slice in its local columns `a` to `b`. -/
def rowCount (bs : Bytes) (r a b : Nat) : Nat := ((((sliceRow bs r).drop a).take (b + 1 - a)).filter (· != 0)).length

/-- R560: the non-zero codes of a prism in a line.  A position voided as UNHIDEABLE has its class formed and counts; the
result is 0xFFFF_FFFF when a slice has not been rendered in its present epoch or holds a position voided before its
class was formed (log entry 21). -/
def countCodes (l : CLine) (rows : BitVec 16) (c0 c1 : Nat) : Nat :=
  (ridgesOf c0 c1).foldl (fun n i =>
    match l.ridges[i]? with
    | none => 0xFFFFFFFF
    | some k =>
      let vs := k.voids.filter (fun v => v.kind != 0x13 && decide (c0 ≤ v.col) && decide (v.col ≤ c1) && v.rows &&& rows != 0)
      match k.slice with
      | none => 0xFFFFFFFF
      | some bs =>
        if vs.any (fun v => v.kind != 0x12) then 0xFFFFFFFF
        else
          let a := max c0 (4096 * i) - 4096 * i
          let b := min c1 (4096 * i + 4095) - 4096 * i
          addCount n (((maskBits rows 16).map (fun r => rowCount bs r a b)).sum +
            (vs.map (fun v => (maskBits (v.rows &&& rows) 16).length)).sum)) 0

/-- R171, R178: the non-zero codes sent in row `r` of columns `c0` to `c1` at positions that stand in no entry; a slice
that was not taken from the ring went out as code 0. -/
def sentCount (l : CLine) (r c0 c1 : Nat) : Nat :=
  ((cutSpans ((l.logged.filter (fun q => q.row = r)).map (fun q => (q.c0, q.c1))) c0 c1).map (fun z =>
    ((ridgesOf z.1 z.2).map (fun i =>
      match (l.ridges[i]?).bind RLine.slice with
      | some bs => if bit l.fromRing i then rowCount bs r (max z.1 (4096 * i) - 4096 * i) (min z.2 (4096 * i + 4095) - 4096 * i) else 0
      | none => 0)).sum)).sum

/-- R178: the rows of a line that have fired: acknowledged, or its fire pulse has left. -/
def firedRows (l : CLine) : List Nat :=
  (List.range 16).filter (fun r => l.rows[r]? = some .fired ||
    ((l.firedIn != 0 || l.ridges.any (fun k => k.st = 5)) && l.rows[r]? = some .none))

/-- R22: the positions that the ridges voided for a quota stand in the QUOTA entry. -/
def quotaSpans (l : CLine) : List LoggedSpan :=
  l.ridges.flatMap (fun k => (k.voids.filter (fun v => v.kind = 0x13)).flatMap (fun v => rowSpans (maskBits v.rows 16) v.col v.col))

/-- The entries of one line for the spans not yet logged, which are marked logged; `fixed` is a COUNT that a rule
fixes. -/
def lineEntries (s : State) (l : CLine) (kind ctx : Nat) (spans : List LoggedSpan) (fixed : Option Nat) :
    State × List ScreeEntry :=
  let before := quotaSpans l ++ l.logged
  let fresh := spans.flatMap (fun p =>
    (cutSpans ((before.filter (fun q => q.row = p.row)).map (fun q => (q.c0, q.c1))) p.c0 p.c1).map
      (fun q => ({ row := p.row, c0 := q.1, c1 := q.2 } : LoggedSpan)))
  let es := (prisms fresh).map (fun z =>
    ({ kind := kind, ctx := ctx, rowmask := z.2.2, layer := l.layer, swath := l.swath, firstCol := z.1, lastCol := z.2.1,
       source := 0, firstLine := l.line, lastLine := l.line,
       count := fixed.getD (countCodes l z.2.2 z.1 z.2.1), seq := 0 } : ScreeEntry))
  (s.updLine l.ord (fun l => { l with logged := fresh ++ l.logged }), es)

/-- Writes entries in order. -/
def writeEntries (s : State) (es : List ScreeEntry) : State := es.foldl (fun s e => s.screeWrite e) s

/-- Logs spans of one line at once. -/
def logLine (s : State) (q kind ctx : Nat) (spans : List LoggedSpan) (fixed : Option Nat) : State :=
  match s.cline q with
  | none => s
  | some l =>
    let (s, es) := s.lineEntries l kind ctx spans fixed
    s.writeEntries es

/-- R243: entries that a following line may still extend: the run of the same kind grows, or is written and a new one
begins. -/
def logRun (s : State) (es : List ScreeEntry) : State :=
  es.foldl (fun s e =>
    if e.count = 0 then s
    else if s.scree.runs.any (fun a => sameRun a e) then
      { s with scree := { s.scree with runs := s.scree.runs.map (fun a => if sameRun a e then joinRun a e else a) } }
    else { s with scree := { s.scree with runs := s.scree.runs ++ [e] } }) s

/-- Writes the open runs that satisfy `p`. -/
def flushRuns (s : State) (p : ScreeEntry → Bool) : State :=
  let go := s.scree.runs.filter p
  ({ s with scree := { s.scree with runs := s.scree.runs.filter (fun e => !p e) } }).writeEntries go

/-- Every row and column of the module. -/
def wholeLine (s : State) : List LoggedSpan := rowSpans (List.range 16) 0 (s.columns - 1)

/-- The columns of the module that a region covers in a swath, at any sub-sample (R89, R147, R162). -/
def regionCols (s : State) (p : SwathPlan) (g : Region) : Option (Nat × Nat) :=
  if p.layer < g.layer0 || g.layer1 < p.layer then none
  else
    let lo : Int := (256 * g.col0 - p.indexOffset - 224 + 255) / 256
    let hi : Int := (256 * (g.col1 + 1) - p.indexOffset - 33) / 256
    let lo := max 0 lo
    let hi := min ((s.columns : Int) - 1) hi
    if lo ≤ hi && g.line0 ≤ g.line1 then some (lo.toNat, hi.toNat) else none

/-! ## The state window (R155 to R158, R165) -/

/-- Whether a run from a position on, in that position's swath, covers line `n` of a plan. -/
def runCovers (p : SwathPlan) (n : Int) (z : BuildPos) : Bool :=
  z.layer = p.layer && z.swath = p.swath && atOrAfter p.dir n z.line

/-- R165: the epoch of a line that enters the window: the counting squashes that have covered it. -/
def epochOf (s : State) (i : Nat) (p : SwathPlan) (n : Int) : BitVec 8 :=
  BitVec.ofNat 8 ((s.crn.squashed.filter (fun z => bit z.1 i && runCovers p n z.2)).length)

/-- R175: whether a line is marked RETRIED in a ridge when it enters the window. -/
def retriedIn (s : State) (i : Nat) (p : SwathPlan) (n : Int) : Bool :=
  s.crn.retriedRuns.any (fun z => z.1 = i && runCovers p n z.2)

def newLine (s : State) (q : Nat) : Option CLine :=
  (s.swathAt q).map (fun w =>
    let n := planLine w.plan (q - w.firstOrd)
    -- R561: its decision crossing came before the window reached it
    let gone := decide (q < s.crn.decided)
    { ord := q, layer := w.plan.layer, swath := w.plan.swath, line := n,
      ridges := (List.range s.ridgeCount).map (fun i =>
        { st := if gone then 6 else 0, epoch := s.epochOf i w.plan n, retried := s.retriedIn i w.plan n, crc := none, kinds := 0, voids := [],
          slice := none, mismatch := false, held := none }),
      lseq := none, fmap := 0, taken := false, dropped := gone, fromRing := 0, rows := List.replicate 16 .none,
      logged := if gone || s.crn.lateSwath = some (w.plan.layer, w.plan.swath) then s.wholeLine else [],
      closedLinks := [], voidKind := none, voidRidges := 0, groupsOut := [], unsent := [], withheld := 0, early := false, firedIn := 0 })

/-- CRN_OPEN: ordinal of the oldest line not FREE. -/
def oldestOpen (s : State) : Nat :=
  match s.crn.window.find? (fun l => l.ridges.any (fun k => k.st != 7)) with
  | some l => l.ord
  | none => s.windowEnd

/-- R157: the window takes in the planned lines up to 256 ordinals from the oldest line not FREE. -/
def fillWindow (s : State) : State :=
  let lo := s.windowEnd
  let hi := min s.crn.nextOrd (s.oldestOpen + 256)
  { s with crn := { s.crn with window := s.crn.window ++ (List.range (hi - lo)).filterMap (fun k => s.newLine (lo + k)) } }

/-- Every row of the line has had its pulse, or none is due. -/
def rowsDone (l : CLine) : Bool :=
  l.dropped || l.rows.all (fun r => match r with
    | .fired => true
    | .skipped _ => true
    | _ => false)

/-- Every ridge has left TRANSMITTED and the answers to its void orders are in. -/
def lineClosed (s : State) (l : CLine) : Bool :=
  (l.taken || l.dropped) && l.ridges.all (fun k => 5 ≤ k.st) && !s.crn.groups.any (fun g => g.pend.any (fun p => p.1 = l.ord))

/-- The build position of a window line, as a plan of its swath. -/
def linePlan (s : State) (l : CLine) : Option SwathPlan := s.planOf l.layer l.swath

/-- R158: lines whose ridges have all left TRANSMITTED are FREE; those at the window's start that have had their pulses
leave it.  A line that was taken is kept for R178, R232 and R233 (log entry 142). -/
def freeLines (s : State) : State :=
  let now := s.crn.window.filter (fun l => s.lineClosed l && l.ridges.any (fun k => k.st != 7))
  let s := (now.filter (fun l => l.ridges.all (fun k => k.st = 5))).foldl (fun s _ => s.obsCount 1) s
  let w := s.crn.window.map (fun l =>
    if s.lineClosed l && l.ridges.any (fun k => k.st != 7) then
      { l with firedIn := maskOf 16 (((l.ridges.zipIdx).filter (fun k => k.1.st = 5)).map Prod.snd),
               ridges := l.ridges.map (fun (k : RLine) => { k with st := 7 }) }
    else l)
  -- a standby drives no strobe, so no pulse of its own keeps a line
  let gone := w.takeWhile (fun l => l.ridges.all (fun k => k.st = 7) && (rowsDone l || s.follows))
  let last := match gone.getLast? with
    | some l => some (({ layer := l.layer, swath := l.swath, line := l.line } : BuildPos), ((s.linePlan l).map SwathPlan.dir).getD 0)
    | none => s.crn.lastFreed
  ({ s with crn := { s.crn with window := w.drop gone.length, freed := s.crn.freed + gone.length, lastFreed := last,
                                past := s.crn.past ++ gone.filter CLine.taken } }).fillWindow

/-! ## Checkpoints and rewind (R137 to R140, R151) -/

/-- R137: a checkpoint line. -/
def isCheckpoint (p : SwathPlan) (n : Int) : Bool := n % 16 = (if p.dir = 0 then 0 else 15) || n = planFirst p

/-- R137: the DIFF pool address of an actuator's byte in the slot of line `n`. -/
def diffAddr (n : Int) (i : Nat) : Nat := Config.diffPool + 0x100000 * ((n / 16) % 8).toNat + i

/-- The actuators of a logical ridge. -/
def ridgeActs (i : Nat) : List Nat := (List.range 16).flatMap (fun r => (List.range 4096).map (fun j => 65536 * r + 4096 * i + j))

/-- R151: the pending fault records of a band fetch are discarded, and the ridge's slot is free. -/
def dropFault (s : State) (i : Nat) : State :=
  if (s.ridge i).stops.isEmpty then s
  else (s.clearSlot (36 + i)).updRidge i (fun g => { g with stops := [], pass := none })

/-- R146, R148: the fault of one context is cleared; the next one that waits takes the ridge's record and slot. -/
def clearStop (s : State) (i x : Nat) : State :=
  let held := (s.ridge i).stops.head?.map FetchStop.ctx = some x
  let rest := (s.ridge i).stops.filter (fun z => z.ctx != x)
  let s := s.updRidge i (fun g => { g with stops := rest })
  if !held then s
  else
    match rest with
    | [] => s.clearSlot (36 + i)
    | z :: _ => s.slotRecord (36 + i) z.ctx z.va { kind := z.kind, level := z.level } .read

/-- R151: the band in progress, the one fetched ahead and the halo values received are abandoned. -/
def dropBand (g : Ridge) : Ridge := { g with band := none, nextBand := none, pass := none, halo := [] }

/-- R139, R140: rewinds a ridge to the latest checkpoint at or before ordinal `q` of its swath: its carried errors come
from the DIFF pool, and a byte that reads uncorrectable voids its actuator from line `q` to the end of the swath. -/
def rewind (s : State) (i q : Nat) : State :=
  let s := s.dropFault i
  match s.swathAt q with
  | none => s.updRidge i (fun g => { dropBand g with nextOrd := q, carried := [] })
  | some w =>
    let p := w.plan
    let k := q - w.firstOrd
    let back := ((List.range (k + 1)).find? (fun j => isCheckpoint p (planLine p (k - j)))).getD k
    let m := planLine p (k - back)
    let first := m = planFirst p
    let acts := if first then [] else ridgeActs i
    let bad := acts.filter (fun a => s.badAt (diffAddr m a))
    let errs := acts.filterMap (fun a =>
      let e := sInt 8 (s.rdByte (diffAddr m a)).toNat
      if e = 0 || bad.contains a then none else some (a, e))
    let s := bad.foldl (fun s a => ((s.reportUE .ridge 0 (diffAddr m a)).event Reg.RDG_EVENT 1).raise Src.RDG_UNCORRECTABLE_READ) s
    let new := bad.map (fun a => ({ kind := 0x0E, ctx := 0, act := some a, swOrd := w.firstOrd, fromOrd := q } : VoidRange))
    s.updRidge i (fun g =>
      { dropBand g with nextOrd := q - back, carried := errs, voids := new ++ g.voids })

/-! ## Orders to the head drivers (R222, R291) -/

/-- HLK_LINK[l]: whether the link is in use, and its columns (R214, R215). -/
def linkRate (s : State) (l : Nat) : Nat := s.rfld (Reg.HLK_LINK l) 27 2

def linkCol0 (s : State) (l : Nat) : Nat := s.rfld (Reg.HLK_LINK l) 0 16

def linkWidth (s : State) (l : Nat) : Nat := 16 * s.rfld (Reg.HLK_LINK l) 16 11

def linksUsed (s : State) : List Nat := (List.range 16).filter (fun l => s.linkRate l != 0)

/-- The links that carry a column of `[c0, c1]`. -/
def linksOver (s : State) (c0 c1 : Nat) : List Nat :=
  s.linksUsed.filter (fun l => decide (s.linkCol0 l ≤ c1) && decide (c0 < s.linkCol0 l + s.linkWidth l))

/-- R214: the lanes of a link. -/
def linkLanes (s : State) : Nat := if s.rbit Reg.HLK_CTRL 0 then 2 else 8

/-- R216: a swath is running on the head link: a line of it has been taken and not its last. -/
def sending (s : State) : Bool :=
  match s.mot.current, s.crn.lastTaken with
  | some w, some (l, k, n) => w.plan.layer = l && w.plan.swath = k && n != planLine w.plan (planLen w.plan - 1)
  | _, _ => false

/-- R216: an order frame goes out at once while no swath is running, and otherwise waits for an order window. -/
def putOrder (s : State) (l : Nat) (frame : Bytes) : State :=
  if s.sending then s.updHead l (fun h => { h with waiting := h.waiting ++ [frame] }) else s.emit (.headFrame l frame)

/-- R217: the symbol times per lane that a frame takes. -/
def frameTime (s : State) (frame : Bytes) : Nat := (frame.length + s.linkLanes - 1) / s.linkLanes + 2

/-- R216: the waiting frames that fit into `room` symbol times, and those that do not. -/
def fitOrders (s : State) : Nat → List Bytes → List Bytes × List Bytes
  | _, [] => ([], [])
  | room, f :: fs =>
    if s.frameTime f ≤ room then
      let z := fitOrders s (room - s.frameTime f) fs
      (f :: z.1, z.2)
    else ([], f :: fs)

/-- R216: the order window of 230 symbol times after a line, or the end of the swath (`all`). -/
def orderWindow (s : State) (l : Nat) (all : Bool) : State :=
  let z := if all then ((s.headlink l).waiting, []) else s.fitOrders 230 (s.headlink l).waiting
  z.1.foldl (fun s f => s.emit (.headFrame l f)) (s.updHead l (fun h => { h with waiting := z.2 }))

/-- R218: the header of an order frame with the next order number. -/
def orderHdr (s : State) (l typ : Nat) : HeadHdr :=
  { typ := typ, flags := 0, link := l, seq := s.hlk.orderNo, chunk := 0, swtag := s.mot.swtags % 65536, fmap := 0 }

/-- R219: the next order number is used. -/
def usedOrder (s : State) : State := { s with hlk := { s.hlk with orderNo := (s.hlk.orderNo + 1) % 2 ^ 32 } }.count Reg.HLK_ORDERS 1

/-- R223, R291: an order frame whose body is `body`; when it is to be acknowledged it waits for its ORDER_ACK with `arg`.
Nothing is sent while TOWN is not running. -/
def sendOrder (s : State) (l arg : Nat) (acked : Bool) (h : HeadHdr) (body : Bytes) : State :=
  if s.pins.town then
    let o : HeadOrder := { order := s.hlk.orderNo, typ := h.typ, arg := arg }
    let s := if acked then s.updHead l (fun k => { k with orders := k.orders ++ [o] }) else s
    s.usedOrder.putOrder l (headBytes h body)
  else s

/-- R222, R229: the VOID frames for one line on a link, one for each run of the covered ridges' columns; they are answered
by VOID_ACK and not by ORDER_ACK, and SEQ holds the LSEQ. -/
def sendVoidFrame (s : State) (l lseq : Nat) (ridges : BitVec 16) : State :=
  if s.pins.town then
    let a := s.linkCol0 l
    let b := a + s.linkWidth l - 1
    let runs := joinSpans (((maskBits ridges 16).filter (fun i => decide (4096 * i ≤ b) && decide (a ≤ 4096 * i + 4095))).map
      (fun i => (max a (4096 * i), min b (4096 * i + 4095))))
    runs.foldl (fun s z =>
      s.usedOrder.putOrder l (headBytes { s.orderHdr l 0x30 with seq := lseq }
        (leBytes 4 lseq ++ leBytes 2 z.1 ++ leBytes 2 z.2 ++ [0xFF, 0xFF] ++ List.replicate 6 0))) s
  else s

/-- The links that carry a column of some ridges. -/
def linksOfRidges (s : State) (ridges : BitVec 16) : List Nat :=
  s.linksUsed.filter (fun l => (maskBits ridges 16).any (fun i => (s.linksOver (4096 * i) (4096 * i + 4095)).contains l))

/-- R170: the void order for a transmitted line, to the links of the covered ridges' columns.  CRN_VOID_ORDERS counts one
for the line, however many links carry it (DESIGN CHOICE, log entry 143). -/
def sendVoid (s : State) (q : Nat) (ridges : BitVec 16) : State :=
  match s.cline q with
  | none => s
  | some l =>
    let s := s.mirrorLine l 3 ridges
    let s := (s.linksOfRidges ridges).foldl (fun s k => s.sendVoidFrame k (l.lseq.getD 0) ridges) s
    (s.count Reg.CRN_VOID_ORDERS 1).event Reg.CRN_EVENT 5

/-- R170: a transmitted line is voided in the columns of the covered ridges; in pulses still due, a void of every column
makes a skip.  Where a void order is out already, the lower kind stands (R19). -/
def voidLine (s : State) (q kind : Nat) (ridges : BitVec 16) : State :=
  (s.sendVoid q ridges).updLine q (fun l =>
    { l with voidKind := some (match l.voidKind with
               | some k => min k kind
               | none => kind),
             voidRidges := l.voidRidges ||| ridges,
             rows := if ridges = s.allRidges then l.rows.map (fun r => match r with
               | .toFire => .toSkip 0
               | r => r) else l.rows })

/-- The columns of some ridges, every row. -/
def ridgeSpans (ridges : BitVec 16) : List LoggedSpan :=
  (maskBits ridges 16).flatMap (fun i => rowSpans (List.range 16) (4096 * i) (4096 * i + 4095))

/-- R171: the positions of a voided line under the new inputs, whatever the answer was. -/
def voidEntries (s : State) (q kind : Nat) : State × List ScreeEntry :=
  match s.cline q with
  | none => (s, [])
  | some l => s.lineEntries l (l.voidKind.getD kind) 0 (ridgeSpans l.voidRidges) (some 0xFFFFFFFF)

/-- R171: the answer to a void order for line `q` on link `l`; the entries of a group go out with its last answer. -/
def voidAnswered (s : State) (q l : Nat) : State :=
  match s.crn.groups.find? (fun g => g.pend.contains (q, l)) with
  | none => s
  | some g =>
    let rest := g.pend.filter (fun p => p != (q, l))
    let (s, es) := if rest.any (fun p => p.1 = q) then (s, []) else s.voidEntries q g.kind
    let g' := { g with pend := rest, entries := g.entries ++ es }
    if rest.isEmpty then
      ({ s with crn := { s.crn with groups := s.crn.groups.filter (fun h => h != g) } }).writeEntries (mergeEntries g'.entries)
    else { s with crn := { s.crn with groups := s.crn.groups.map (fun h => if h = g then g' else h) } }

/-- R170, R171: void orders for lines of one swath, and what awaits their answers.  A line under a void order already has
its answers awaited. -/
def voidSwath (s : State) (lines : List CLine) (layer swath kind : Nat) (ridges : BitVec 16) : State :=
  let all := lines.filter (fun l => l.layer = layer && l.swath = swath)
  let mine := all.filter (fun l => l.voidKind.isNone)
  let links := s.linksOfRidges ridges
  let s := all.foldl (fun s l => s.voidLine l.ord kind ridges) s
  let pend := mine.flatMap (fun l => (links.filter (fun k => !l.closedLinks.contains k)).map (fun k => (l.ord, k)))
  let (s, es) := (mine.filter (fun l => !pend.any (fun p => p.1 = l.ord))).foldl (fun (p : State × List ScreeEntry) l =>
    let (s, e) := p.1.voidEntries l.ord kind
    (s, p.2 ++ e)) (s, [])
  if pend.isEmpty then s.writeEntries (mergeEntries es)
  else
    let g : VoidGroup := { kind := kind, layer := layer, swath := swath, pend := pend, entries := es }
    { s with crn := { s.crn with groups := s.crn.groups ++ [g] } }

/-! ## Squash (R165 to R172) -/

/-- A change of a line's ridges by their number. -/
def mapRidges (f : Nat → RLine → RLine) (l : CLine) : CLine := { l with ridges := l.ridges.mapIdx f }

/-- R165: whether squashes of a source count an epoch: all but GEOM (5) and ABANDON (7). -/
def countsEpoch (src : Nat) : Bool := src != 5 && src != 7

/-- R169, R560: a covered (ridge, line) pair.  Where the epoch does not change, the codes of the last rendering still
count. -/
def squashRLine (src : Nat) (k : RLine) : RLine :=
  let k := if countsEpoch src then { k with epoch := k.epoch + 1 } else k
  let cleared : RLine :=
    if countsEpoch src then { k with st := 0, crc := none, kinds := 0, voids := [], slice := none, mismatch := false }
    else { k with st := 0, crc := none, mismatch := false }
  if k.st ≤ 3 then cleared else k

/-- R166: a held value whose epoch the line has passed. -/
def staleHeld (k : RLine) : Bool :=
  match k.held with
  | some (e, _) => decide (128 ≤ (e - k.epoch).toNat)
  | none => false

/-- R165: what a squash that counts an epoch covers: the rest of the swath of ordinal `q`, and every later planned swath. -/
def squashRuns (s : State) (ridges : BitVec 16) (q : Nat) : List (BitVec 16 × BuildPos) :=
  (s.planned.filter (fun w => decide (q < w.firstOrd + planLen w.plan))).map (fun w =>
    (ridges, { layer := w.plan.layer, swath := w.plan.swath, line := planLine w.plan (q - w.firstOrd) }))

/-- R166: the held values that a squash has made old are discarded and counted. -/
def dropStale (s : State) : State :=
  let n := (s.crn.window.map (fun l => (l.ridges.filter staleHeld).length)).sum
  if n = 0 then s
  else
    (({ s with crn := { s.crn with window := s.crn.window.map (fun (l : CLine) =>
        mapRidges (fun _ k => if staleHeld k then { k with held := none } else k) l) } }).count Reg.CRN_STALE_VALUES n).event Reg.CRN_EVENT 8

/-- R131, R151: a ridge has received these halo values from a squashed ridge. -/
def haloStale (ridges : BitVec 16) (q i : Nat) (h : HaloVal) : Bool :=
  decide (q ≤ h.line) && ((h.right && bit ridges (i + 1)) || (!h.right && decide (0 < i) && bit ridges (i - 1)))

/-- R165 to R170: a squash of the named ridges from ordinal `q` on.  `kind` is what a void order of REPLAN or ABANDON
logs.  In a twin pair the owner decides the void orders (R164).  An abandoned line whose pulses have all left is not
voided any more: its FIRE_ACK tells what it fired (R231, R247; log entry 144). -/
def squash (s : State) (src : Nat) (ridges : BitVec 16) (q kind : Nat) : State :=
  let back := (s.crn.window.filter (fun l => q ≤ l.ord)).map (fun l =>
    ((l.ridges.zipIdx).filter (fun k => bit ridges k.2 && decide (1 ≤ k.1.st) && decide (k.1.st ≤ 3))).length)
  let sent := if (src = 2 || src = 7) && !s.follows then
      s.crn.window.filter (fun l => q ≤ l.ord && l.taken && (l.ridges.zipIdx).any (fun k => bit ridges k.2 && k.1.st = 4))
    else []
  let voided := sent.filter (fun l => src != 7 || !rowsDone l)
  let late := sent.filter (fun l => src = 7 && rowsDone l)
  let at_ := match s.swathAt q with
    | some w => ({ layer := w.plan.layer, swath := w.plan.swath, line := planLine w.plan (q - w.firstOrd) } : BuildPos)
    | none => s.crn.squashAt
  let live := s.crn.squashed.filter (fun z => s.planned.any (fun w => w.plan.layer = z.2.layer && w.plan.swath = z.2.swath))
  let s := { s with crn := { s.crn with
      window := s.crn.window.map (fun (l : CLine) =>
        if q ≤ l.ord then mapRidges (fun i k => if bit ridges i then squashRLine src k else k) l else l),
      squashed := if countsEpoch src then s.squashRuns ridges q ++ live else live,
      squashSrc := src, squashRidges := ridges, squashAt := at_ } }
  let s := (((s.dropStale.count Reg.CRN_SQUASHES 1).count Reg.CRN_SQ_RLINES back.sum).event Reg.CRN_EVENT 0).obsCount 5
  let s := s.trace 3 (leBytes 1 src ++ [0] ++ leBytes 2 ridges.toNat ++ leBytes 4 at_.layer ++ leBytes 2 at_.swath ++ [0, 0] ++
    leBytes 4 (uNat 32 at_.line))
  let s := { s with rdg := { s.rdg with ridges := s.rdg.ridges.mapIdx (fun i (g : Ridge) =>
      { g with halo := g.halo.filter (fun h => !haloStale ridges q i h) }) } }
  let s := (maskBits ridges s.ridgeCount).foldl (fun s i =>
    if q < (s.ridge i).nextOrd then s.rewind i q else (s.dropFault i).updRidge i dropBand) s
  let s := late.foldl (fun s l => s.sendVoid l.ord ridges) s
  ((voided.map (fun l => (l.layer, l.swath))).eraseDups).foldl (fun s z => s.voidSwath voided z.1 z.2 kind ridges) s

/-- R175: marks a ridge's lines RETRIED from ordinal `q` to the end of the swath. -/
def markRetried (s : State) (i q : Nat) : State :=
  match s.swathAt q with
  | none => s
  | some w =>
    let past := w.firstOrd + planLen w.plan
    let at_ : BuildPos := { layer := w.plan.layer, swath := w.plan.swath, line := planLine w.plan (q - w.firstOrd) }
    let live := s.crn.retriedRuns.filter (fun z => s.planned.any (fun v => v.plan.layer = z.2.layer && v.plan.swath = z.2.swath))
    { s with crn := { s.crn with
        retriedRuns := (i, at_) :: live,
        window := s.crn.window.map (fun (l : CLine) => if q ≤ l.ord && l.ord < past then
          mapRidges (fun j k => if j = i then { k with retried := true } else k) l else l) } }

/-! ## Comparison (R158, R166, R175, R297, R301) -/

def rline (s : State) (q i : Nat) : Option RLine := (s.cline q).bind (fun l => l.ridges[i]?)

def updRLine (s : State) (q i : Nat) (f : RLine → RLine) : State :=
  s.updLine q (fun l => { l with ridges := l.ridges.modify i f })

/-- R175: a posted value and a comparison value of the same epoch meet. -/
def compareValue (s : State) (q i : Nat) (v : BitVec 32) : State :=
  match s.rline q i with
  | none => s
  | some k =>
    match k.crc with
    | none => s
    | some own =>
      if own = v then s.updRLine q i (fun k => { k with st := 3, mismatch := false })
      else if k.retried then s.updRLine q i (fun k => { k with mismatch := true })
      else (s.markRetried i q).squash 6 (BitVec.ofNat 16 (2 ^ i)) q 0

/-- R166: a comparison value arrives for a ridge, a line and an epoch. -/
def valueArrives (s : State) (q i : Nat) (epoch : BitVec 8) (v : BitVec 32) : State :=
  match s.rline q i with
  | none => s
  | some k =>
    let ahead := (epoch - k.epoch).toNat
    if ahead = 0 then
      if k.st = 2 then s.compareValue q i v
      else if k.st = 0 || k.st = 1 then s.updRLine q i (fun k => { k with held := some (epoch, v) })
      else s
    else if ahead < 128 then s.updRLine q i (fun k => { k with held := some (epoch, v) })
    else (s.count Reg.CRN_STALE_VALUES 1).event Reg.CRN_EVENT 8

/-- R158, R166: a ridge posts its value; a value held for this epoch is compared at once. -/
def postValue (s : State) (q i : Nat) (slice : Bytes) (voids : List VoidRec) : State :=
  let v := sliceCrc slice voids
  let s := s.updRLine q i (fun k =>
    { k with st := 2, crc := some v, kinds := kindsWord voids, voids := voids, slice := some slice, mismatch := false })
  match (s.rline q i).bind RLine.held with
  | some (e, w) =>
    if some e = (s.rline q i).map RLine.epoch then (s.updRLine q i (fun k => { k with held := none })).compareValue q i w else s
  | none => s

/-! ## Swaths end or are removed (R30, R150, R155) -/

/-- R30: the entries that withhold every line of the ordinals `[a, b)` of a planned swath that has not been taken: lines
of the window by their codes, the rest as never rendered. -/
def withheldEntries (s : State) (w : Swath) (a b kind : Nat) : State × List ScreeEntry :=
  let inWin := s.crn.window.filter (fun l => a ≤ l.ord && l.ord < b && !l.taken && !l.dropped)
  let (s, es) := inWin.foldl (fun (p : State × List ScreeEntry) l =>
    let (s, e) := p.1.lineEntries l kind 0 p.1.wholeLine none
    (s, p.2 ++ e)) (s, [])
  let from_ := max a s.windowEnd
  -- R178: positions past the window that the swath gate's closure has logged
  let logged := s.crn.lateSwath = some (w.plan.layer, w.plan.swath)
  let rest : List ScreeEntry := if from_ < b && !logged then
      let x := planLine w.plan (from_ - w.firstOrd)
      let y := planLine w.plan (b - 1 - w.firstOrd)
      [{ kind := kind, ctx := 0, rowmask := 0xFFFF, layer := w.plan.layer, swath := w.plan.swath, firstCol := 0,
         lastCol := s.columns - 1, source := 0, firstLine := min x y, lastLine := max x y, count := 0xFFFFFFFF, seq := 0 }]
    else []
  (s, mergeEntries (es ++ rest))

/-- R30: withholds them.  Where void orders of the same kind for the swath still await answers, the entries go out with
those of the voided lines. -/
def withholdLines (s : State) (w : Swath) (a b kind : Nat) : State :=
  let (s, es) := s.withheldEntries w a b kind
  if s.crn.groups.any (fun g => g.kind = kind && g.layer = w.plan.layer && g.swath = w.plan.swath) then
    { s with crn := { s.crn with groups := s.crn.groups.map (fun (g : VoidGroup) =>
        if g.kind = kind && g.layer = w.plan.layer && g.swath = w.plan.swath then { g with entries := g.entries ++ es } else g) } }
  else s.writeEntries es

/-- R155: removes the lines from ordinal `q` on that have not been taken; a ridge that works at ordinal `first` or later
goes on from `q` (R150). -/
def cutOrdinals (s : State) (first q : Nat) : State :=
  let s := (List.range s.rdg.ridges.length).foldl (fun s i =>
    if first ≤ (s.ridge i).nextOrd || (s.ridge i).stops.any (fun z => decide (first ≤ z.ord)) then s.dropFault i else s) s
  let s := { s with crn := { s.crn with
      window := s.crn.window.filter (fun l => l.ord < q || l.taken), crossed := min s.crn.crossed q,
      decided := min s.crn.decided q, nextOrd := q } }
  { s with rdg := { s.rdg with ridges := s.rdg.ridges.map (fun (g : Ridge) =>
      if first ≤ g.nextOrd then
        { dropBand g with nextOrd := q, reach := min g.reach q, carried := [], voids := g.voids.filter (fun v => decide (v.swOrd < first)) }
      else { g with reach := min g.reach q, halo := g.halo.filter (fun h => decide (h.line < q)),
                    nextBand := if (g.nextBand.map Prod.fst).any (fun o => decide (first ≤ o)) then none else g.nextBand,
                    pass := if (g.pass.map (fun z => z.key.1)).any (fun o => decide (first ≤ o)) then none else g.pass }) } }

/-! ## Line events (R182) -/

/-- R182: whether every ridge holds the armed line, or a later one, in the selected state; a line that has left the window
is FREE. -/
def lineReached (s : State) (layer swath : Nat) (line : Int) (closed : Bool) : Bool :=
  let past := fun (l2 s2 : Nat) (n : Int) (dir : Nat) =>
    swathBefore layer swath l2 s2 || (layer = l2 && swath = s2 && atOrAfter dir n line)
  let inWin := s.crn.window.any (fun l =>
    past l.layer l.swath l.line (((s.linePlan l).map SwathPlan.dir).getD 0) &&
      l.ridges.all (fun k => if closed then decide (5 ≤ k.st) else decide (4 ≤ k.st)))
  let gone := match s.crn.lastFreed with
    | some (p, dir) => past p.layer p.swath p.line dir
    | none => false
  inWin || gone

/-- R182: delivers LINE_REACHED to each context whose armed line has been reached, and disarms it. -/
def lineEvents (s : State) : State :=
  (List.range 64).foldl (fun s x =>
    let ctl := s.reg (Reg.CRN_LW_CTRL x)
    if x != 0 && bit ctl 0 && s.lineReached (s.rfld (Reg.CRN_LW_LAYER x) 0 24) (s.rfld (Reg.CRN_LW_SWATH x) 0 16)
        (sWord (s.reg (Reg.CRN_LW_LINE x))) (bit ctl 1) then
      (s.setReg (Reg.CRN_LW_CTRL x) (setBit ctl 0 false)).raiseEvent x 5
    else s) s

end State

end Sys2Proof.Machine
end

