-- ==== Sys2Proof/Machine/FireMaps.lean ====
section
/-! DEFINITION. Fire maps: what the head drivers look a code up in, and its upload by generation (R222 to R224). -/

namespace Sys2Proof.Machine

namespace State

/-- R222: the 256 bytes of the fire map at a line: byte 16r + k is the waveform of class k in row r. -/
def fireMapAt (s : State) (a : At) : List Nat :=
  (List.range 16).flatMap (fun r =>
    let b := s.bankInForce (s.groupAt r a) a
    (List.range 16).map (fun k => if k = 0 || b.highest < k then 0 else (nth b.entries (k - 1) (0, 0)).1))

/-- Rows in which two fire maps differ. -/
def changedRows (a b : List Nat) : BitVec 16 :=
  maskOf 16 ((List.range 16).filter (fun r => (a.drop (16 * r)).take 16 != (b.drop (16 * r)).take 16))

/-- The generation that holds a content, and its upload. -/
def fireMap (s : State) (c : List Nat) : Option FireMap := s.hlk.fmaps.find? (fun m => m.content = c)

/-- R221, R224: the generations that a line held at a head driver names, withheld in every ridge or not, or that a line
still to be taken needs. -/
def busyGens (s : State) : List Nat :=
  s.crn.window.filterMap (fun l =>
    if l.dropped then none
    else if l.taken then (if !rowsDone l || l.ridges.any (fun k => k.st = 4) then some l.fmap else none)
    else
      match s.planOf l.layer l.swath with
      | none => none
      | some p => (s.fireMap (s.fireMapAt (planAt p l.line))).map FireMap.gen)

/-- R224: the fire map of a line is uploaded on every link in use, under a generation that no held line names, unless
it stands uploaded already.  With every generation named, nothing is uploaded. -/
def uploadMap (s : State) (a : At) : State :=
  let c := s.fireMapAt a
  if !(s.pins.town || s.follows) || (s.fireMap c).isSome then s
  else
    let busy := s.busyGens
    match ((List.range 16).map (fun k => (s.hlk.fgen + 1 + k) % 16)).find? (fun g => !busy.contains g) with
    | none => s
    | some g =>
      let last := ((s.hlk.fmaps.find? (fun m => m.gen = s.hlk.fgen)).map FireMap.content).getD (List.replicate 256 0)
      let m : FireMap := { gen := g, content := c, acked := if s.follows then 0xFFFF else 0, changed := changedRows last c }
      let s := { s with hlk := { s.hlk with fgen := g, fmaps := m :: s.hlk.fmaps.filter (fun m => m.gen != g) } }
      s.linksUsed.foldl (fun s l =>
        s.sendOrder l g true { s.orderHdr l 0x22 with fmap := g } (c.map (fun w => BitVec.ofNat 8 w))) s

end State

end Sys2Proof.Machine
end

