-- ==== Sys2Proof/Machine/Settle.lean ====
section
/-! DEFINITION. What follows at once from a command's effect, wherever it came from: a CRST reset, entry to HELD with the
abandonment of swaths, the quota action, the abort of a drop test, line events and the release of lines.  Every
meaning ends with `settle`. -/

namespace Sys2Proof.Machine

/-! ## Build states (R98) -/

namespace Build

def UNHOMED : Nat := 0
def HOMING : Nat := 1
def READY : Nat := 2
def LAYER : Nat := 3
def CLOSING : Nat := 4
def HELD : Nat := 5

end Build

namespace State

/-- R322, R323, R326: the body of a STATE frame; CAUSE 1 says that the lead holds the gate for a member (log entry 30). -/
def stateBody (s : State) : Bytes := leBytes 1 s.mot.bstate ++ [if s.saf.cascade then 1 else 0] ++ List.replicate 6 0

/-- A build state begins; the lead of a cascade distributes it (R323). -/
def setBuild (s : State) (b : Nat) : State :=
  let s := { s with mot := { s.mot with bstate := b } }
  s.distribute 0x0A s.stateBody

/-- R167 ABANDON, R30: the planned swaths after the first `keep` are abandoned: a squash from their first line, void
orders for what has been transmitted, and the untaken lines withheld with `kind`. -/
def abandon (s : State) (keep kind : Nat) : State :=
  match s.planned.drop keep with
  | [] => s
  | w :: ws =>
    let s := s.squash 7 s.allRidges w.firstOrd kind
    let u := s.firstUntx
    let s := (w :: ws).foldl (fun s v => s.withholdLines v (max u v.firstOrd) (v.firstOrd + planLen v.plan) kind) s
    let s := s.flushRuns (fun _ => true)
    let s := s.cutOrdinals w.firstOrd (max w.firstOrd u)
    if keep = 0 && s.mot.current.isSome then
      { s with crn := { s.crn with lastPlan := s.mot.current.map Swath.plan },
               mot := { s.mot with current := none, queue := [], colDue := true } }
    else { s with mot := { s.mot with queue := s.mot.queue.take (keep - s.mot.current.toList.length) } }

/-- R483: a cause with which the build state becomes HELD: an interlock cause or a fault with GATE. -/
def heldCause (s : State) : Bool := s.saf.interlock || s.saf.discrep || s.saf.fault

/-- R98: homing in progress ends with HELD: the axes not yet DONE stop and read NOT_HOMED. -/
def endHoming (s : State) : State :=
  let s := s.mot.homing.foldl (fun s a =>
    (s.updAxis a (fun x => { x with hstate := 0, stopping := x.moving, replan := x.moving })).setReg (Reg.PLN_HSTAT a) 0) s
  { s with mot := { s.mot with homing := [] } }

/-- R98, R167, R287: entry to HELD; the swaths are abandoned with the kind of the gate's closure, or as STANDSTILL when no
gate closed. -/
def enterHeld (s : State) : State :=
  let kind := if !s.heldCause then 0x04 else if s.saf.closedIlk then 0x01 else 0x02
  let b := s.mot.bstate
  let s := s.abandon 0 kind
  ({ s with mot := { s.mot with heldHomed := b = Build.READY || b = Build.LAYER || b = Build.CLOSING } }.setBuild Build.HELD).endHoming

/-- R98: the gate is permitted again: HELD ends in READY, or in UNHOMED when homing was lost. -/
def leaveHeld (s : State) : State :=
  if s.mot.bstate = Build.HELD && s.permitted then
    { s with mot := { s.mot with layer := none } }.setBuild (if s.mot.heldHomed then Build.READY else Build.UNHOMED)
  else s

/-- A module that mirrors its decisions, or follows mirrored ones. -/
def inPair (s : State) : Bool := s.twn.role = 2 || s.follows || (s.twn.role = 1 && s.twn.phase != 0)

/-- R22 steps 1 to 3: from line `n`, of ordinal `q`, to the last line of its swath the positions of a context are
withheld, and lines rendered in the ridges of the columns are squashed. -/
def quotaHold (s : State) (x : Nat) (p : SwathPlan) (n : Int) (q : Nat) (cols : Option (Nat × Nat)) : State :=
  let s := { s with scree := { s.scree with
      holds := { ctx := x, layer := p.layer, swath := p.swath, first := n, last := planLine p (planLen p - 1) } :: s.scree.holds } }
  match cols with
  | none => s
  | some (c0, c1) =>
    let rs := maskOf 16 (ridgesOf c0 c1)
    let rendered := s.crn.window.any (fun l => q ≤ l.ord &&
      (l.ridges.zipIdx).any (fun k => bit rs k.2 && decide (1 ≤ k.1.st) && decide (k.1.st ≤ 3)))
    -- in a pair both modules squash alike, so neither looks at what it has rendered (log entry 150)
    if rendered || s.inPair then s.squash 3 rs q 0 else s

/-- R22: the quota action of a context.  With no line planned that is untransmitted it is due, and acts on the next swath
planned. -/
def quotaAct (s : State) (x : Nat) : State :=
  match s.firstUntxAt with
  | some (p, some n) =>
    let last := planLine p (planLen p - 1)
    let cols := s.regionCols p (s.stream x).region
    let s := { s with scree := { s.scree with due := s.scree.due.filter (· != x) } }
    let s := s.quotaHold x p n s.firstUntx cols
    let s := match cols with
      | none => s
      | some (c0, c1) => s.screeWrite
          { kind := 0x13, ctx := x, rowmask := 0xFFFF, layer := p.layer, swath := p.swath, firstCol := c0,
            lastCol := c1, source := 0, firstLine := min n last, lastLine := max n last, count := 0xFFFFFFFF, seq := 0 }
    s.raiseFor Src.FCO_SCREE_QUOTA x
  | _ => { s with scree := { s.scree with due := x :: s.scree.due.filter (· != x) } }

/-- R22, R164: the QUOTA entry mirrored to a standby gives the U that the owner decided. -/
def quotaFollows (s : State) (e : ScreeEntry) : State :=
  if e.kind != 0x13 || !s.follows then s
  else
    match s.planned.find? (fun w => w.plan.layer = e.layer && w.plan.swath = e.swath) with
    | none => s
    | some w =>
      let n := if w.plan.dir = 0 then e.firstLine else e.lastLine
      let k := s.ctx e.ctx
      let s := if k.quota != 0 && k.quota ≤ k.qused && !s.scree.acted.contains e.ctx then
          { s with scree := { s.scree with acted := e.ctx :: s.scree.acted } }
        else s
      (s.quotaHold e.ctx w.plan n (w.firstOrd + (planIndex w.plan n).toNat) (some (e.firstCol, e.lastCol))).raiseFor
        Src.FCO_SCREE_QUOTA e.ctx

/-- R22: every context that has reached its quota in the layer and has not acted, and each that is due; the owner decides
(R164). -/
def quotas (s : State) : State :=
  if s.follows then s
  else (List.range 64).foldl (fun s x =>
    let k := s.ctx x
    if x != 0 && k.quota != 0 && k.quota ≤ k.qused && !s.scree.acted.contains x then
      { s with scree := { s.scree with acted := x :: s.scree.acted } }.quotaAct x
    else if s.scree.due.contains x then s.quotaAct x
    else s) s

/-- R193: PCLK of the last shot of the running test. -/
def lastShot (s : State) (t : TestState) : Nat := t.t0 + (t.shots.length - 1) * s.rfld Reg.ACT_SHOTS 0 12

/-- R198: the test aborts: its gate results are discarded. -/
def abortTest (s : State) : State :=
  match s.act.test with
  | none => s
  | some t =>
    if t.aborted then s
    else (({ s with act := { s.act with test := some { t with aborted := true, edges := [] } } }).event Reg.ACT_EVENT 1).raise
      Src.ACT_TEST_ABORT

/-- R193: the shots since the last look are counted, where the fire gate stood open. -/
def countShots (s : State) : State :=
  match s.act.test with
  | none => s
  | some t =>
    let pitch := s.rfld Reg.ACT_SHOTS 0 12
    let n := (s.clk.pclk - t.t0 + (pitch - 1)) / pitch
    let shot := if t.gate then ((t.fires.drop t.next).take (n - t.next)).sum else 0
    { s with act := { s.act with test := some { t with next := max t.next n, gate := s.permitted } } }.count Reg.ACT_SHOTS_FIRED shot

/-- R198: the gate closes during the shots. -/
def testGate (s : State) : State :=
  match s.act.test with
  | none => s
  | some t =>
    let s := s.countShots
    if !s.permitted && s.clk.pclk ≤ s.lastShot t then s.abortTest else s

/-- R98: CLOSING ends when the last queued swath is complete: every line of it is closed. -/
def closeLayer (s : State) : State :=
  if s.mot.bstate = Build.CLOSING && s.mot.current.isNone && s.mot.queue.isEmpty &&
      !s.crn.window.any (fun l => !l.dropped && l.ridges.any (fun k => k.st != 7)) then
    { s with mot := { s.mot with layer := none } }.setBuild Build.READY
  else s

/-! ## Bodies and LIMIT (R64, R66) -/

/-- R66, R95, R143: LIMIT is held back while the stream is closed or halted, while its inflated bodies exceed PLAIN_MAX, and
while a full post table holds it. -/
def limitHeld (st : Stream) (d : StreamDesc) : Bool :=
  !st.opened || st.halted || decide (d.plainMax * 1048576 < (st.bodies.map Body.bytes).sum) || st.postHeld

/-- R64: JOB_LIMIT for the buffers now free.  The segment that arrives is JOB_NEXT's own. -/
def raiseLimit (s : State) (x : Nat) : State :=
  let st := s.stream x
  match st.desc with
  | none => s
  | some d =>
    let limit := BitVec.ofNat 32 ((s.reg (Reg.JOB_NEXT x)).toNat + d.credits - st.full.length - 1)
    if limitHeld st d || limit = s.reg (Reg.JOB_LIMIT x) then s
    else (s.setReg (Reg.JOB_LIMIT x) limit).sendSegReq x false

/-- R66: every swath of the layer has completed and the control context has begun a later one. -/
def layerOver (s : State) (layer : Nat) : Bool :=
  (s.mot.lastLayer.any (fun l => decide (layer < l))) && !s.planned.any (fun w => w.plan.layer = layer) &&
    !s.crn.window.any (fun l => l.layer = layer && !l.dropped && l.ridges.any (fun k => decide (k.st < 5)))

/-- R66: inflated bodies of layers that are over are freed, with their posts. -/
def freeBodies (s : State) : State :=
  (List.range 64).foldl (fun s x =>
    let old := (s.stream x).bodies.filter (fun b => s.layerOver b.layer)
    if old.isEmpty then s
    else
      let s := s.updStream x (fun st => { st with bodies := st.bodies.filter (fun b => !old.any (fun o => o.layer = b.layer)) })
      let s := { s with rdg := { s.rdg with posts := s.rdg.posts.filter (fun p => !(p.ctx = x && old.any (fun o => o.layer = p.layer))) } }
      s.raiseLimit x) s

/-- What follows at once, but for the gate outputs. -/
def consequences (s : State) : State :=
  if s.fco.resetDue then s.crstReset
  else
    let s := if s.heldCause && s.mot.bstate != Build.HELD then s.enterHeld else s
    let s := (s.leaveHeld.testGate.quotas).lineEvents.freeLines.closeLayer.freeBodies
    if s.fco.resetDue then s.crstReset
    else if s.heldCause && s.mot.bstate != Build.HELD then s.enterHeld.lineEvents.freeLines
    else s

/-- What follows at once; the gate outputs follow the causes (R483). -/
def settle (s : State) : State := s.consequences.settleGate

end State

/-- A meaning's answer: the state after what follows at once. -/
def done (s : State) : Out := .next s.settle

end Sys2Proof.Machine
end

