-- ==== Sys2Proof/Machine/PosOps.lean ====
section
/-! DEFINITION. Position units: interpolated position and speed, edges, faults, and the guard's own edge count (R269 to
R276, R490). -/

namespace Sys2Proof.Machine

/-- POS_CFG.MODE: 1 QUAD, 2 SINCOS, 3 SSI. -/
def posMode (s : State) (u : Nat) : Nat := s.rfld (Reg.POS_CFG u) 0 2

/-- R271: the speed at PCLK `t`, in 2⁻²⁴ counts per PCLK: no more than one count in the time since the last edge, once
that exceeds the latest interval. -/
def PosUnit.speedAt (p : PosUnit) (ssi : Bool) (t : Nat) : Nat :=
  if !p.speedValid then 0
  else if ssi then p.speed
  else
    match p.hist with
    | a :: b :: _ => if a.1 - b.1 < t - a.1 then min p.speed (2 ^ 24 / (t - a.1)) else p.speed
    | _ => p.speed

/-- R271, R273, R274: the interpolated position at PCLK `t`, in 2⁻⁸ counts. -/
def PosUnit.posAt (p : PosUnit) (mode t : Nat) : Int :=
  if p.fault then p.heldX
  else if mode = 3 then
    let lim := 256 * p.ssiDiff.natAbs
    let d := min lim (((t - p.ssiAt) * p.speed) >>> 16)
    256 * p.ssiPos + (if p.ssiDiff < 0 then -(d : Int) else d)
  else if mode = 2 then
    let d := ((t - p.angleAt) * p.speedAt false t) >>> 16
    256 * p.count + (p.angle % 256 : Nat) + (if p.neg then -(d : Int) else d)
  else
    let since := match p.hist with
      | a :: _ => t - a.1
      | [] => 0
    let d := min 255 ((since * p.speedAt false t) >>> 16)
    if p.neg then 256 * p.count + 255 - (d : Int) else 256 * p.count + d

/-- R271, R272: an edge of the count at PCLK `t`. -/
def PosUnit.edge (p : PosUnit) (neg : Bool) (t : Nat) : PosUnit :=
  let c := if neg then p.count - 1 else p.count + 1
  if !p.hist.isEmpty && p.neg != neg then { p with count := c, neg := neg, hist := [(t, neg)], speedValid := false, speed := 0 }
  else
    let h := ((t, neg) :: p.hist).take 9
    let n := h.length - 1
    let t0 := (h.getLast?.map Prod.fst).getD t
    { p with count := c, neg := neg, hist := h, speedValid := n != 0,
             speed := if n = 0 then 0 else n * 2 ^ 24 / max 1 (t - t0) }

/-- R285: the count is shifted at PCLK `t`; the edge history starts again, and the shift is no crossing under R33. -/
def PosUnit.shift (p : PosUnit) (d : Int) (mode t : Nat) : PosUnit :=
  let q := { p with count := p.count + d, ssiPos := p.ssiPos + d, hist := [], speedValid := false, speed := 0 }
  { q with changeAt := t, beforeX := q.posAt mode t }

/-- R273: the angle of a sample pair in 1/1,024 of a period, by the sine table. -/
def angleOf (sn cs : Int) : Nat :=
  let side := fun k : Nat => sn * cosPhase (64 * k % 65536) - cs * sinPhase (64 * k % 65536)
  ((List.range 1024).find? (fun k => decide (0 ≤ side k) && decide (side (k + 1) < 0))).getD 0

/-- R274: a Gray-coded value in binary. -/
def grayValue (n v : Nat) : Nat := (List.range n).foldl (fun x i => x ^^^ (v >>> (i + 1))) v

namespace State

/-- R269: the position of unit `u` now, 40 bits. -/
def posX (s : State) (u : Nat) : Int := sInt 40 (uNat 40 ((s.posu u).posAt (posMode s u) s.clk.pclk))

/-- R271: its speed now, in 2⁻²⁴ counts per PCLK. -/
def posSpeed (s : State) (u : Nat) : Nat := (s.posu u).speedAt (posMode s u = 3) s.clk.pclk

/-- R33: the position of unit `u` at the PCLK sample before this one. -/
def prevX (s : State) (u : Nat) : Int :=
  let p := s.posu u
  sInt 40 (uNat 40 (if p.changeAt = s.clk.pclk then p.beforeX else p.posAt (posMode s u) (s.clk.pclk - 1)))

/-- R33: the scan position crosses a grid point at this sample, in the firing direction of a swath. -/
def crosses (s : State) (dir : Nat) (x : Int) : Bool :=
  if dir = 0 then decide (s.prevX 0 < x) && decide (x ≤ s.posX 0) else decide (x ≤ s.prevX 0) && decide (s.posX 0 < x)

/-- A change of a unit's position at PCLK `t`; the sample before it stays known (R33). -/
def movePos (s : State) (u t : Nat) (f : PosUnit → PosUnit) : State :=
  let mode := posMode s u
  s.updPos u (fun p =>
    if p.changeAt = t then f p else { f p with changeAt := t, beforeX := p.posAt mode (t - 1) })

/-- R490: the strobe guard counts the edges of POS0 by itself. -/
def guardEdge (s : State) (u : Nat) (neg : Bool) (t : Nat) : State :=
  if u = 0 then
    { s with saf := { s.saf with guardEdges := ((t, neg) :: s.saf.guardEdges).take 3,
                                 guardCount := if neg then s.saf.guardCount - 1 else s.saf.guardCount + 1 } }
  else s

/-- An edge of unit `u`: its count and speed, and the guard's. -/
def posEdge (s : State) (u : Nat) (neg : Bool) (t : Nat) : State :=
  if (s.posu u).fault then s.guardEdge u neg t
  else (s.movePos u t (fun p => p.edge neg t)).guardEdge u neg t

/-- A major fault of a position unit: it holds its position (R269). -/
def posFault (s : State) (u src : Nat) : State :=
  let x := s.posX u
  ((s.updPos u (fun p => { p with fault := true, heldX := x })).event Reg.POS_EVENT (12 + u)).raise src

/-- R490: the guard lets a fire pulse of a row pass. -/
def guardPasses (s : State) (r dir : Nat) : Bool :=
  let max := (s.reg Reg.SAF_EDGEMAX).toNat
  let firing := dir != 0
  let speedOk := match s.saf.guardEdges with
    | a :: b :: c :: _ => a.1 - b.1 ≤ max && b.1 - c.1 ≤ max && a.2 = firing && b.2 = firing
    | _ => false
  let least : Int := 3 * s.dose.grid.pitch / 2 ^ 18
  let advanced := match nth s.saf.guardPass r none with
    | none => true
    | some c => decide (least ≤ (if firing then c - s.saf.guardCount else s.saf.guardCount - c))
  speedOk && s.mot.spanOn && advanced

end State

end Sys2Proof.Machine
end

