-- ==== Sys2Proof/Machine/Flags.lean ====
section
/-! DEFINITION. The results and flags of the sequencer's arithmetic (R343, R344). -/

namespace Sys2Proof.Machine

/-- A result with the flags it sets; `none` leaves a flag as it was. -/
structure Alu where
  val : BitVec 64
  z : Option Bool
  n : Option Bool
  c : Option Bool
  v : Option Bool
  deriving DecidableEq, Repr

/-- Z and N of a result. -/
def aluZN (r : BitVec 64) : Alu := { val := r, z := some (r = 0), n := some (bit r 63), c := none, v := none }

/-- C is the carry out of bit 63; V is signed overflow. -/
def aluAdd (a b : BitVec 64) : Alu :=
  let r := a + b
  { aluZN r with c := some (decide (2 ^ 64 ≤ a.toNat + b.toNat)), v := some (bit a 63 = bit b 63 && bit r 63 != bit a 63) }

/-- C is the absence of a borrow. -/
def aluSub (a b : BitVec 64) : Alu :=
  let r := a - b
  { aluZN r with c := some (decide (b.toNat ≤ a.toNat)), v := some (bit a 63 != bit b 63 && bit r 63 != bit a 63) }

def aluAnd (a b : BitVec 64) : Alu := aluZN (a &&& b)

def aluOr (a b : BitVec 64) : Alu := aluZN (a ||| b)

def aluXor (a b : BitVec 64) : Alu := aluZN (a ^^^ b)

/-- Shifts by `n` from 0 to 63: C is the last bit shifted out, unchanged when `n` is 0. -/
def aluShl (a : BitVec 64) (n : Nat) : Alu :=
  { aluZN (a <<< n) with c := if n = 0 then none else some (bit a (64 - n)) }

def aluShr (a : BitVec 64) (n : Nat) : Alu :=
  { aluZN (a >>> n) with c := if n = 0 then none else some (bit a (n - 1)) }

def aluSar (a : BitVec 64) (n : Nat) : Alu :=
  { aluZN (a.sshiftRight n) with c := if n = 0 then none else some (bit a (n - 1)) }

def aluMul (a b : BitVec 64) : Alu := aluZN (a * b)

def aluMulhu (a b : BitVec 64) : Alu := aluZN (BitVec.ofNat 64 (a.toNat * b.toNat / 2 ^ 64))

def aluMulhs (a b : BitVec 64) : Alu := aluZN (BitVec.ofInt 64 (a.toInt * b.toInt / 2 ^ 64))

/-- A divisor of 0 gives all ones and sets V. -/
def aluDivu (a b : BitVec 64) : Alu :=
  if b = 0 then { aluZN (BitVec.allOnes 64) with v := some true }
  else { aluZN (BitVec.ofNat 64 (a.toNat / b.toNat)) with v := some false }

/-- Truncated toward 0; −2⁶³ by −1 gives −2⁶³ and sets V. -/
def aluDivs (a b : BitVec 64) : Alu :=
  if b = 0 then { aluZN (BitVec.allOnes 64) with v := some true }
  else if a = BitVec.ofNat 64 (2 ^ 63) && b = BitVec.allOnes 64 then { aluZN a with v := some true }
  else { aluZN (BitVec.ofInt 64 (Int.tdiv a.toInt b.toInt)) with v := some false }

/-- A divisor of 0 gives the dividend and sets V. -/
def aluRemu (a b : BitVec 64) : Alu :=
  if b = 0 then { aluZN a with v := some true }
  else { aluZN (BitVec.ofNat 64 (a.toNat % b.toNat)) with v := some false }

/-- The flags of a context after a result. -/
def Alu.setFlags (r : Alu) (k : Ctx) : Ctx :=
  { k with z := r.z.getD k.z, n := r.n.getD k.n, c := r.c.getD k.c, v := r.v.getD k.v }

/-- R344: the conditions of B. -/
def condHolds (k : Ctx) (cond : Nat) : Bool :=
  match cond with
  | 0 => true
  | 1 => k.z
  | 2 => !k.z
  | 3 => k.c
  | 4 => !k.c
  | 5 => k.n
  | 6 => !k.n
  | 7 => k.v
  | 8 => !k.v
  | 9 => k.c && !k.z
  | 10 => !k.c || k.z
  | 11 => k.n = k.v
  | 12 => k.n != k.v
  | 13 => !k.z && k.n = k.v
  | _ => k.z || k.n != k.v

end Sys2Proof.Machine
end

