-- ==== Sys2Proof/Machine/Trap.lean ====
section
/-! DEFINITION. Traps, the NMI, scheduling and commands to contexts (R334 to R356), and what an access to control space
answers. -/

namespace Sys2Proof.Machine

/-- What an access to control space answers (R6, R11). -/
inductive RegResult where
  | ok
  | absent
  | perm
  deriving DecidableEq, Repr

/-! ## Trap causes (R348) -/

namespace Cause

def ILLEGAL : Nat := 1
def ABSENT : Nat := 2
def XLT_FAULT : Nat := 3
def PERM : Nat := 4
def UNCORR : Nat := 5
def ALIGN : Nat := 6
def WATCHDOG : Nat := 8
def BUSERR : Nat := 9

end Cause

/-- FLAGS [3:0] of a context: Z, N, C, V. -/
def Ctx.flags (k : Ctx) : BitVec 4 := setBit (setBit (setBit (setBit 0 0 k.z) 1 k.n) 2 k.c) 3 k.v

def Ctx.setFlagBits (k : Ctx) (f : BitVec 4) : Ctx := { k with z := bit f 0, n := bit f 1, c := bit f 2, v := bit f 3 }

namespace State

/-- R349: a context takes a trap, or halts with TRAP_HALT when it is in a trap already or has no vector.  `tpc` is the
address it records. -/
def trapAt (s : State) (c cause : Nat) (tpc addr : BitVec 64) (load : Bool) : State :=
  let k := s.ctx c
  let halts := k.intrap || k.tvec = 0
  let s := s.updCtx c (fun k =>
    let k := { k with tpc := tpc, tcause := cause, taddr := addr, tload := load }
    if halts then k
    else { k with tflags := Ctx.flags k, tbeat := k.beat, intrap := true, pc := k.tvec, beat := 0 })
  if halts then ((s.haltCtx c).event Reg.SEQ_EVENT 1).raiseFor Src.SEQ_TRAP_HALT c
  else s.count Reg.SEQ_TRAPS 1

/-- A trap of the instruction at PC. -/
def trap (s : State) (c cause : Nat) (addr : BitVec 64) : State := s.trapAt c cause (s.ctx c).pc addr false

/-- R11, R356: what the writer of a register sees when the write is not permitted: PERM, in the context that writes. -/
def permTrap (s : State) (w addr : Nat) : State :=
  if w != 0 && (s.ctx w).rstate = 2 then s.trap w Cause.PERM (BitVec.ofNat 64 addr) else s

/-- R6: an access to an absent unit's block: ABSENT, in the context that makes it. -/
def absentTrap (s : State) (w addr : Nat) : State :=
  if w != 0 && (s.ctx w).rstate = 2 then s.trap w Cause.ABSENT (BitVec.ofNat 64 addr) else s

/-- What a context sees of its write (R6, R11). -/
def wrote (z : State × RegResult) (w addr : Nat) : State :=
  match z.2 with
  | .ok => z.1
  | .perm => z.1.permTrap w addr
  | .absent => z.1.absentTrap w addr

/-! ## Scheduling (R334 to R336) -/

/-- The READY context of highest priority, the longest ready among equals. -/
def nextReady (s : State) : Option Nat :=
  s.seq.ready.foldl (fun (b : Option Nat) c => match b with
    | none => some c
    | some d => if (s.ctx d).prio < (s.ctx c).prio then some c else b) none

/-- R334: a free pair in service takes the next READY context. -/
def dispatchOne (s : State) : State :=
  match s.seq.pairs.findIdx? (fun p => p.inService && p.running = 0), s.nextReady with
  | some p, some c =>
    let s := s.updCtx c (fun k => { k with rstate := 2 })
    let s := { s with seq := { s.seq with
        ready := s.seq.ready.filter (· != c),
        pairs := s.seq.pairs.modify p (fun q => { q with running := c, used := 0 }) } }
    s.count Reg.SEQ_SWITCHES 1
  | _, _ => s

/-- R335: gives up the pair to a READY context of equal priority, or begins a new quantum. -/
def yieldCtx (s : State) (c : Nat) : State :=
  if s.seq.ready.any (fun d => (s.ctx d).prio = (s.ctx c).prio) then s.switchOut c
  else { s with seq := { s.seq with pairs := s.seq.pairs.map (fun p => if p.running = c then { p with used := 0 } else p) } }

/-- R336: the running context to pre-empt: the lowest priority, and among equals the furthest into its quantum. -/
def preemptVictim (s : State) : Option Nat :=
  let run := (s.seq.pairs.filter (fun p => p.running != 0))
  (run.foldl (fun (b : Option Pair) p => match b with
    | none => some p
    | some q =>
      let a := (s.ctx p.running).prio
      let d := (s.ctx q.running).prio
      if a < d || (a = d && q.used < p.used) then some p else b) none).map Pair.running

/-- CCLK of the quantum that an instruction takes (log entry 15). -/
def spend (s : State) (c n : Nat) : State :=
  { s with seq := { s.seq with pairs := s.seq.pairs.map (fun p => if p.running = c then { p with used := p.used + n } else p) } }

/-! ## Pairs that fail (R329, R502) -/

/-- A pair leaves service for good; the context it runs returns to READY with its last completed state. -/
def pairLeaves (s : State) (pair : Nat) : State :=
  let c := ((s.seq.pairs[pair]?).map Pair.running).getD 0
  let s := if c = 0 then s else s.switchOut c
  { s with seq := { s.seq with
      pairs := s.seq.pairs.modify pair (fun p => { p with inService := false }),
      retired := setBit s.seq.retired pair true } }

/-- NO_PAIR once every pair is retired. -/
def lastPair (s : State) : State := if s.seq.retired = 15 then s.raise Src.SEQ_NO_PAIR else s

/-! ## Commands to contexts (R332, R356) -/

/-- R332: to READY from START, with registers, flags, INTRAP, EVPEND and TIMER cleared. -/
def startCtx (s : State) (c : Nat) : State :=
  let s := (s.freePair c).updCtx c (fun k =>
    { k with k := List.replicate 16 0, pc := k.start, z := false, n := false, c := false, v := false, intrap := false,
             innmi := false, beat := 0, evpend := 0, wmask := 0, timer := 0, wdLeft := k.wdog })
  (s.makeReady c).saveCtx c

/-- R356: SEQ_CCMD. -/
def ccmd (s : State) (x op value : Nat) : State :=
  let k := s.ctx x
  if x = 0 || x = s.super || k.start = 0 || (k.rstate = 0 && op != 3) || op = 0 || 4 < op then s.event Reg.SEQ_EVENT 3
  else if op = 1 then s.haltCtx x
  else if op = 2 then (if k.rstate = 4 then s.makeReady x else s)
  else if op = 3 then s.startCtx x
  else s.updCtx x (fun k => { k with prio := value % 8 })

end State

/-! ## Guards -/

/-- Start-up has released the clocks and not failed: the units run. -/
def whenClocked (s : State) (o : State → State) : Out := if s.clk.released && !s.boot.failed then done (o s) else .next s

/-- The module is in READY (R504). -/
def whenReady (s : State) (o : State → State) : Out := if s.running then done (o s) else .next s

end Sys2Proof.Machine
end

