-- ==== Sys2Proof/Machine/Ridges.lean ====
section
/-! DEFINITION. Ridges: the post table, band fetches with their faults, slices and the halo (R89, R137 to R151). -/

namespace Sys2Proof.Machine

/-- What a fetch through the translation unit found; a fault and a wait come with the bytes of the lines before. -/
inductive Fetched where
  | got (bs : Bytes)
  | fault (bs : Bytes) (va : Nat) (f : XltFault)
  | uncorr
  | waits (bs : Bytes) (ch : Nat)
  deriving DecidableEq, Repr

/-- The same with bytes fetched before. -/
def Fetched.after (pre : Bytes) : Fetched → Fetched
  | .got bs => .got (pre ++ bs)
  | .fault bs va f => .fault (pre ++ bs) va f
  | .uncorr => .uncorr
  | .waits bs ch => .waits (pre ++ bs) ch

/-- What a fetch pass has gathered: records and their bytes, the work left, the contexts at whose fault it has stopped,
those stopped by an uncorrectable read, a DRAM channel whose exit from self-refresh it waits for. -/
structure BandFetch where
  recs : List CacheRec
  bytes : Nat
  left : List PostWork
  stops : List FetchStop
  bad : List Nat
  wait : Option Nat
  deriving DecidableEq, Repr

namespace State

/-! ## Bands (R89, R141, R144) -/

/-- The band of a line within its swath: its least and greatest line. -/
def bandLines (p : SwathPlan) (n : Int) : Int × Int := (max p.lineFirst (n / 64 * 64), min p.lineLast (n / 64 * 64 + 63))

/-- The ordinal of the band's first line in firing order. -/
def bandFirst (w : Swath) (n : Int) : Nat :=
  let b := bandLines w.plan n
  w.firstOrd + (planIndex w.plan (if w.plan.dir = 0 then b.1 else b.2)).toNat

/-- The swath, ordinal and line a ridge renders next, in a planned swath. -/
def ridgeAt (s : State) (i : Nat) : Option (Swath × Nat × Int) :=
  let q := (s.ridge i).nextOrd
  (s.swathAt q).map (fun w => (w, q, planLine w.plan (q - w.firstOrd)))

/-- R144: the band's sample rectangle: XMIN, XMAX, YMIN, YMAX, inclusive. -/
def sampleRect (s : State) (i : Nat) (p : SwathPlan) (n : Int) : Int × Int × Int × Int :=
  let b := bandLines p n
  let rl := s.dose.grid.rowline
  let c0 : Int := 4096 * i
  (p.indexOffset + 256 * (c0 - 1), p.indexOffset + 256 * (c0 + 4097) - 1,
   256 * (b.1 + rl.foldl min (nth rl 0 0)), 256 * (b.2 + rl.foldl max (nth rl 0 0) + 1) - 1)

def rectMeets (r : Int × Int × Int × Int) (x0 x1 y0 y1 : Int) : Bool :=
  decide (x0 ≤ r.2.1) && decide (r.1 ≤ x1) && decide (y0 ≤ r.2.2.2) && decide (r.2.2.1 ≤ y1)

/-- R89: the rectangle meets the region of a context in the layer. -/
def rectMeetsRegion (r : Int × Int × Int × Int) (g : Region) (layer : Nat) : Bool :=
  decide (g.layer0 ≤ layer) && decide (layer ≤ g.layer1) && decide (g.col0 ≤ g.col1) && decide (g.line0 ≤ g.line1) &&
    rectMeets r (256 * g.col0) (256 * (g.col1 + 1) - 1) (256 * g.line0) (256 * (g.line1 + 1) - 1)

/-- R89, R143: the context has passed GEOM_END for the layer. -/
def geomEnded (s : State) (x layer : Nat) : Bool :=
  (s.stream x).passedEnd.contains layer || s.rdg.posts.any (fun p => p.ctx = x && p.layer = layer && p.geomEnd)

/-- R89: a context whose GEOM_END the band still waits for. -/
def bandWaits (s : State) (i : Nat) (p : SwathPlan) (n : Int) : List Nat :=
  let r := s.sampleRect i p n
  (List.range 64).filter (fun x => x != 0 && rectMeetsRegion r (s.stream x).region p.layer && !s.geomEnded x p.layer)

/-! ## Fetching (R144, R145, R149) -/

/-- Bytes at a virtual address of a context, 64-byte line by line; `fuel` bounds the lines. -/
def fetchVa : Nat → State → Nat → Nat → Nat → State × Fetched
  | 0, s, _, _, _ => (s, .got [])
  | fuel + 1, s, c, va, n =>
    if n = 0 then (s, .got [])
    else
      let m := min n (64 - va % 64)
      match s.translate c va .read .ridge with
      | (s, .error f) => (s, .fault [] va f)
      | (s, .ok pa) =>
        match s.sleeping pa with
        | some ch => (s, .waits [] ch)
        | none =>
        match (s.movedLines 0 pa m).readMem .ridge c pa m with
        | (s, .ok bs) =>
          let z := fetchVa fuel s c (va + m) (n - m)
          (z.1, z.2.after bs)
        | (s, _) => (s, .uncorr)

/-- R146: the first `n` bytes at `va`, of which `pre` have been fetched. -/
def bandRead (s : State) (c va n : Nat) (pre : Bytes) : State × Fetched :=
  let z := fetchVa (n / 64 + 2) s c (va + pre.length) (n - pre.length)
  (z.1, z.2.after pre)

/-- R142: the bytes of a directory entry's record.  An entry that names none, by a length out of range, has none (log
entry 18). -/
def fetchRecord (s : State) (c : Nat) (e pre : Bytes) : State × Fetched :=
  let va := fieldLE e 24 8 + fieldLE e 0 4
  match if 8 ≤ pre.length then (s, .got pre) else s.bandRead c va 8 pre with
  | (s, .got h) =>
    let n := fieldLE h 4 4
    if n < 8 || 0x4000000 < n then (s, .got []) else s.bandRead c va n h
  | z => z

/-- What a directory entry's record is; one that is no geometry record renders nothing (log entry 18). -/
def cacheRec (c : Nat) (e bs : Bytes) (pos : Nat) : Option CacheRec :=
  (parseGeo (fieldLE e 4 1) bs).map (fun g =>
    { ctx := c, geo := g, xmin := fieldLEs e 8 4, xmax := fieldLEs e 12 4, ymin := fieldLEs e 16 4, ymax := fieldLEs e 20 4,
      at_ := pos, len := bs.length })

/-- The bytes of a geometry cache half (R144). -/
def halfBytes : Nat := 245760

/-- R144: the half of ridge `i`'s geometry cache that the fetch pass fills, the one that is not in use (log entry 147). -/
def fillHalf (s : State) (i : Nat) : Nat :=
  Config.geomPool + 0x78000 * (s.ridge i).phys + (if (s.ridge i).upper then 0 else halfBytes)

/-- The records lie one after another in the half; one that goes past its end begins a further pass at its start. -/
def cachePlace (used len : Nat) : Nat := if used % halfBytes + len ≤ halfBytes then used % halfBytes else 0

/-- The directory entry that a fetch pass is at. -/
def fetchEntry (s : State) (w : PostWork) : State × Fetched :=
  match w.dir with
  | some e => (s, .got e)
  | none => s.bandRead w.post.ctx (w.post.dirVa + 32 * w.entry) 32 []

/-- A post's entries from the work's entry on, `left` of them, until a fault or an uncorrectable read stops its context
(R145, R149). -/
def fetchPost : Nat → State → Nat → (Int × Int × Int × Int) → Nat → PostWork → BandFetch → State × BandFetch
  | 0, s, _, _, _, _, b => (s, b)
  | left + 1, s, half, r, q, w, b =>
    let p := w.post
    match s.fetchEntry w with
    | (s, .fault _ va f) =>
      (s, { b with left := b.left ++ [w], stops := b.stops ++ [{ ctx := p.ctx, ord := q, va := va, kind := f.kind, level := f.level }] })
    | (s, .uncorr) => (s, { b with bad := b.bad ++ [p.ctx] })
    | (s, .waits _ ch) => (s, { b with left := b.left ++ [w], wait := some ch })
    | (s, .got e) =>
      let next : PostWork := { w with entry := w.entry + 1, dir := none, got := [] }
      if rectMeets r (fieldLEs e 8 4) (fieldLEs e 12 4) (fieldLEs e 16 4) (fieldLEs e 20 4) then
        match s.fetchRecord p.ctx e w.got with
        | (s, .fault g va f) =>
          (s, { b with left := b.left ++ [{ w with dir := some e, got := g }],
                       stops := b.stops ++ [{ ctx := p.ctx, ord := q, va := va, kind := f.kind, level := f.level }] })
        | (s, .uncorr) => (s, { b with bad := b.bad ++ [p.ctx] })
        | (s, .waits g ch) => (s, { b with left := b.left ++ [{ w with dir := some e, got := g }], wait := some ch })
        | (s, .got bs) =>
          let pos := half + cachePlace b.bytes bs.length
          fetchPost left (s.wr pos (bs.take halfBytes)) half r q next
            { b with recs := b.recs ++ (cacheRec p.ctx e bs pos).toList, bytes := b.bytes + bs.length }
      else fetchPost left s half r q next b

/-- R144, R145: a fetch pass goes on with the work that is left; a context that has stopped fetches no more. -/
def fetchBand (s : State) (half : Nat) (r : Int × Int × Int × Int) (q : Nat) (p : BandPass) (stopped : List Nat) :
    State × BandFetch :=
  p.work.foldl (fun (a : State × BandFetch) w =>
    let c := w.post.ctx
    if a.2.bad.contains c then a
    else if a.2.wait.isSome || stopped.contains c || a.2.stops.any (fun f => f.ctx = c) then
      (a.1, { a.2 with left := a.2.left ++ [w] })
    else fetchPost (w.post.count - w.entry) a.1 half r q w a.2)
    (s, { recs := p.recs, bytes := p.bytes, left := [], stops := [], bad := [], wait := none })

/-- R145: a fetch pass has stopped for a context: its fault is reported.  The ridge's one record and slot hold the oldest
fault that is pending; a later one waits (log entry 19). -/
def bandFault (s : State) (i : Nat) (z : FetchStop) : State :=
  let f : XltFault := { kind := z.kind, level := z.level }
  let first := (s.ridge i).stops.isEmpty
  let s := s.updRidge i (fun g => { g with stops := g.stops ++ [z] })
  let s := if first then s.slotFault (36 + i) z.ctx z.va f .read else (s.faultRaised z.ctx z.va f).raiseEvent z.ctx 14
  (s.event Reg.RDG_EVENT 0).raiseFor Src.RDG_BAND_TRANSLATION_FAULT z.ctx

/-- R148, R149: from the band's first line to the end of the swath, the positions that the context's region covers are
voided in a ridge. -/
def voidToEnd (s : State) (i x : Nat) (kind : Nat) (w : Swath) (q : Nat) : State :=
  s.updRidge i (fun g => { g with voids := { kind := kind, ctx := x, act := none, swOrd := w.firstOrd, fromOrd := q } :: g.voids })

/-- Whether a ridge has given a context up from line `q` of a swath on. -/
def givenUp (g : Ridge) (x swOrd q : Nat) : Bool :=
  g.voids.any (fun v => v.act.isNone && v.ctx = x && v.swOrd = swOrd && decide (v.fromOrd ≤ q))

/-- R167: the GEOM squash of one ridge from a band's first line.  The fetch pass it comes from goes on where it was, with
the faults that are still pending (R146; log entry 148). -/
def geomSquash (s : State) (i q : Nat) : State :=
  let g := s.ridge i
  let s := (s.squash 5 (BitVec.ofNat 16 (2 ^ i)) q 0).updRidge i (fun h =>
    { h with band := g.band, nextBand := g.nextBand, pass := g.pass, stops := g.stops })
  match g.stops with
  | [] => s
  | z :: _ => s.slotRecord (36 + i) z.ctx z.va { kind := z.kind, level := z.level } .read

/-- R148, R149: a ridge gives a context up from the band whose first line is `q`. -/
def giveUp (s : State) (i x kind q : Nat) : State :=
  let s := s.updRidge i (fun g => { g with pass := g.pass.map (fun p =>
    { p with recs := p.recs.filter (fun c => c.ctx != x), work := p.work.filter (fun k => k.post.ctx != x) }) })
  match s.swathAt q with
  | none => s
  | some w => (s.voidToEnd i x kind w q).geomSquash i q

/-- R149: an uncorrectable read for a context gives it up with kind UNCORR. -/
def bandBad (s : State) (i q x : Nat) : State :=
  ((s.giveUp i x 0x0E q).event Reg.RDG_EVENT 1).raiseFor Src.RDG_UNCORRECTABLE_READ x

/-- R144: the extra passes over a cache that overflows: at least those that the records alone need; how large the edge
table is, the spec does not give (log entry 20). -/
def extraPasses (s : State) (b : BandPass) : State :=
  if b.recs.isEmpty then s
  else
    let (v, s) := s.draw
    let n := max (b.bytes / halfBytes) (fld v 0 8)
    if n = 0 then s else (s.count Reg.RDG_PASSES n).event Reg.RDG_EVENT 6

/-- The band of a planned line. -/
def bandKey (w : Swath) (n : Int) : Nat × Int := (w.firstOrd, n / 64)

/-- R144: a band that has been fetched ahead comes into use when the ridge reaches it. -/
def useNext (s : State) (i : Nat) : State :=
  match s.ridgeAt i with
  | none => s
  | some (w, _, n) =>
    let g := s.ridge i
    if g.band != some (bandKey w n) && g.nextBand = some (bandKey w n) then
      s.updRidge i (fun g => { g with band := g.nextBand, cache := g.nextCache, nextBand := none, nextCache := [], upper := !g.upper })
    else s

/-- R144: the band a ridge's fetch pass works on, by its swath, the ordinal of its first line to be rendered and a line: the
band it renders next, or, once that is in the cache, the one after it. -/
def fetchTarget (s : State) (i : Nat) : Option (Swath × Nat × Int) :=
  match s.ridgeAt i with
  | none => none
  | some (w, q, n) =>
    let g := s.ridge i
    if g.band != some (bandKey w n) then some (w, q, n)
    else
      let b := bandLines w.plan n
      let e := w.firstOrd + (planIndex w.plan (if w.plan.dir = 0 then b.2 else b.1)).toNat + 1
      match s.swathAt e with
      | none => none
      | some v =>
        let m := planLine v.plan (e - v.firstOrd)
        if g.nextBand = some (bandKey v m) then none else some (v, e, m)

/-- R144: the fetch pass of a band begins, over every post of the layer. -/
def newPass (s : State) (i : Nat) (w : Swath) (n : Int) : BandPass :=
  { key := bandKey w n, recs := [], bytes := 0,
    work := (s.rdg.posts.filter (fun p => p.layer = w.plan.layer && !givenUp (s.ridge i) p.ctx w.firstOrd (bandFirst w n))).map
      (fun p => { post := p, entry := 0, dir := none, got := [] }) }

/-- R144: a band's fetch pass is complete. -/
def bandReady (s : State) (i : Nat) (p : BandPass) : State :=
  ((s.updRidge i (fun g => { g with pass := none, nextBand := some p.key, nextCache := p.recs })).useNext i).extraPasses p

/-- R158: the (ridge, line) pair that a ridge renders next is RENDERED from the moment that nothing holds its first code
back (log entry 146). -/
def mayRender (s : State) (i : Nat) (halo : Bool) : Bool :=
  match s.ridgeAt i with
  | none => false
  | some (w, q, n) =>
    let g := s.ridge i
    g.band = some (bandKey w n) && !g.stops.any (fun z => decide (z.ord ≤ q)) && decide (q < s.windowEnd) &&
      !(isCheckpoint w.plan n && decide (s.firstUntx + 112 < q)) && !halo

/-- R158: a pair that codes are written for. -/
def codesWanted (s : State) (q i : Nat) : Bool :=
  match s.cline q, s.rline q i with
  | some l, some k => decide (k.st ≤ 1) && !l.taken && !l.dropped
  | _, _ => false

/-! ## The post table (R66, R143) -/

/-- A post of a context; a full table discards it and sets POST_FULL. -/
def addPost (s : State) (p : Post) : State × Bool :=
  if 512 ≤ s.rdg.posts.length then (s.event Reg.RDG_EVENT 7, false)
  else ({ s with rdg := { s.rdg with posts := s.rdg.posts ++ [p] } }, true)

/-- R143: a write of RDG_POST by context `w`: CONTEXT differs, a reserved field is not 0, or the record does not lie in
the SEQ pool: PERM; so does a DIR_VA that is not 32-byte aligned or a COUNT above its limit (DESIGN CHOICE, log entry 164). -/
def rdgPost (s : State) (w : Nat) (v : BitVec 32) : State × RegResult :=
  let a := Config.seqPool + fld v 0 23
  let bs := s.rd a 32
  let layer := fieldLE bs 4 4
  if fld v 0 3 != 0 || Config.poolEnd < a + 32 || fieldLE bs 0 1 != w || 1 < fieldLE bs 1 1 ||
      fieldLE bs 2 2 != 0 || 2 ^ 24 ≤ layer || fieldLE bs 24 8 != 0 || fieldLE bs 8 8 % 32 != 0 || 1048576 < fieldLE bs 16 4 then
    (s, .perm)
  else
    ((s.addPost { ctx := w, geomEnd := fieldLE bs 1 1 = 1, layer := layer, dirVa := fieldLE bs 8 8,
                  count := fieldLE bs 16 4, segno := fieldLE bs 20 4,
                  afterCairn := (s.stream w).cairnNow }).1, .ok)

/-! ## Restart and abandonment (R146 to R148) -/

/-- Whether a line from ordinal `q` on has passed its transmit point (R167 GEOM: late). -/
def takenFrom (s : State) (q : Nat) : Bool := s.crn.window.any (fun l => q ≤ l.ord && l.taken) || q < s.crn.freed

/-- The ridges stalled on a context, with the ordinal of each band's first line. -/
def stalledOn (s : State) (x : Nat) : List (Nat × Nat) :=
  (List.range s.rdg.ridges.length).filterMap (fun i =>
    ((s.ridge i).stops.find? (fun z => z.ctx = x)).map (fun z => (i, z.ord)))

/-- R146, R147: every ridge stalled on `x` restarts from the faulting line; a late one is rewound with source GEOM. -/
def ridgeRetry (s : State) (x : Nat) : State :=
  (s.stalledOn x).foldl (fun s p =>
    let late := s.takenFrom p.2
    let s := s.clearStop p.1 x
    if late then s.geomSquash p.1 p.2 else s) s

/-- R148: every ridge stalled on `x` gives its band up for `x`. -/
def ridgeAbandon (s : State) (x : Nat) : State :=
  (s.stalledOn x).foldl (fun s p => (s.clearStop p.1 x).giveUp p.1 x 0x0F p.2) s

/-- R146, R148: a write of RDG_RETRY. -/
def rdgRetry (s : State) (w x : Nat) (abandon : Bool) : State × RegResult :=
  if w != x && w != s.super then (s, .perm)
  else (if abandon then s.ridgeAbandon x else s.ridgeRetry x, .ok)

/-! ## The halo (R130, R131) -/

/-- The share that the column across a boundary sends toward the ridge. -/
def haloShare (s : State) (i : Nat) (right : Bool) (r : Nat) : Nat :=
  if right then
    if s.columns ≤ 4096 * (i + 1) then 0
    else
      let w := s.wordAt (4096 * (i + 1)) r
      if w.hide = 2 then w.shareL else 0
  else
    if i = 0 then 0
    else
      let w := s.wordAt (4096 * i - 1) r
      if w.hide = 2 then w.shareR else 0

/-- The halo values a ridge has for a line. -/
def haloHas (g : Ridge) (right : Bool) (r q : Nat) : Option HaloVal :=
  g.halo.find? (fun h => h.right = right && h.row = r && h.line = q)

/-- R131: the rows and sides a ridge still waits for. -/
def haloWaits (s : State) (i q : Nat) : Bool :=
  [false, true].any (fun side => (List.range 16).any (fun r =>
    s.haloShare i side r != 0 && (haloHas (s.ridge i) side r q).isNone))

/-- A halo value as the target of the column across. -/
def haloTarget (g : Ridge) (q : Nat) (right : Bool) (r : Nat) : Target :=
  match haloHas g right r q with
  | none => .empty
  | some h =>
    match h.void with
    | some (k, x) => .void k x none
    | none => .dose h.dose 0

/-- R130, R131: the target dose that a neighbouring ridge sends for its column at the boundary; a neighbour that is
stalled on the line's band sends nothing yet. -/
def haloArrives (s : State) (i : Nat) (right : Bool) (r : Nat) : State :=
  match s.ridgeAt i with
  | none => s
  | some (w, q, n) =>
    let j := if right then i + 1 else i - 1
    let g := s.ridge i
    let nb := s.ridge j
    let key := bandKey w n
    let stalled := nb.stops.any (fun z => decide (z.ord ≤ q))
    if g.band != some key || stalled || 16 ≤ r || (right && s.ridgeCount ≤ i + 1) || (!right && i = 0) ||
        (haloHas g right r q).isSome then s
    else
      let c := if right then 4096 * (i + 1) else 4096 * i - 1
      let t := s.target w.plan (if nb.band = some key then nb.cache else g.cache) nb.voids w.firstOrd q c r n
      let h : HaloVal := match t with
        | .empty => { right := right, row := r, line := q, dose := 0, void := none }
        | .dose d _ => { right := right, row := r, line := q, dose := d, void := none }
        | .void _ _ (some d) => { right := right, row := r, line := q, dose := d, void := none }
        | .void k x none => { right := right, row := r, line := q, dose := 0, void := some (k, x) }
      s.updRidge i (fun g => { g with halo := h :: g.halo })

/-- R158: the pair a ridge renders next is RENDERED once nothing holds its first code back (log entry 146). -/
def beginLine (s : State) (i : Nat) : State :=
  match s.ridgeAt i with
  | none => s
  | some (_, q, _) =>
    if s.mayRender i (s.haloWaits i q) && s.codesWanted q i then s.updRLine q i (fun k => { k with st := 1 }) else s

/-- R144: a ridge's fetch pass ends, or stops (R145); one that a channel in self-refresh delays goes on later (R393). -/
def bandFetch (s : State) (i : Nat) : State :=
  let s := s.useNext i
  match s.fetchTarget i with
  | none => s
  | some (w, _, n) =>
    if !s.rbit Reg.RDG_CTRL 0 || !(s.bandWaits i w.plan n).isEmpty then s
    else
      let q := bandFirst w n
      let g := s.ridge i
      let fresh := s.newPass i w n
      let p := match g.pass with
        | some p => if p.key = bandKey w n then p else fresh
        | none => fresh
      let (s, b) := s.fetchBand (s.fillHalf i) (s.sampleRect i w.plan n) q p (g.stops.map FetchStop.ctx)
      let p : BandPass := { p with recs := b.recs.filter (fun c => !b.bad.contains c.ctx), bytes := b.bytes, work := b.left }
      let s := s.updRidge i (fun g => { g with pass := some p })
      let s := b.bad.foldl (fun s x => s.bandBad i q x) (b.stops.foldl (fun s z => s.bandFault i z) s)
      match b.wait with
      | some ch => s.postReq ch 0 (36 + i)
      | none => if p.work.isEmpty then (s.bandReady i p).beginLine i else s

/-! ## Uncorrectable errors in what a slice is rendered from (R149) -/

/-- R149: actuators of a ridge's columns whose render word reads uncorrectable. -/
def badWords (s : State) (i : Nat) : List Nat :=
  ((s.mu.ues.filter (fun e => decide (Config.actPool ≤ e) && decide (e < Config.diffPool) && decide ((e - Config.actPool) % 16 < 4))).map
    (fun e => (e - Config.actPool) / 16)).filter (fun a => a % 65536 / 4096 = i)

/-- R149: such an actuator is voided from the band's first line to the end of the swath, once; lines of the band that have
been posted are rendered again. -/
def voidActuators (s : State) (i : Nat) (w : Swath) (q : Nat) (n : Int) : State :=
  let first := bandFirst w n
  let new := ((s.badWords i).filter (fun a => !(s.ridge i).voids.any (fun v => v.act = some a && v.swOrd = w.firstOrd))).eraseDups
  let s := new.foldl (fun s a =>
    let s := s.updRidge i (fun g => { g with voids :=
      { kind := 0x0E, ctx := 0, act := some a, swOrd := w.firstOrd, fromOrd := first } :: g.voids })
    ((s.reportUE .ridge 0 (actAddr a)).event Reg.RDG_EVENT 1).raise Src.RDG_UNCORRECTABLE_READ) s
  if new.isEmpty || q ≤ first then s else s.geomSquash i first

/-- R149: a cached record that reads uncorrectable is an uncorrectable read for its context. -/
def voidCached (s : State) (i : Nat) (w : Swath) (n : Int) : State :=
  let first := bandFirst w n
  let hit := (s.ridge i).cache.filterMap (fun c =>
    (s.mu.ues.find? (fun e => decide (c.at_ ≤ e) && decide (e < c.at_ + c.len) && s.badAt e)).map (fun e => (c.ctx, e)))
  hit.foldl (fun s z =>
    if givenUp (s.ridge i) z.1 w.firstOrd first then s
    else
      let s := s.updRidge i (fun g => { g with cache := g.cache.filter (fun c => c.ctx != z.1) })
      (s.reportUE .ridge z.1 z.2).bandBad i first z.1) s

/-! ## A slice (R111, R137 to R140, R150) -/

/-- R137: the checkpoint of a line: the errors entering it, one byte per actuator. -/
def writeCheckpoint (s : State) (i : Nat) (n : Int) : State :=
  let g := s.ridge i
  (List.range 16).foldl (fun s r =>
    s.wr (diffAddr n (65536 * r + 4096 * i)) ((List.range 4096).map (fun j =>
      BitVec.ofNat 8 (uNat 8 (((g.carried.find? (fun p => p.1 = 65536 * r + 4096 * i + j)).map Prod.snd).getD 0))))) s

/-- R156: where a slice of a line lies. -/
def ringAddr (q i : Nat) : Nat := Config.dosePool + q % 128 * 0x80000 + 32768 * i

/-- R297, R316: both modules of a pair send their posted values. -/
def sendCrc (s : State) (q i : Nat) (v : BitVec 32) : State :=
  match s.cline q, s.rline q i with
  | some l, some k =>
    let body := leBytes 4 (uNat 32 l.line) ++ leBytes 4 (l.layer % 2 ^ 24 + 2 ^ 24 * i) ++ leBytes 2 l.swath ++
      leBytes 1 k.epoch.toNat ++ [0] ++ leBytes 4 v.toNat
    if s.twn.role = 3 then s.twinSend 3 body else s.mirror 3 body
  | _, _ => s

/-- R109, R130: what a rendered slice reports. -/
def sliceEvents (s : State) (voids : List VoidRec) : State :=
  let has := fun k => voids.any (fun v => v.kind = k)
  let s := if has 0x11 then (s.event Reg.RDG_EVENT 2).raise Src.RDG_OVERLAP_VOIDED else s
  if has 0x12 then s.event Reg.RDG_EVENT 3 else s

/-- R111, R137, R139, R150: a ridge finishes its slice of its next line. -/
def renderLine (s : State) (i : Nat) (w : Swath) (q : Nat) (n : Int) : State :=
  let p := w.plan
  let s := if isCheckpoint p n && n != planFirst p then s.writeCheckpoint i n else s
  let g := s.ridge i
  let o := s.renderSlice p w.firstOrd q n g (4096 * i) 4096 (fun right r => haloTarget g q right r)
  let wanted := s.codesWanted q i
  let past := w.firstOrd + planLen p ≤ q + 1
  let lastOfBand := past || planLine p (q + 1 - w.firstOrd) / 64 != n / 64
  let s := s.updRidge i (fun g => { g with
    nextOrd := q + 1, reach := max g.reach (q + 1), carried := if past then [] else o.errs,
    halo := g.halo.filter (fun h => q < h.line),
    voids := g.voids.filter (fun v => s.planned.any (fun w => w.firstOrd = v.swOrd)) })
  let s := if lastOfBand then s.count Reg.RDG_BANDS 1 else s
  let s := if q < g.reach then s.count Reg.RDG_RELINES 1 else s
  if wanted then
    let bs := packSlice o.codes
    let s := ((s.uploadMap (planAt p n)).wr (ringAddr q i) bs).sliceEvents o.voids
    (s.sendCrc q i (sliceCrc bs o.voids)).postValue q i bs o.voids
  else s

/-! ## Handover of a logical ridge (R152, R153) -/

/-- The first of `n` units after number `i`, in rising order and cyclically, that satisfies `ok`; unit `i` itself comes
last. -/
def nextUnit (n i : Nat) (ok : Nat → Bool) : Option Nat := ((List.range n).map (fun k => (i + 1 + k) % n)).find? ok

def addSlice (s : State) (kind idx st : Nat) : State :=
  let x : Slice := { kind := kind, idx := idx, st := st }
  { s with bist := { s.bist with slices := s.bist.slices ++ [x] } }

/-- BST_LAST and BST_EVENT of a slice that ends: 1 PASS, 2 FAIL, 3 CUT. -/
def sliceEnds (s : State) (kind idx result : Nat) : State :=
  let s := s.setReg Reg.BST_LAST (BitVec.ofNat 32 (8 * kind + 256 * idx + 8192 * result))
  let s := { s with bist := { s.bist with slices := s.bist.slices.filter (fun x => !(x.kind = kind && x.idx = idx)) } }
  if kind = 0 then { s with rdg := { s.rdg with inBist := none } } else s

/-- R501: a slice is cut; after CUT_MAX cut slices in a row of one target, STARVED. -/
def sliceCut (s : State) (kind idx : Nat) : State :=
  let before := ((s.bist.cutRuns.find? (fun z => z.1 = kind && z.2.1 = idx)).map (fun z => z.2.2)).getD 0
  let n := before + 1
  let s := ((s.sliceEnds kind idx 3).count Reg.BST_CUTS 1).event Reg.BST_EVENT 2
  let s := { s with bist := { s.bist with
      cutRuns := (kind, idx, n) :: s.bist.cutRuns.filter (fun z => !(z.1 = kind && z.2.1 = idx)) } }
  let s := s.raise Src.BST_CUT
  if n = s.rfld Reg.BST_CTRL 16 4 then (s.event Reg.BST_EVENT 3).raise Src.BST_STARVED else s

/-- Physical ridges of the module. -/
def physCount (s : State) : Nat := s.ridgeCount + 1

/-- R152, R501: a logical ridge moves to the spare, whose own slice is cut; the physical ridge it leaves becomes the new spare
and runs its slice. -/
def handOver (s : State) (i dest : Nat) : State :=
  let s := if s.rdg.inBist = some dest then s.sliceCut 0 dest else s
  let p := (s.ridge i).phys
  let s := s.updRidge i (fun g => { g with phys := dest })
  let s := { s with rdg := { s.rdg with
    leaving := none, spare := some p, inBist := some p,
    nextLeave := (nextUnit s.physCount p (fun q => q != p && s.rdg.ridges.any (fun g => g.phys = q))).getD 0 } }
  (s.event Reg.RDG_EVENT 4).addSlice 0 p 2

/-- R153: the receiving ridge loads the checkpoint of the line it begins with; the halo belongs to the logical ridge. -/
def receive (s : State) (i q : Nat) : State :=
  let h := (s.ridge i).halo
  (s.rewind i q).updRidge i (fun g => { g with halo := h })

/-- R153: the handover that is due happens at a band boundary, where the checkpoint of the next band's first line may be
written (R138). -/
def tryHandOver (s : State) : State :=
  match s.rdg.leaving with
  | none => s
  | some (i, dest) =>
    match s.ridgeAt i with
    | none => (s.handOver i dest).receive i (s.ridge i).nextOrd
    | some (w, q, n) =>
      if q != bandFirst w n then s
      else if n = planFirst w.plan then (s.handOver i dest).receive i q
      else if s.firstUntx + 112 < q then s
      else ((s.writeCheckpoint i n).handOver i dest).receive i q

/-- R111, R112, R131, R138, R144, R157: the slice of a ridge's next line, when it may be rendered. -/
def slicePosted (s : State) (i : Nat) : State :=
  let s := (s.useNext i).tryHandOver
  match s.ridgeAt i with
  | none => s
  | some (w, q, n) =>
    if (s.ridge i).band != some (bandKey w n) || (s.ridge i).stops.any (fun z => decide (z.ord ≤ q)) then s
    else if s.windowEnd ≤ q then s.raise Src.CRN_STATE_WINDOW_FULL
    else if isCheckpoint w.plan n && s.firstUntx + 112 < q then s
    else if s.haloWaits i q then
      let (v, s) := s.draw
      s.count Reg.RDG_HALO_WAIT (fld v 0 32)
    else
      let s := (s.voidActuators i w q n).voidCached i w n
      if (s.ridge i).nextOrd = q then (((s.renderLine i w q n).useNext i).tryHandOver).beginLine i else s

end State

/-! ## Commands -/

/-- R143: a context posts a record directory. -/
def execRdgPost (w : Nat) (v : Word) (s : State) : Out :=
  whenClocked s (fun s => State.wrote (s.rdgPost w v) w Reg.RDG_POST)

/-- R146: RDG_RETRY restarts the ridges stalled on a context. -/
def execRdgRetry (w x : Nat) (s : State) : Out :=
  whenClocked s (fun s => State.wrote (s.rdgRetry w x false) w Reg.RDG_RETRY)

/-- R148: RDG_RETRY with ABANDON. -/
def execRdgRetryAbandon (w x : Nat) (s : State) : Out :=
  whenClocked s (fun s => State.wrote (s.rdgRetry w x true) w Reg.RDG_RETRY)

/-- R144: a ridge's fetch pass for a band completes. -/
def execBandFetchDone (ridge : Nat) (s : State) : Out :=
  whenReady s (fun s => if ridge < s.ridgeCount then s.bandFetch ridge else s)

/-- R111: a ridge finishes its slice and posts its value. -/
def execSlicePosted (ridge : Nat) (s : State) : Out :=
  whenReady s (fun s => if ridge < s.ridgeCount then s.slicePosted ridge else s)

/-- R131: a neighbour's target dose arrives. -/
def execHaloValue (ridge : Nat) (fromRight : Bool) (row : Nat) (s : State) : Out :=
  whenReady s (fun s => if ridge < s.ridgeCount then (s.haloArrives ridge fromRight row).beginLine ridge else s)

end Sys2Proof.Machine
end

