-- ==== Sys2Proof/Machine/Take.lean ====
section
/-! DEFINITION. The transmit point and what the head link engine does at it (R58, R59, R159 to R163, R180, R181, R215, R224,
R233, R298), line events (R182), and a mode setting that is late (R178). -/

namespace Sys2Proof.Machine

/-- Positions of one line that are withheld for one reason; `fixed` is a COUNT that a rule fixes. -/
structure Cause where
  kind : Nat
  ctx : Nat
  fixed : Option Nat
  spans : List LoggedSpan
  deriving DecidableEq, Repr

/-- Causes of one kind, context and COUNT rule made one. -/
def gatherCauses (l : List Cause) : List Cause :=
  l.foldl (fun acc c =>
    if acc.any (fun a => a.kind = c.kind && a.ctx = c.ctx && a.fixed = c.fixed) then
      acc.map (fun a => if a.kind = c.kind && a.ctx = c.ctx && a.fixed = c.fixed then { a with spans := a.spans ++ c.spans } else a)
    else acc ++ [c]) []

/-- Spans without the positions of others. -/
def minusSpans (l cut : List LoggedSpan) : List LoggedSpan :=
  l.flatMap (fun p => (cutSpans ((cut.filter (fun q => q.row = p.row)).map (fun q => (q.c0, q.c1))) p.c0 p.c1).map
    (fun z => ({ row := p.row, c0 := z.1, c1 := z.2 } : LoggedSpan)))

/-- Causes in order, each without the positions of those before it; one left with none is dropped (R559). -/
def disjointCauses (l : List Cause) : List Cause :=
  (l.foldl (fun (acc : List Cause × List LoggedSpan) c =>
    let mine := minusSpans c.spans acc.2
    (if mine.isEmpty then acc.1 else acc.1 ++ [{ c with spans := mine }], acc.2 ++ c.spans)) ([], [])).1

/-- R161, R163: the positions that a ridge voided as it rendered a slice; those of a quota stand in its entry (R22). -/
def voidCauses (k : RLine) : List Cause :=
  (((k.voids.map (fun v => (v.kind, v.ctx))).eraseDups).filter (fun z => z.1 != 0x13)).map (fun z =>
    { kind := z.1, ctx := z.2, fixed := if z.1 = 0x12 then none else some 0xFFFFFFFF,
      spans := (k.voids.filter (fun v => v.kind = z.1 && v.ctx = z.2)).flatMap (fun v => rowSpans (maskBits v.rows 16) v.col v.col) })

/-- The codes of a slice in the columns from `4096 i`, with the spans set to 0. -/
def zeroSpans (bs : Bytes) (i : Nat) (spans : List LoggedSpan) : Bytes :=
  if spans.isEmpty then bs
  else (List.range 16).flatMap (fun r =>
    let mine := spans.filter (fun p => p.row = r)
    packCodes (((sliceRow bs r).zipIdx).map (fun z =>
      if mine.any (fun p => decide (p.c0 ≤ 4096 * i + z.2) && decide (4096 * i + z.2 ≤ p.c1)) then 0 else z.1)))

/-- The positions of a slice whose code is not 0 and that satisfy `f`. -/
def codedSpans (bs : Bytes) (i : Nat) (f : Nat → Nat → Bool) : List LoggedSpan :=
  (List.range 16).flatMap (fun r =>
    ((sliceRow bs r).zipIdx).filterMap (fun z =>
      if z.1 != 0 && f r (4096 * i + z.2) then some { row := r, c0 := 4096 * i + z.2, c1 := 4096 * i + z.2 } else none))

/-- The stored bytes from `a` on as `n` bytes, from cells by rising address that begin at `a` or later. -/
def runBytes : Nat → Nat → List (Nat × Byte) → Bytes
  | 0, _, _ => []
  | n + 1, _, [] => 0 :: runBytes n 0 []
  | n + 1, a, (b, v) :: l => if b = a then v :: runBytes n (a + 1) l else 0 :: runBytes n (a + 1) ((b, v) :: l)

/-- Modulo-2³² order of LSEQs. -/
def seqFrom (first x : Nat) : Bool := (x + 2 ^ 32 - first) % 2 ^ 32 < 2 ^ 31

namespace State

/-! ## Transmit points (R159, R201, R310) -/

/-- R201: the trim upload is not acknowledged at the swath's first transmit point. -/
def trimNack (s : State) : State :=
  if s.act.trimWait.isEmpty then s
  else ({ s with act := { s.act with trims := [], trimWait := [] } }.event Reg.ACT_EVENT 7).raise Src.ACT_TRIM_NACK

/-- R310: ALIGN has not completed by the swath's first transmit point: it is tried again at the next col. -/
def alignMissed (s : State) : State :=
  if s.twn.phase = 4 && s.owns then
    { s with twn := { s.twn with phase := 3, joinSwath := none } }.count Reg.TWN_ALIGN_RETRY 1
  else s

/-- R33, R159: the scan position crosses the transmit point of a line of the current swath, in its firing direction. -/
def transmitPoint (s : State) (n : Int) : State :=
  match s.mot.current with
  | none => s
  | some w =>
    if !s.owns || !planHas w.plan n then s
    else
      let q := w.firstOrd + (planIndex w.plan n).toNat
      if !s.crosses w.plan.dir (s.gridPoint (if w.plan.dir = 0 then n - 8 else n + 8)) then s
      else
        let s := if n = planFirst w.plan && s.crn.crossed ≤ q then
            let s := s.trimNack.alignMissed
            { s with twn := { s.twn with lates := 0 } }
          else s
        { s with crn := { s.crn with crossed := max s.crn.crossed (q + 1) } }

/-! ## Taking a line -/

/-- The columns of logical ridge `i`, every row. -/
def sliceSpans (i : Nat) : List LoggedSpan := rowSpans (List.range 16) (4096 * i) (4096 * i + 4095)

/-- The columns of a context's region in a ridge. -/
def regionSpans (s : State) (p : SwathPlan) (x i : Nat) : List LoggedSpan :=
  match s.regionCols p (s.stream x).region with
  | none => []
  | some (c0, c1) =>
    let a := max c0 (4096 * i)
    let b := min c1 (4096 * i + 4095)
    if a ≤ b then rowSpans (List.range 16) a b else []

/-- R89, R162, R559: why a slice is taken as code 0.  Of a slice not rendered, the columns of a context whose fault stalls
the ridge are GEOM_FAULT, those of one whose GEOM_END it waits for are UNDERRUN of that context, lowest number first, and
the rest are UNDERRUN with CONTEXT 0. -/
def sliceCauses (s : State) (p : SwathPlan) (l : CLine) (i : Nat) (k : RLine) : List Cause :=
  let pair := s.twn.role = 2
  let all := fun (kind : Nat) => ([{ kind := kind, ctx := 0, fixed := none, spans := sliceSpans i }] : List Cause)
  if k.st = 3 then []
  else if k.st = 2 && k.mismatch then all (if pair then 0x0A else 0x0C)
  else if k.st = 2 then all (if pair then 0x0B else 0x10)
  else
    let stalled := (List.range 64).filter (fun x => (s.ridge i).stops.any (fun z => z.ctx = x && decide (z.ord ≤ l.ord)))
    disjointCauses (
      stalled.map (fun x => ({ kind := 0x0F, ctx := x, fixed := none, spans := s.regionSpans p x i } : Cause)) ++
      (s.bandWaits i p l.line).map (fun x => ({ kind := 0x10, ctx := x, fixed := none, spans := s.regionSpans p x i } : Cause)) ++
      all 0x10)

/-- R181: a slice read from the ring: its bytes, and the places of those that read uncorrectable. -/
def ringSlice (s : State) (q i : Nat) : Bytes × List Nat :=
  let a := ringAddr q i
  (runBytes 32768 a ((s.mem.dropWhile (fun c => c.1 < a)).takeWhile (fun c => c.1 < a + 32768)),
   (s.mu.ues.filter (fun e => decide (a ≤ e) && decide (e < a + 32768))).map (fun e => e - a))

/-- The two positions of byte `b` of a slice. -/
def byteSpans (i b : Nat) : List LoggedSpan :=
  [{ row := b / 2048, c0 := 4096 * i + 2 * (b % 2048), c1 := 4096 * i + 2 * (b % 2048) + 1 }]

/-- R181: the uncorrectable bytes of the slices taken from the ring are reported. -/
def ringReports (s : State) (q : Nat) (bad : List (Nat × List Nat)) : State :=
  bad.foldl (fun s z => z.2.foldl (fun s b =>
    ((s.reportUE .headLink 0 (ringAddr q z.1 + b)).event Reg.CRN_EVENT 7).raise Src.CRN_RING_UNCORR) s) s

/-- R52, R224: the positions for which a line must not rely on a waveform or on its fire map: a waveform that some head
driver has not acknowledged withholds the line in its rows, a fire map in the link's columns of the rows it changes. -/
def unackedSpans (s : State) (a : At) (m : Option FireMap) : List LoggedSpan :=
  let waves := s.hlk.waveAcks.map Prod.fst
  let late := (List.range 16).filter (fun r =>
    let b := s.bankInForce (s.groupAt r a) a
    (b.entries.take b.highest).any (fun e => waves.contains e.1))
  rowSpans late 0 (s.columns - 1) ++ s.linksUsed.flatMap (fun l =>
    let rows := match m with
      | none => List.range 16
      | some m => if bit m.acked l then [] else maskBits m.changed 16
    rowSpans rows (s.linkCol0 l) (s.linkCol0 l + s.linkWidth l - 1))

/-- R58: the sum of NOMINAL of a group's rows over the codes transmitted. -/
def groupSum (s : State) (a : At) (g : Nat) (slices : List Bytes) : Nat :=
  let b := s.bankInForce g a
  ((rowsOf (s.rowmapAt a) g).map (fun r => (slices.map (fun bs => ((sliceRow bs r).map (State.DoseBank.level b)).sum)).sum)).sum

/-- R58, R59: the decision for one group, and what stands in its window. -/
def ceiling (s : State) (a : At) (g : Nat) (slices : List Bytes) : State × Bool :=
  let d := s.rowGroup g
  let t := s.groupSum a g slices
  let before := (nth s.dose.window g []).take (d.winLines - 1)
  let past := d.ceilLine < t || d.ceilWin < t + before.sum
  ({ s with dose := { s.dose with window := s.dose.window.modify g (fun l => ((if past then 0 else t) :: l).take (max 1 d.winLines)) } },
   past)

/-- R59, R489: the groups voided in a line; both channels form the same sums.  A group with no row in the line enters 0 in
its window (R58). -/
def ceilings (s : State) (a : At) (slices : List Bytes) : State × List Nat :=
  (List.range 8).foldl (fun (acc : State × List Nat) g =>
    let (s, past) := acc.1.ceiling a g slices
    if past then (((s.event Reg.SAF_EVENT 4).count Reg.SAF_CEILINGS 1).raise Src.SAF_CEILING, acc.2 ++ [g]) else (s, acc.2)) (s, [])

/-- R233: whether an actuator is held off for a line. -/
def heldOff (s : State) (lseq r c : Nat) : Bool :=
  s.hlk.links.any (fun h => h.nozzles.any (fun z => z.1 = 65536 * r + c && seqFrom z.2 lseq))

/-- Runs of some kinds that the entries do not extend are written; the entries join what stays. -/
def extendRuns (s : State) (kinds : List Nat) (es : List ScreeEntry) : State :=
  (s.flushRuns (fun a => kinds.contains a.kind && !es.any (fun e => sameRun a e))).logRun es

/-- R19, R163: the entries of a line's causes, in rising kind order: CEILING and HEAD_FAULT entries of lines that follow
one another grow together, the others are written at once. -/
def logCauses (s : State) (q : Nat) (causes : List Cause) : State :=
  let sorted := (gatherCauses causes).mergeSort (fun a b => decide (a.kind ≤ b.kind))
  let (s, runs) := sorted.foldl (fun (acc : State × List ScreeEntry) c =>
    match acc.1.cline q with
    | none => acc
    | some l =>
      let (s, es) := acc.1.lineEntries l c.kind c.ctx c.spans c.fixed
      if c.kind = 3 || c.kind = 7 then (s, acc.2 ++ es) else (s.writeEntries es, acc.2)) (s, [])
  s.extendRuns [3, 7] runs

/-- R209: the codes taken at actuators that a staged plan newly moves out of GOOD or SUSPECT. -/
def countHidden (s : State) (l : CLine) (slices : List Bytes) : State :=
  if s.act.staged && s.act.forSwath = some (l.layer, l.swath) then
    { s with act := { s.act with counts := s.act.counts.map (fun z =>
        (z.1, z.2 + (if sliceCode (nth slices (z.1 % 65536 / 4096) []) (z.1 / 65536) (z.1 % 4096) = 0 then 0 else 1))) } }
  else s

/-- R162, R180, R298: counts and faults of the slices withheld. -/
def underruns (s : State) (l : CLine) (causes : List (Nat × List Cause)) : State :=
  let (s, any) := causes.foldl (fun (acc : State × Bool) z =>
    if z.2.any (fun c => c.kind = 0x10) then
      let s := (acc.1.count Reg.CRN_UNDERRUNS 1).updRidge z.1 (fun g => { g with underruns := g.underruns + 1 })
      let lim := s.rfld Reg.CRN_CTRL 0 8
      let lim := if lim = 0 then 16 else lim
      (if (s.ridge z.1).underruns = lim + 1 then (s.event Reg.CRN_EVENT 2).raise Src.CRN_UNDERRUN_RUN else s, true)
    else (acc.1.updRidge z.1 (fun g => { g with underruns := 0 }), acc.2)) (s, false)
  let s := if any then (s.event Reg.CRN_EVENT 1).raise Src.CRN_UNDERRUN else s
  let lates := (causes.filter (fun z => z.2.any (fun c => c.kind = 0x0B))).length
  let limit := s.rfld Reg.TWN_LIMITS 0 8
  let before := s.twn.lates
  let s := ({ s with twn := { s.twn with lates := before + lates } }).count Reg.TWN_LATES lates
  let s := if before ≤ limit && limit < before + lates then (s.event Reg.TWN_EVENT 3).raise Src.TWN_TWIN_SLOW else s
  let mism := (causes.filter (fun z => z.2.any (fun c => c.kind = 0x0A))).map Prod.fst
  let s := s.count Reg.TWN_MISMATCHES mism.length
  -- R299: each mismatch withheld starts a tie-break
  mism.foldl (fun s i =>
    let t : Tie := { pos := { layer := l.layer, swath := l.swath, line := l.line }, ridge := i, own := none, peer := none }
    { s with twn := { s.twn with ties := s.twn.ties ++ [t] } }) s

/-- R220: the codes of row `r` of a taken line, over the module's columns; a slice not taken from the ring is all 0. -/
def lineCodes (l : CLine) (r : Nat) : List Nat :=
  (l.ridges.zipIdx).flatMap (fun z => match z.1.slice with
    | some bs => if bit l.fromRing z.2 then sliceRow bs r else List.replicate 4096 0
    | none => List.replicate 4096 0)

/-- R220: the line frames of a taken line on a link, in chunk order. -/
def lineFrames (s : State) (k : Nat) (l : CLine) : List Bytes :=
  let w := s.linkWidth k
  let cpr := (w + 2047) / 2048
  let plan := s.linePlan l
  let first : Nat := if plan.any (fun p => l.line = planFirst p) then 2 else 0
  (List.range 16).flatMap (fun r => (List.range cpr).map (fun c =>
    let codes := ((lineCodes l r).drop (s.linkCol0 k + 2048 * c)).take (min 2048 (w - 2048 * c))
    let zero := codes.all (· = 0)
    headBytes { typ := 1, flags := first + (if zero then 1 else 0), link := k, seq := l.lseq.getD 0, chunk := r * cpr + c,
                swtag := (plan.map SwathPlan.swtag).getD 0, fmap := l.fmap } (if zero then [] else packCodes codes)))

/-- R216: a line's frames on a link, and the order window behind them. -/
def sendFrames (s : State) (k : Nat) (l : CLine) : State :=
  ((s.lineFrames k l).foldl (fun s f => s.emit (.headFrame k f)) s).orderWindow k (!s.sending)

/-- R216, R221, R236: the frames of a taken line go out on every link in use; a link that is not ACTIVE holds them. -/
def sendLine (s : State) (q lseq : Nat) : State :=
  match s.cline q with
  | none => s
  | some l =>
    s.linksUsed.foldl (fun s k =>
      if s.linkActive (.head k) then s.sendFrames k l
      else (s.updHead k (fun h => { h with held := h.held ++ [lseq] })).updLine q (fun l => { l with unsent := k :: l.unsent })) s

/-- R160, R161: the head link engine takes the line. -/
def takeLine (s : State) (p : SwathPlan) (l : CLine) : State :=
  let a := planAt p l.line
  let s := s.uploadMap a
  let m := s.fireMap (s.fireMapAt a)
  let ridges := l.ridges.zipIdx
  -- what stands in the way of each slice, and what the ring gives for the others
  let held := ridges.map (fun z => (z.2, s.sliceCauses p l z.2 z.1))
  let read := ridges.map (fun z => if z.1.st = 3 then (z.2, s.ringSlice l.ord z.2) else (z.2, (List.replicate 32768 0, [])))
  let bad := (read.filter (fun z => !z.2.2.isEmpty)).map (fun z => (z.1, z.2.2))
  let s := s.ringReports l.ord bad
  let slices := read.map (fun z => zeroSpans z.2.1 z.1 (z.2.2.flatMap (byteSpans z.1)))
  let voids := ridges.flatMap (fun z => if 2 ≤ z.1.st then voidCauses z.1 else [])
  let ring : List Cause := bad.map (fun z => { kind := 0x0E, ctx := 0, fixed := some 0xFFFFFFFF, spans := z.2.flatMap (byteSpans z.1) })
  -- columns that no link carries, and fire maps and waveforms not acknowledged (R215, R224)
  let carried := fun c => s.linksUsed.any (fun k => decide (s.linkCol0 k ≤ c) && decide (c < s.linkCol0 k + s.linkWidth k))
  let lost := (slices.zipIdx).flatMap (fun z => codedSpans z.1 z.2 (fun _ c => !carried c)) ++ s.unackedSpans a m
  let before := slices
  let slices := (slices.zipIdx).map (fun z => zeroSpans z.1 z.2 lost)
  let linkLoss := before != slices
  -- the ceilings (R58, R59)
  let (s, past) := s.ceilings a slices
  let voided := rowSpans (past.flatMap (rowsOf (s.rowmapAt a))) 0 (s.columns - 1)
  let slices := (slices.zipIdx).map (fun z => zeroSpans z.1 z.2 voided)
  let off := (slices.zipIdx).flatMap (fun z => codedSpans z.1 z.2 (fun r c => s.heldOff s.hlk.lseq r c))
  let causes := voids ++ ring ++ held.flatMap Prod.snd ++
    [{ kind := 8, ctx := 0, fixed := none, spans := lost }, { kind := 3, ctx := 0, fixed := none, spans := voided },
     { kind := 7, ctx := 0, fixed := none, spans := off }]
  let s := s.logCauses l.ord causes
  -- the line is TRANSMITTED or WITHHELD in each ridge (R158, R160)
  let lseq := s.hlk.lseq
  let uncarried := fun i => (s.linksOver (4096 * i) (4096 * i + 4095)).isEmpty
  let s := s.updLine l.ord (fun l =>
    { l with taken := true, lseq := some lseq, fmap := (m.map FireMap.gen).getD s.hlk.fgen, groupsOut := past,
             fromRing := maskOf 16 ((ridges.filter (fun z => z.1.st = 3)).map Prod.snd),
             ridges := l.ridges.mapIdx (fun i k =>
               if k.st = 3 then { k with st := if uncarried i then 6 else 4, slice := slices[i]?, voids := [] }
               else { k with st := 6 }) })
  let s := { s with hlk := { s.hlk with lseq := (lseq + 1) % 2 ^ 32 },
                    crn := { s.crn with lastTaken := some (l.layer, l.swath, l.line) } }
  let s := s.underruns l held
  let s := if linkLoss then ((s.count Reg.HLK_LOSTLINES 1).event Reg.HLK_EVENT 1).raise Src.HLK_LINE_LOST else s
  let s := ((s.countHidden l slices).count Reg.HLK_TXLINES 1).obsCount 0
  let matched := maskOf 16 ((ridges.filter (fun z => z.1.st = 3)).map Prod.snd)
  let div := max 1 (s.rfld Reg.OBS_CTRL 0 16)
  let s := if lseq % div = 0 then s.trace 7 (leBytes 4 lseq ++ leBytes 4 (uNat 32 l.line) ++ leBytes 4 l.layer ++
      leBytes 2 l.swath ++ leBytes 2 matched.toNat) else s
  (s.mirrorLine { l with lseq := some lseq } 0 matched).sendLine l.ord lseq

/-- R159, R160, R164, R304: the next line in ordinal order, once its transmit point has been crossed. -/
def lineTake (s : State) : State :=
  match s.crn.window.find? (fun l => !l.taken && !l.dropped), s.mot.current with
  | some l, some w =>
    if s.owns && s.pins.town && !s.hlk.selecting && l.layer = w.plan.layer && l.swath = w.plan.swath && l.ord < s.crn.crossed then
      s.takeLine w.plan l
    else s
  | _, _ => s

/-! ## Mode settings at the cornice (R177, R178) -/

/-- Whether a ridge has rendered a line of the window from ordinal `q` on. -/
def renderedFrom (s : State) (q : Nat) : Bool :=
  s.crn.window.any (fun l => q ≤ l.ord && l.ridges.any (fun k => decide (1 ≤ k.st) && decide (k.st ≤ 3)))

/-- Lines of a swath that have had no pulse yet, in firing order: the first, as an ordinal. -/
def firstUnfired (s : State) (w : Swath) : Option Nat :=
  let last := w.firstOrd + planLen w.plan
  match s.crn.window.find? (fun l => w.firstOrd ≤ l.ord && l.ord < last && !rowsDone l) with
  | some l => some l.ord
  | none =>
    let next := max s.windowEnd w.firstOrd
    if next < last then some next else none

/-- R178 step 3, R324: the positions of a swath not yet logged, from its first unfired line on, are withheld as MODE_LATE. -/
def withholdSwath (s : State) (w : Swath) (q : Nat) : State :=
  let last := w.firstOrd + planLen w.plan
  let lines := s.crn.window.filter (fun l => q ≤ l.ord && l.ord < last)
  let (s, es) := lines.foldl (fun (acc : State × List ScreeEntry) l =>
    let (s, e) := acc.1.lineEntries l 9 0 acc.1.wholeLine (some 0xFFFFFFFF)
    (s, acc.2 ++ e)) (s, [])
  let from_ := max q s.windowEnd
  let x := planLine w.plan (from_ - w.firstOrd)
  let y := planLine w.plan (last - 1 - w.firstOrd)
  let rest : List ScreeEntry := if from_ < last then
      [{ kind := 9, ctx := 0, rowmask := 0xFFFF, layer := w.plan.layer, swath := w.plan.swath, firstCol := 0,
         lastCol := s.columns - 1, source := 0, firstLine := min x y, lastLine := max x y, count := 0xFFFFFFFF, seq := 0 }]
    else []
  s.writeEntries (mergeEntries (es ++ rest))

/-- R178 steps 2 and 3, R179, R324: the swath gate of the swath closes at once. -/
def closeSwath (s : State) (w : Swath) : State :=
  match s.firstUnfired w with
  | none => s
  | some q =>
    if s.crn.lateSwath = some (w.plan.layer, w.plan.swath) then s
    else
      let s := ({ s with crn := { s.crn with lateSwath := some (w.plan.layer, w.plan.swath) } }).setCauses (fun c => { c with swgate := true })
      s.withholdSwath w q

/-- R178: what stands in a FIRED_STALE entry of a line: the rows that have fired, in the columns of the ridges whose slices
were sent. -/
def staleLine (l : CLine) : List ScreeEntry :=
  let rows := firedRows l
  let cols := joinSpans (((l.ridges.zipIdx).filter (fun k => k.1.st = 4 || k.1.st = 5 || bit l.firedIn k.2)).map
    (fun k => (4096 * k.2, 4096 * k.2 + 4095)))
  if rows.isEmpty then []
  else cols.map (fun z =>
    { kind := 0x20, ctx := 0, rowmask := maskOf 16 rows, layer := l.layer, swath := l.swath, firstCol := z.1, lastCol := z.2,
      source := 0, firstLine := l.line, lastLine := l.line, count := (rows.map (fun r => sentCount l r z.1 z.2)).sum, seq := 0 })

/-- R178 step 1: the transmitted lines from a setting's activation line on that have fired, those that have left the window
among them.  A pulse that has left counts as fired before its FIRE_ACK arrives (log entry 151). -/
def firedStale (s : State) (p : BuildPos) : State :=
  let past := fun (l : CLine) =>
    swathBefore p.layer p.swath l.layer l.swath || (p.layer = l.layer && p.swath = l.swath &&
      atOrAfter (((s.planOf l.layer l.swath).map SwathPlan.dir).getD 0) l.line p.line)
  let now := s.crn.window.filter (fun l => l.taken && past l)
  let entries := (s.crn.past.filter past ++ now).flatMap staleLine
  -- what has been fired is in no later entry
  let s := now.foldl (fun s l => s.updLine l.ord (fun k =>
    { k with logged := rowSpans (firedRows l) 0 (s.columns - 1) ++ k.logged })) s
  if entries.any (fun e => e.count != 0) then
    ((s.writeEntries (mergeEntries entries)).event Reg.CRN_EVENT 6).raise Src.CRN_FIRED_STALE
  else s

/-- The position just past the last line of a swath, in firing order. -/
def pastSwath (p : SwathPlan) : BuildPos := { layer := p.layer, swath := p.swath, line := planLine p (planLen p) }

/-- R178: a setting that executes with its first governed line before U; `order` names its change. -/
def modeLate (s : State) (order : Nat) (p : BuildPos) : State :=
  let s := (s.event Reg.CRN_EVENT 3).raise Src.CRN_MODE_LATE
  let s := s.firedStale p
  match s.crn.lastTaken with
  | none => s
  | some (l2, s2, _) =>
    let inProgress := s.planned.find? (fun w => w.plan.layer = l2 && w.plan.swath = s2)
    let s := match inProgress with
      | some w => s.closeSwath w
      | none => s
    match s.planOf l2 s2 with
    | none => s
    | some pl =>
      let s := { s with dose := { s.dose with changes := s.dose.changes.map (fun (m : ModeChange) =>
        if m.order = order then { m with moved := some (pastSwath pl) } else m) } }
      match s.planned.find? (fun (w : Swath) => swathBefore l2 s2 w.plan.layer w.plan.swath) with
      | some w => if s.renderedFrom w.firstOrd then s.squash 3 s.allRidges w.firstOrd 0 else s
      | none => s

/-- R176, R177, R324: what a mode setting that has just executed costs. -/
def modeSettles (s : State) (m : ModeChange) : State :=
  match s.settingPlace (ModeChange.ap m) with
  | none => s
  | some (true, _) =>
    let (layer, swath) := match s.crn.lastTaken with
      | some (l, k, _) => (l, k)
      | none => ((ModeChange.ap m).layer, (ModeChange.ap m).swath)
    (s.modeLate m.order (ModeChange.ap m)).report 0 0 swath layer
  | some (false, some q) => if s.renderedFrom q then s.squash 3 s.allRidges q 0 else s
  | some (false, none) => s

/-- R42, R177: a mode setting executes: it joins the changes in stream order. -/
def applySetting (s : State) (ctx afterCairn : Nat) (v : ModeSetting) (p : BuildPos) : State :=
  let m : ModeChange := { ctx := ctx, order := s.dose.nextOrder, afterCairn := afterCairn, setting := v, at_ := p, moved := none }
  ({ s with dose := { s.dose with changes := s.dose.changes ++ [m], nextOrder := s.dose.nextOrder + 1 } }).modeSettles m

/-! ## Line events (R182) -/

/-- R182: a write of CRN_LW_CTRL[x] by context `w`; a condition that holds already is delivered at once (by `settle`). -/
def lwCtrl (s : State) (w x : Nat) (v : BitVec 32) : State × RegResult :=
  if w != x && w != s.super then (s, .perm) else (s.setReg (Reg.CRN_LW_CTRL x) (v &&& 3), .ok)

end State

/-! ## Commands -/

/-- R159: the encoder crosses a line's transmit point. -/
def execTransmitPoint (x : Crossing) (s : State) : Out := whenReady s (fun s => (s.at_ x.t).transmitPoint x.line)

/-- R160: the head link engine takes a line. -/
def execLineTake (s : State) : Out := whenReady s (fun s => s.lineTake)

/-- R182: a context arms a line event. -/
def execCrnLwCtrl (w x : Nat) (v : Word) (s : State) : Out :=
  whenClocked s (fun s =>
    if x = 0 || 64 ≤ x then s
    else
      State.wrote (s.lwCtrl w x v) w (Reg.CRN_LW_CTRL x))

end Sys2Proof.Machine
end

