-- ==== Sys2Proof/Machine/HeadStatus.lean ====
section
/-! DEFINITION. The status frames of the head drivers (R171, R201, R219, R223, R228 to R233, R246, R247, R304). -/

namespace Sys2Proof.Machine

namespace State

/-- The last column of a link. -/
def linkCol1 (s : State) (l : Nat) : Nat := s.linkCol0 l + s.linkWidth l - 1

/-- R219, R230: the module uses status frames of a link in use that arrive from the selected port. -/
def statusUsed (s : State) (l : Nat) (portB : Bool) : Bool := s.owns && s.linkRate l != 0 && portB = s.hlk.portB

/-- R219: a status frame that ends in ABT, fails its CRC or has a TYPE that is not known is discarded and counted. -/
def badStatus (s : State) (l : Nat) : State := if s.linkRate l = 0 then s else s.count Reg.HLK_ST_CRC 1

/-- The line of the state window with an LSEQ. -/
def lineOfSeq (s : State) (lseq : Nat) : Option CLine := s.crn.window.find? (fun l => l.taken && l.lseq = some lseq)

/-- A taken line that has left the window, by its LSEQ. -/
def pastOfSeq (s : State) (lseq : Nat) : Option CLine := s.crn.past.find? (fun l => l.lseq = some lseq)

def updPast (s : State) (q : Nat) (f : CLine → CLine) : State :=
  { s with crn := { s.crn with past := s.crn.past.map (fun l => if l.ord = q then f l else l) } }

/-- R158: a link has answered for a line; a ridge whose links have all answered is FIRED, or WITHHELD when a row of it did
not fire. -/
def closeLink (s : State) (q k : Nat) (fired : Bool) : State :=
  let mine := maskOf 16 ((List.range s.ridgeCount).filter (fun i => (s.linksOver (4096 * i) (4096 * i + 4095)).contains k))
  let past := fun i => s.linksOver (4096 * i) (4096 * i + 4095)
  s.updLine q (fun l =>
    let closed := k :: l.closedLinks
    let held := if fired then l.withheld else l.withheld ||| mine
    { l with closedLinks := closed, withheld := held,
             ridges := l.ridges.mapIdx (fun i r =>
               if r.st = 4 && (past i).all (fun j => closed.contains j) then { r with st := if bit held i then 6 else 5 } else r) })

/-- R295: the ridges of a line that have become FIRED or WITHHELD since `was` are mirrored. -/
def mirrorClosed (s : State) (was : CLine) : State :=
  match s.cline was.ord with
  | none => s
  | some l =>
    let now := fun (st : Nat) => maskOf 16 (((l.ridges.zipIdx).filter (fun z =>
      z.1.st = st && (was.ridges[z.2]?).map RLine.st = some 4)).map Prod.snd)
    let s := if now 5 = 0 then s else s.mirrorLine l 1 (now 5)
    if now 6 = 0 then s else s.mirrorLine l 2 (now 6)

/-- Entries of a link's columns in the rows of each kind, in rising kind order. -/
def logRows (s : State) (q k : Nat) (rows : List (Nat × Nat)) : State :=
  (((rows.map Prod.snd).eraseDups).mergeSort (fun a b => decide (a ≤ b))).foldl (fun s kind =>
    s.logLine q kind 0 (rowSpans ((rows.filter (fun z => z.2 = kind)).map Prod.fst) (s.linkCol0 k) (s.linkCol1 k)) none) s

/-- R231: positions of rows under a head that reported HARD. -/
def hotSpans (s : State) (k : Nat) (rows : List Nat) : List LoggedSpan :=
  (s.headlink k).hot.flatMap (fun h =>
    rowSpans (rows.filter (fun r => bit h.rowmask r)) (s.linkCol0 k + h.col0) (min (s.linkCol1 k) (s.linkCol0 k + h.col1)))

/-- R231: whether the gate closed on a row's last fire pulse while it was on its way. -/
def gateCut (s : State) (q r : Nat) : Bool :=
  let later := s.crn.window.any (fun l => decide (q < l.ord) && l.rows[r]? = some .fired)
  match nth s.stb.prevFire r none, s.saf.closedAt with
  | some e, some c => !later && decide (e / 64 ≤ c) && decide (c < e / 64 + 40)
  | _, _ => false

/-- R231, R304: one FIRE_ACK record on a link. -/
def fireRec (s : State) (k : Nat) (f : FireRec) : State :=
  match s.lineOfSeq f.lseq with
  | none =>
    match s.pastOfSeq f.lseq with
    | some l => (s.updPast l.ord (fun l => { l with closedLinks := k :: l.closedLinks.filter (· != k) })).updHead k
        (fun h => { h with lastFired := some f.lseq })
    | none => s
  | some l =>
    if l.closedLinks.contains k || s.crn.groups.any (fun g => g.pend.contains (l.ord, k)) then s
    else
      let old := match s.twn.takeoverFrom with
        | some n => decide (l.ord < n)
        | none => false
      let pulsed := fun r => match l.rows[r]? with
        | some (.skipped _) => false
        | some (.toSkip _) => false
        | _ => true
      let unfired := (List.range 16).filter (fun r => pulsed r && !bit f.fired r)
      let gate := if s.saf.closedIlk then 1 else 2
      let kinds := unfired.map (fun r =>
        (r, if old then 0x0D else if bit f.lost r then 8 else if s.gateCut l.ord r then gate else 7))
      let early := kinds.filter (fun z => z.2 < 6)
      let late := kinds.filter (fun z => 6 < z.2)
      let s := s.logRows l.ord k early
      let s := s.logLine l.ord 6 0 (s.hotSpans k ((late.filter (fun z => z.2 = 7)).map Prod.fst)) none
      let s := s.logRows l.ord k late
      let s := if late.any (fun z => z.2 = 8) then
          ((s.count Reg.HLK_LOSTLINES 1).event Reg.HLK_EVENT 1).raise Src.HLK_LINE_LOST
        else s
      let s := s.updHead k (fun h => { h with lastFired := some f.lseq })
      (s.closeLink l.ord k (unfired.isEmpty && l.rows.all (fun r => match r with
        | .skipped _ => false
        | _ => true))).mirrorClosed l

/-- R304 step 5: after the PORT_SELECT, the old port's lines past the newest record of a link are withheld as TAKEOVER,
and so are the lines whose transmit points were crossed before every link had acknowledged. -/
def takeoverLines (s : State) : State :=
  match s.twn.takeoverFrom with
  | none => s
  | some n =>
    if s.hlk.selecting then s
    else
      let s := s.linksUsed.foldl (fun s k =>
        match (s.headlink k).lastFired with
        | none => s
        | some f =>
          (s.crn.window.filter (fun l => l.taken && l.ord < n && !l.closedLinks.contains k)).foldl (fun s l =>
            match l.lseq with
            | some q =>
              if seqFrom ((f + 1) % 2 ^ 32) q then
                ((s.logLine l.ord 0x0D 0 (rowSpans (List.range 16) (s.linkCol0 k) (s.linkCol1 k)) none).closeLink l.ord k false).mirrorClosed l
              else s
            | none => s) s) s
      (s.crn.window.filter (fun l => !l.taken && !l.dropped && l.ord < s.crn.crossed)).foldl (fun s l =>
        (s.logLine l.ord 0x0D 0 s.wholeLine none).updLine l.ord (fun l =>
          { l with dropped := true, ridges := l.ridges.map (fun (k : RLine) => { k with st := 6 }) })) s

/-- R230, R231: a FIRE_ACK frame: its records are newest first, and the oldest is read first. -/
def fireAck (s : State) (k : Nat) (portB : Bool) (recs : List FireRec) : State :=
  if s.statusUsed k portB then (recs.reverse.foldl (fun s f => s.fireRec k f) s).takeoverLines else s

/-- R232: HST_LOST of a link. -/
def hostLost (s : State) : State :=
  (((s.count Reg.HLK_LOSTLINES 1).event Reg.HLK_EVENT 1).event Reg.HLK_EVENT 2).raise Src.HLK_HST_LOST

/-- R232: no record for a line has arrived by ACK_TIMEOUT after its last pulse.  A line that was withheld in every ridge has
left the window by then; its positions stand in entries already. -/
def fireTimeout (s : State) (k lseq : Nat) : State :=
  match s.lineOfSeq lseq with
  | none =>
    match s.pastOfSeq lseq with
    | none => s
    | some l =>
      if !s.owns || s.linkRate k = 0 || l.closedLinks.contains k then s
      else (s.updPast l.ord (fun l => { l with closedLinks := k :: l.closedLinks })).hostLost
  | some l =>
    if !s.owns || s.linkRate k = 0 || l.closedLinks.contains k then s
    else
      let old := match s.twn.takeoverFrom with
        | some n => decide (l.ord < n)
        | none => false
      if !rowsDone l && !old then s
      else
        let s := s.logLine l.ord 8 0 (rowSpans (List.range 16) (s.linkCol0 k) (s.linkCol1 k)) none
        ((s.hostLost.closeLink l.ord k false).mirrorClosed l).voidAnswered l.ord k

/-- The codes that a link's answer shows fired in the columns of a void order. -/
def staleEntries (s : State) (k : Nat) (l : CLine) (fired : BitVec 16) : List ScreeEntry :=
  let spans := (maskBits l.voidRidges 16).flatMap (fun i =>
    let a := max (4096 * i) (s.linkCol0 k)
    let b := min (4096 * i + 4095) (s.linkCol1 k)
    if a ≤ b then rowSpans (maskBits fired 16) a b else [])
  (prisms spans).map (fun z =>
    { kind := 0x20, ctx := 0, rowmask := z.2.2, layer := l.layer, swath := l.swath, firstCol := z.1, lastCol := z.2.1,
      source := 0, firstLine := l.line, lastLine := l.line,
      count := ((maskBits z.2.2 16).map (fun r => sentCount l r z.1 z.2.1)).sum, seq := 0 })

/-- R171, R229: a VOID_ACK. -/
def voidAck (s : State) (k : Nat) (portB : Bool) (lseq : Nat) (fired : BitVec 16) : State :=
  match s.lineOfSeq lseq with
  | none => s
  | some l =>
    if !s.statusUsed k portB || !s.crn.groups.any (fun g => g.pend.contains (l.ord, k)) then s
    else
      let s := if fired = 0 then s
        else ((s.writeEntries (s.staleEntries k l fired)).event Reg.CRN_EVENT 6).raise Src.CRN_FIRED_STALE
      ((s.closeLink l.ord k (fired = 0xFFFF)).mirrorClosed l).voidAnswered l.ord k

/-- R201: an acknowledged trim upload is written into the entries of the link's actuators. -/
def trimAcked (s : State) (k : Nat) : State :=
  let mine := s.act.trims.filter (fun z => decide (s.linkCol0 k ≤ z.1 % 65536) && decide (z.1 % 65536 ≤ s.linkCol1 k))
  let s := mine.foldl (fun s z => s.wrLE (actAddr z.1 + 6) 2 (uNat 16 z.2)) s
  { s with act := { s.act with trims := s.act.trims.filter (fun z => !mine.contains z), trimWait := s.act.trimWait.filter (· != k) } }

/-- R223, R224, R304: what an acknowledged order allows. -/
def orderDone (s : State) (k : Nat) (o : HeadOrder) : State :=
  if o.typ = 0x21 then { s with hlk := { s.hlk with waveAcks := s.hlk.waveAcks.filter (fun z => z != (o.arg, k)) } }
  else if o.typ = 0x22 then
    { s with hlk := { s.hlk with fmaps := s.hlk.fmaps.map (fun m => if m.gen = o.arg then { m with acked := setBit m.acked k true } else m) } }
  else if o.typ = 0x23 then (if s.act.trimWait.contains k then (s.trimAcked k).mirror 7 (actBytes (.trimAck k)) else s)
  else if o.typ = 0x31 then
    if s.hlk.links.any (fun h => h.orders.any (fun p => p.typ = 0x31)) then s
    else ({ s with hlk := { s.hlk with selecting := false } }).takeoverLines
  else s

/-- R223: an ORDER_ACK. -/
def orderAck (s : State) (k : Nat) (portB : Bool) (order result : Nat) : State :=
  match (s.headlink k).orders.find? (fun o => o.order = order) with
  | none => s
  | some o =>
    -- a PORT_SELECT is answered on the port it selects
    if !s.owns || s.linkRate k = 0 || portB != s.hlk.portB then s
    else
      let s := s.updHead k (fun h => { h with orders := h.orders.filter (fun p => p.order != order) })
      if result = 0 then s.orderDone k o else (s.event Reg.HLK_EVENT 7).raise Src.HLK_ORDER_NAK

/-- R246: the derate request of a link after a TEMP frame. -/
def softLimit (s : State) (k : Nat) (recs : List TempRec) : State :=
  let soft : Int := s.rfld (Reg.HLK_TLIM k) 0 12
  let was := (s.headlink k).soft
  let past := recs.any (fun r => decide (soft < r.temp) || r.soft)
  let clear := recs.all (fun r => decide (r.temp ≤ soft - 50) && !r.soft)
  let now := past || (was && !clear)
  let s := s.updHead k (fun h => { h with soft := now })
  let s := if now && !was then (s.event Reg.HLK_EVENT 3).raise Src.HLK_HEAD_SOFT else s
  let d := s.hlk.links.any (fun h => h.soft)
  -- R261: DERATE in PLN_EVENT when the derate begins and again when it ends
  let s := if d = s.mot.derate then s
    else
      let s := s.event Reg.PLN_EVENT 3
      if s.mot.current.isSome then s.updAxis 0 (fun x => { x with replan := x.moving }) else s
  { s with mot := { s.mot with derate := d } }

/-- R247: a head at its hard limit is reported once, until a record has shown it below. -/
def hardLimit (s : State) (k : Nat) (r : TempRec) : State :=
  let hard : Int := s.rfld (Reg.HLK_TLIM k) 16 12
  let others := (s.headlink k).hot.filter (fun h => h.head != r.head)
  let known := (s.headlink k).hot.any (fun h => h.head = r.head)
  if r.hard || hard ≤ r.temp then
    let s := s.updHead k (fun h => { h with hot := r :: others })
    if known then s else (s.event Reg.HLK_EVENT 4).raise Src.HLK_HEAD_HOT
  else s.updHead k (fun h => { h with hot := others })

/-- R246, R247: a TEMP frame. -/
def tempFrame (s : State) (k : Nat) (portB : Bool) (recs : List TempRec) : State :=
  if !s.statusUsed k portB || recs.isEmpty then s
  else
    let s := recs.foldl (fun s r => s.hardLimit k r) (s.softLimit k recs)
    let top := recs.foldl (fun (m : Int) r => max m r.temp) ((recs.map TempRec.temp).headD 0)
    s.setReg (Reg.HLK_TEMP k) (setBit (setBit (setFld 0 0 16 (uNat 16 top)) 16 (s.headlink k).soft) 17 (!(s.headlink k).hot.isEmpty))

/-- R189, R233: one nozzle fault: the actuator is held off from the reported line on, and its non-zero codes in lines taken
since are logged. -/
def nozzleOff (s : State) (k idx lseq : Nat) : State :=
  let a := idx + s.linkCol0 k
  let r := a / 65536
  let c := a % 65536
  if s.linkCol1 k < c || 16 ≤ r then s
  else
    let s := s.updHead k (fun h => if h.nozzles.any (fun z => z.1 = a) then h else { h with nozzles := h.nozzles ++ [(a, lseq)] })
    let s := if s.act.headFaults.contains a then s else { s with act := { s.act with headFaults := s.act.headFaults ++ [a] } }
    let lines := s.crn.window.filter (fun l => l.taken && (match l.lseq with
      | some q => seqFrom lseq q
      | none => false))
    let s := lines.foldl (fun s l => if sentCount l r c c = 0 then s else s.logLine l.ord 7 0 (rowSpans [r] c c) none) s
    -- lines that have left the window since
    (s.crn.past.filter (fun l => (match l.lseq with
      | some q => seqFrom lseq q
      | none => false) && sentCount l r c c != 0)).foldl (fun s l =>
        (s.updPast l.ord (fun l => { l with logged := { row := r, c0 := c, c1 := c } :: l.logged })).screeWrite
          { kind := 7, ctx := 0, rowmask := setBit 0 r true, layer := l.layer, swath := l.swath, firstCol := c, lastCol := c,
            source := 0, firstLine := l.line, lastLine := l.line, count := 1, seq := 0 }) s

def nozzleFrame (s : State) (k : Nat) (portB : Bool) (recs : List (Nat × Nat)) : State :=
  if !s.statusUsed k portB then s
  else recs.foldl (fun s z => s.nozzleOff k z.1 z.2) ((s.event Reg.HLK_EVENT 5).raise Src.HLK_NOZZLE_FAULT)

/-- R230: a DRIVER_FAULT. -/
def driverFrame (s : State) (k : Nat) (portB : Bool) : State :=
  if !s.statusUsed k portB then s
  else (s.event Reg.HLK_EVENT 6).raise Src.HLK_DRIVER_FAULT

/-- R230: TEST_DONE says that the test order of that number has been fired; the gates alone give the results. -/
def testDoneFrame (s : State) (k : Nat) (portB : Bool) (order : Nat) : State :=
  if !s.statusUsed k portB then s
  else s.updHead k (fun h => { h with orders := h.orders.filter (fun o => !(o.order = order && o.typ = 0x24)) })

end State

/-- R219: a status frame of a link: what a good one says, and the count of a bad one. -/
def statusFrame (s : State) (l : Nat) (good : Bool) (o : State → State) : Out :=
  whenReady s (fun s => if good then o (s.heardOn (.head l)) else (s.heardOn (.head l)).badStatus l)

/-! ## Commands -/

/-- R231: a FIRE_ACK status frame. -/
def execFireAck (l : Nat) (h : StatusHdr) (recs : List FireRec) (s : State) : Out :=
  statusFrame s l h.good (fun s => s.fireAck l h.portB recs)

/-- R232: ACK_TIMEOUT passes without a record. -/
def execFireAckTimeout (l lseq : Nat) (s : State) : Out := whenReady s (fun s => s.fireTimeout l lseq)

/-- R171: a VOID_ACK status frame. -/
def execVoidAck (l : Nat) (h : StatusHdr) (lseq : Nat) (_voided fired : BitVec 16) (s : State) : Out :=
  statusFrame s l h.good (fun s => s.voidAck l h.portB lseq fired)

/-- R223: an ORDER_ACK status frame. -/
def execOrderAck (l : Nat) (h : StatusHdr) (order result : Nat) (s : State) : Out :=
  statusFrame s l h.good (fun s => s.orderAck l h.portB order result)

/-- R246: a TEMP status frame. -/
def execTemp (l : Nat) (h : StatusHdr) (recs : List TempRec) (s : State) : Out :=
  statusFrame s l h.good (fun s => s.tempFrame l h.portB recs)

/-- R233: a NOZZLE_FAULT status frame. -/
def execNozzleFault (l : Nat) (h : StatusHdr) (recs : List (Nat × Nat)) (s : State) : Out :=
  statusFrame s l h.good (fun s => s.nozzleFrame l h.portB recs)

/-- R230: a DRIVER_FAULT status frame. -/
def execDriverFault (l : Nat) (h : StatusHdr) (_code : Nat) (_rowmask : BitVec 16) (_lseq : Nat) (s : State) : Out :=
  statusFrame s l h.good (fun s => s.driverFrame l h.portB)

/-- R230: a TEST_DONE status frame. -/
def execTestDone (l : Nat) (h : StatusHdr) (order _shots : Nat) (s : State) : Out :=
  statusFrame s l h.good (fun s => s.testDoneFrame l h.portB order)

end Sys2Proof.Machine
end

