-- ==== Sys2Proof/Machine/Strobes.lean ====
section
/-! DEFINITION. Strobes: decision crossings, dropped lines, the edges with what makes them skips, and the guard (R237 to
R245, R490, R561). -/

namespace Sys2Proof.Machine

/-- No pulse of the line has been decided. -/
def undecided (l : CLine) : Bool := !l.dropped && l.rows.all (fun r => r = .none)

namespace State

/-- The swath whose lines are decided: the current one, or the one abandoned on its way. -/
def strobePlan (s : State) : Option SwathPlan :=
  match s.mot.current with
  | some w => some w.plan
  | none => s.crn.lastPlan

/-- R243: the speed is below v_min, or not valid. -/
def tooSlow (s : State) : Bool := s.posSpeed 0 * s.dose.grid.maxInterval < s.dose.grid.pitch * 256

/-- R561: a line not taken by its decision crossing is dropped; HLK_LOSTLINES counts it once on each link. -/
def dropLine (s : State) (l : CLine) : State :=
  let takeover := s.hlk.selecting || (match s.twn.takeoverFrom with
    | some n => decide (l.ord < n)
    | none => false)
  let (s, es) := s.lineEntries l (if takeover then 0x0D else 8) 0 s.wholeLine none
  let s := s.extendRuns [1, 2, 4, 5, 8, 13] es
  let s := s.updLine l.ord (fun l => { l with dropped := true, ridges := l.ridges.map (fun (k : RLine) => { k with st := 6 }) })
  if takeover then s else (s.count Reg.HLK_LOSTLINES s.linksUsed.length).event Reg.HLK_EVENT 1

/-- R561: a line that the state window has not reached by its decision crossing is dropped unseen. -/
def dropAhead (s : State) (w : Swath) (n : Int) : State :=
  let q := w.firstOrd + (planIndex w.plan n).toNat
  let logged := s.crn.lateSwath = some (w.plan.layer, w.plan.swath)
  let takeover := s.hlk.selecting || s.twn.takeoverFrom.any (fun n => decide (q < n))
  let e : ScreeEntry := { kind := if takeover then 0x0D else 8, ctx := 0, rowmask := 0xFFFF, layer := w.plan.layer,
                          swath := w.plan.swath, firstCol := 0, lastCol := s.columns - 1, source := 0, firstLine := n,
                          lastLine := n, count := 0xFFFFFFFF, seq := 0 }
  let s := if logged then s else s.extendRuns [1, 2, 4, 5, 8, 13] [e]
  if takeover then s else (s.count Reg.HLK_LOSTLINES s.linksUsed.length).event Reg.HLK_EVENT 1

/-- R19, R243: every row still due becomes a skip of the kind, unless it is one of a lower kind or of a void's. -/
def skipRows (s : State) (q kind : Nat) : State :=
  s.updLine q (fun l => { l with rows := l.rows.map (fun r => match r with
    | .toFire => .toSkip kind
    | .toSkip k => .toSkip (if k = 0 then 0 else min k kind)
    | r => r) })

/-- R239, R243, R245: the kind with which every row of a line is skipped at its decision crossing, if any. -/
def decisionKind (s : State) (n : Int) (t : Nat) : Option Nat :=
  let g := s.dose.grid
  match s.stb.lastDecision with
  | some (m, t0) =>
    if t = t0 && m != n then some 4
    else if s.tooSlow || g.maxInterval < t - t0 then some 4
    else if t - t0 < g.minInterval then some 5
    else none
  | none => if s.tooSlow then some 4 else none

/-- R243 POS_JUMP: the line decided before at this very sample is one of those passed. -/
def jumped (s : State) (p : SwathPlan) (n : Int) (t : Nat) : State :=
  match s.stb.lastDecision with
  | some (m, t0) =>
    if t = t0 && m != n then
      let s := (s.event Reg.STB_EVENT 3).raise Src.STB_POS_JUMP
      match s.crn.window.find? (fun (l : CLine) => l.layer = p.layer && l.swath = p.swath && l.line = m) with
      | some k => s.skipRows k.ord 4
      | none => s
    else s
  | none => s

/-- R239, R243: what each row of a taken line gets: a skip of a kind, a skip under a void of every column (R170) or in a row
whose group is past its ceiling (R17), or a fire pulse. -/
def decidedRows (s : State) (l : CLine) (p : SwathPlan) (kind : Option Nat) : List RowPulse :=
  let void := l.voidKind.isSome && l.voidRidges = s.allRidges
  (List.range 16).map (fun r => match kind with
    | some k => .toSkip k
    | none => if void || l.groupsOut.contains (s.groupAt r (planAt p l.line)) then .toSkip 0 else .toFire)

/-- R33, R239: the decision crossing of a line: POS0 passes T(n − K), or T(n + K), in the swath's firing direction. -/
def decide_ (s : State) (n : Int) (t : Nat) : State :=
  match s.strobePlan with
  | none => s
  | some p =>
    let k : Int := s.rfld Reg.STB_CTRL 0 3
    if !s.owns || !planHas p n || !s.crosses p.dir (s.gridPoint (if p.dir = 0 then n - k else n + k)) then s
    else
      match s.crn.window.find? (fun (l : CLine) => l.layer = p.layer && l.swath = p.swath && l.line = n) with
      | none =>
        match s.mot.current with
        | none => s
        | some w =>
          let q := w.firstOrd + (planIndex w.plan n).toNat
          if q < s.windowEnd || q < s.crn.decided then s
          else
            { s with stb := { s.stb with lastDecision := some (n, t), ovsRun := 0 },
                     crn := { s.crn with decided := q + 1 } }.dropAhead w n
      | some l =>
        if !undecided l then s
        else
          let kind := s.decisionKind n t
          let s := s.jumped p n t
          let s := { s with stb := { s.stb with lastDecision := some (n, t) },
                            crn := { s.crn with decided := max s.crn.decided (l.ord + 1) } }
          if !l.taken then
            (if s.mot.current.isSome then { s with stb := { s.stb with ovsRun := 0 } }.dropLine l else s)
          else s.updLine l.ord (fun l => { l with rows := s.decidedRows l p kind, early := kind = some 5 })

/-- R240: the lead of a row in PCLK ÷ 64. -/
def rowLead (s : State) (r : Nat) : Int := (s.rfld (Reg.STB_ROW r) 8 24 : Nat) + nth s.stb.vtrim r 0 + 32768

/-- R240: the fire target of a row, in 2⁻⁸ counts. -/
def fireTarget (s : State) (r : Nat) (n : Int) : Int :=
  s.gridPoint n - sInt 8 (s.rfld (Reg.STB_ROW r) 0 8) * s.dose.grid.pitch / 65536

/-- R240: the predicted time to the edge at this sample, in PCLK ÷ 64, rounded down; none while the speed is not valid. -/
def tau64 (s : State) (r dir : Nat) (n : Int) : Option Int :=
  let v := s.posSpeed 0
  if v = 0 then none
  else
    let d := if dir = 0 then s.fireTarget r n - s.posX 0 else s.posX 0 - s.fireTarget r n
    some (d * 2 ^ 22 / v - s.rowLead r)

/-- R243, R244: the kinds for which the gate withholds a pulse; 0 stands for the swath gate alone. -/
def gateKinds (s : State) : List Nat :=
  (if s.saf.interlock || s.saf.discrep then [1] else []) ++ (if s.saf.fault || s.saf.startup || s.saf.cascade then [2] else []) ++
    (if s.permitted && s.saf.skipWindow then [if s.saf.closedIlk then 1 else 2] else []) ++ (if s.saf.swgate then [0] else [])

/-- R245: a line whose pulses have left extends the OVERSPEED run or ends it. -/
def overspeedRun (s : State) (l : CLine) : State :=
  let void := l.voidKind.isSome && l.voidRidges = s.allRidges
  let run := if l.early && !void && l.rows.all (· = .skipped 5) then s.stb.ovsRun + 1 else 0
  let s := { s with stb := { s.stb with ovsRun := run } }
  if run = s.rfld Reg.STB_CTRL 8 8 + 1 then (s.event Reg.STB_EVENT 1).raise Src.STB_OVS_RUN else s

/-- R243: the last of a line's 16 pulses has left: what was skipped is logged, lines of one kind together. -/
def lineStrobed (s : State) (q : Nat) : State :=
  match s.cline q with
  | none => s
  | some l =>
    if !rowsDone l then s
    else
      let s := s.overspeedRun l
      let kindOf := fun (r : RowPulse) => match r with
        | .skipped k => k
        | _ => 0
      let kinds := (((l.rows.map kindOf).filter (· != 0)).eraseDups).mergeSort (fun a b => decide (a ≤ b))
      let void := l.voidKind.isSome && l.voidRidges = s.allRidges
      let (s, es) := if void then (s, []) else kinds.foldl (fun (acc : State × List ScreeEntry) k =>
        match acc.1.cline q with
        | none => acc
        | some m =>
          let rows := (List.range 16).filter (fun r => (m.rows[r]?).map kindOf = some k)
          let (s, e) := acc.1.lineEntries m k 0 (rowSpans rows 0 (acc.1.columns - 1)) none
          (s, acc.2 ++ e)) (s, [])
      let s := s.extendRuns [1, 2, 4, 5, 8, 13] es
      let s := if kinds.contains 5 then ((s.count Reg.STB_OVERSPEED 1).event Reg.STB_EVENT 0).raise Src.STB_OVERSPEED else s
      let s := if kinds.contains 4 then ((s.count Reg.STB_STANDSTILL 1).event Reg.STB_EVENT 2).raise Src.STB_STANDSTILL else s
      if kinds.contains 8 then ((s.count Reg.HLK_LOSTLINES l.unsent.length).event Reg.HLK_EVENT 1).raise Src.HLK_LINE_LOST else s

/-- R237, R240: the pulse of a row leaves at `e` (PCLK ÷ 64). -/
def placePulse (s : State) (q r e : Nat) (pulse : RowPulse) (late : Bool) : State :=
  let fire := pulse = .fired
  let s := { s with stb := { s.stb with
      prevEnd := upd s.stb.prevEnd r (fun _ => e + 64 * (if fire then 40 else 8)),
      prevFire := if fire then upd s.stb.prevFire r (fun _ => some e) else s.stb.prevFire } }
  let s := if fire then { s with saf := { s.saf with guardPass := upd s.saf.guardPass r (fun _ => some s.saf.guardCount) } } else s
  let s := s.count (if fire then Reg.STB_FIRES else Reg.STB_SKIPS) 1
  let s := if late then ((s.count Reg.STB_LATE 1).event Reg.STB_EVENT 4).raise Src.STB_PLACE_LATE else s
  let s := s.updLine q (fun l => { l with rows := upd l.rows r (fun _ => pulse) })
  (s.emit (.pulse r fire (e / 64) (e % 64))).lineStrobed q

/-- R243, R244, R490: the pulse of row `r` at `e0` (PCLK ÷ 64) or, for the gap of R237, later. -/
def edgeAt (s : State) (l : CLine) (dir r e0 : Nat) (late0 : Bool) (want : RowPulse) : State :=
  let prev := nth s.stb.prevEnd r 0
  let e := max e0 (prev + 2048)
  let late := late0 || e0 < e
  let base := match want with
    | .toSkip k => some k
    | _ => none
  let slow := s.tooSlow
  let unsent := !l.unsent.isEmpty
  let close := match nth s.stb.prevFire r none with
    | some f => decide (e < f + 64 * s.dose.grid.minInterval)
    | none => false
  let gate := s.gateKinds
  let kinds := (base.toList ++ (if slow then [4] else []) ++ (if close then [5] else []) ++ (if unsent then [8] else []) ++ gate)
  let s := if unsent then s.skipRows l.ord 8 else s
  let s := if slow then s.skipRows l.ord 4 else s
  if kinds.isEmpty then
    if s.guardPasses r dir then s.placePulse l.ord r e .fired late
    else (((s.event Reg.SAF_EVENT 5).count Reg.SAF_CUTS 1).raise Src.SAF_GUARD).placePulse l.ord r e (.skipped 4) late
  else
    -- a row skipped for no kind of its own stays so
    let named := if base = some 0 then [] else kinds.filter (· != 0)
    let k := named.foldl min (named.headD 0)
    let s := if base.isNone && !gate.isEmpty then s.event Reg.STB_EVENT 5 else s
    s.placePulse l.ord r e (.skipped k) late

/-- R240: the edge of row `r` of a line at this sample. -/
def edgeNow (s : State) (l : CLine) (dir r t : Nat) (want : RowPulse) : State :=
  let prev := nth s.stb.prevEnd r 0
  let tau := s.tau64 r dir l.line
  match tau with
  | some z =>
    if 64 ≤ z then s else s.edgeAt l dir r (64 * t + z.toNat) (z < 0) want
  | none => s.edgeAt l dir r (max (64 * t) (prev + 2048)) false want

/-- R242: the pulses of a row leave in line order: the oldest line whose row is decided. -/
def strobe (s : State) (r : Nat) (n : Int) (t : Nat) : State :=
  let waits := fun (l : CLine) => match l.rows[r]? with
    | some .toFire => true
    | some (.toSkip _) => true
    | _ => false
  match s.crn.window.find? waits with
  | none => s
  | some l =>
    if l.line != n || !s.owns then s
    else
      match s.planOf l.layer l.swath, l.rows[r]? with
      | some p, some want => s.edgeNow l p.dir r t want
      | _, _ => s

/-- R244: 10,000 PCLK after the gate is permitted again, the strobe unit places fire pulses again. -/
def skipOver (s : State) (t : Nat) : State :=
  match s.saf.openedAt with
  | some o => if s.saf.skipWindow && s.permitted && o + 10000 ≤ t then { s with saf := { s.saf with skipWindow := false } } else s
  | none => s

end State

/-! ## Commands -/

/-- R239: the encoder crosses a line's decision point. -/
def execDecisionCrossing (line : Int) (t : Nat) (s : State) : Out := whenReady s (fun s => (s.at_ t).decide_ line t)

/-- R240: a row's edge time arrives. -/
def execStrobeEdge (row : Nat) (line : Int) (t : Nat) (s : State) : Out := whenReady s (fun s => (s.at_ t).strobe row line t)

/-- R244: the 50 µs after a rearm are over. -/
def execSkipWindowEnd (t : Nat) (s : State) : Out := whenClocked s (fun s => (s.at_ t).skipOver t)

end Sys2Proof.Machine
end

