-- ==== Sys2Proof/Machine/Trajectory.lean ====
section
/-! DEFINITION. Trajectories of constant-jerk segments (R253 to R257): positions in 2⁻⁸ units, velocities in units/s,
accelerations in units/s², jerks in units/s³, times in ns.  The rule gives exact real arithmetic; how the planner rounds
it, it does not say (log entry 9). -/

namespace Sys2Proof.Machine

/-! ## Numbers -/

/-- The square root, rounded down, by `n` halvings of the interval `[lo, hi)`. -/
def rootIn : Nat → Nat → Nat → Nat → Nat
  | 0, _, lo, _ => lo
  | n + 1, x, lo, hi =>
    let m := (lo + hi) / 2
    if m * m ≤ x then rootIn n x m hi else rootIn n x lo m

/-- The square root, rounded down, of a number below 2²⁵⁶. -/
def isqrt (x : Nat) : Nat := rootIn 130 x 0 (2 ^ 129)

/-- R253: the travel from rest to speed `v` at the shortest, with acceleration limit `a` and jerk limit `j` (1,000
units/s³); none when a limit of 0 keeps the axis from it. -/
def runDistance (v a j : Nat) : Option Nat :=
  let j := 1000 * j
  if v = 0 then some 0
  else if a = 0 || j = 0 then none
  else if v * j ≤ a * a then some (isqrt (v * v * v / j))
  else some (v * (v * j + a * a) / (2 * a * j))

/-! ## Segments -/

/-- The travel of a segment in its first `t` ns, in 2⁻⁸ units. -/
def Seg.dist (g : Seg) (t : Nat) : Int :=
  (6 * g.v * t * 10 ^ 18 + 3 * g.a * (t * t : Nat) * 10 ^ 9 + g.j * (t * t * t : Nat)) * 256 / (6 * 10 ^ 27)

def Seg.vel (g : Seg) (t : Nat) : Int := g.v + (2 * g.a * t * 10 ^ 9 + g.j * (t * t : Nat)) / (2 * 10 ^ 18)

def Seg.acc (g : Seg) (t : Nat) : Int := g.a + g.j * t / 10 ^ 9

def segsTime (l : List Seg) : Nat := (l.map Seg.t).sum

def segsDist (l : List Seg) : Int := (l.map (fun g => g.dist g.t)).sum

/-- The planned position, velocity and acceleration `e` ns after a trajectory has begun at `p`. -/
def planAtTime : List Seg → Int → Nat → AxisState
  | [], p, _ => { pos := p, vel := 0, acc := 0 }
  | g :: l, p, e =>
    if e < g.t then { pos := p + g.dist e, vel := g.vel e, acc := g.acc e } else planAtTime l (p + g.dist g.t) (e - g.t)

/-- The positions at the boundaries of the segments that are still to end `e` ns after the trajectory has begun at `p`. -/
def planTurns : List Seg → Int → Nat → List Int
  | [], _, _ => []
  | g :: l, p, e => (if e < g.t then [p + g.dist g.t] else []) ++ planTurns l (p + g.dist g.t) (e - g.t)

/-- The mirror image of a trajectory. -/
def mirrorSegs (l : List Seg) : List Seg := l.map (fun g => { g with v := -g.v, a := -g.a, j := -g.j })

/-- R253: the segments of one change of velocity from `v`, with acceleration `a` of no more than `amax`, to `v1` at rest of
acceleration: jerk, a stretch at `amax` where it is needed, and jerk back. -/
def velSegs (v a v1 : Int) (amax j : Nat) : List Seg :=
  let J : Int := j
  let s : Int := if v + a * a.natAbs / (2 * J) ≤ v1 then 1 else -1
  let w := s * (v1 - v)
  let b := s * a
  let top : Int := min amax (isqrt (J * w + b * b / 2).toNat)
  let t2 := ((2 * J * w + b * b - 2 * top * top) * 10 ^ 9 / max 1 (2 * J * top)).toNat
  [{ v := v, a := a, j := s * J, t := ((top - b) * 10 ^ 9 / J).toNat },
   { v := v + s * ((top * top - b * b) / (2 * J)), a := s * top, j := 0, t := if top < amax then 0 else t2 },
   { v := v1 - s * (top * top / (2 * J)), a := s * top, j := -(s * J), t := (top * 10 ^ 9 / J).toNat }]

/-- R255: an acceleration above the limit is first brought within it. -/
def velTo (v a v1 : Int) (amax j : Nat) : List Seg :=
  let excess := a.natAbs - amax
  if amax = 0 || j = 0 then []
  else if excess = 0 then velSegs v a v1 amax j
  else
    let s : Int := if 0 ≤ a then 1 else -1
    let v' := v + s * ((a * a - (amax : Int) * amax) / (2 * j))
    { v := v, a := a, j := -(s * j), t := excess * 10 ^ 9 / j } :: velSegs v' (s * amax) v1 amax j

/-- To the velocity `c` and from there to rest. -/
def viaSpeed (v a c : Int) (amax j : Nat) : List Seg := velTo v a c amax j ++ velTo c 0 0 amax j

/-- The highest speed in `[lo, hi)` from which the axis comes to rest within `d`, by `n` halvings. -/
def topSpeed : Nat → Int → Int → Int → Nat → Nat → Nat → Nat → Nat
  | 0, _, _, _, _, _, lo, _ => lo
  | n + 1, v, a, d, amax, j, lo, hi =>
    let m := (lo + hi) / 2
    if segsDist (viaSpeed v a m amax j) ≤ d then topSpeed n v a d amax j m hi else topSpeed n v a d amax j lo m

/-- R253: the shortest-time trajectory over `d` ≥ 0 whose stopping distance lies within it: to a speed of no more than
`vmax`, on at it, and to rest. -/
def forward (v a d : Int) (vmax amax j : Nat) : List Seg :=
  let c := topSpeed 33 v a d amax j 0 (vmax + 1)
  let rest := d - segsDist (viaSpeed v a c amax j)
  velTo v a c amax j ++ [{ v := c, a := 0, j := 0, t := if c = 0 then 0 else (rest * 10 ^ 9 / (256 * c)).toNat }] ++
    velTo c 0 0 amax j

/-- Over `d` in either direction. -/
def toward (v a d : Int) (vmax amax j : Nat) : List Seg :=
  if 0 ≤ d then forward v a d vmax amax j else mirrorSegs (forward (-v) (-a) (-d) vmax amax j)

/-- R254, R255: the axis cannot come to rest at `d` without passing it, or moves away from it: it stops and reverses. -/
def passes (v a d : Int) (amax j : Nat) : Bool :=
  let stop := segsDist (velTo v a 0 amax j)
  if 0 ≤ d then decide (d < stop) || decide (stop < 0) else decide (stop < d) || decide (0 < stop)

/-- R253 to R255: the trajectory over `d`; one that would pass the target comes to rest and returns, as the example of R257
does. -/
def moveSegs (v a d : Int) (vmax amax j : Nat) : List Seg :=
  if amax = 0 || j = 0 then []
  else if passes v a d amax j then
    let stop := velTo v a 0 amax j
    stop ++ toward 0 0 (d - segsDist stop) vmax amax j
  else toward v a d vmax amax j

end Sys2Proof.Machine
end

