-- ==== Sys2Proof/Machine/Motion.lean ====
section
/-! DEFINITION. Axes: moves, stops, limits, homing, layers, swaths as the planner runs them, edits, set-point frames,
steppers and switches (R250 to R268, R277 to R287). -/

namespace Sys2Proof.Machine

/-! ## Set-point frames (R266) -/

/-- One bit of the CRC-8 of polynomial x⁸ + x² + x + 1, most significant bit first. -/
def crc8Bit (c : Byte) : Byte := if bit c 7 then (c <<< 1) ^^^ 0x07 else c <<< 1

def crc8Byte (c b : Byte) : Byte :=
  crc8Bit (crc8Bit (crc8Bit (crc8Bit (crc8Bit (crc8Bit (crc8Bit (crc8Bit (c ^^^ b))))))))

/-- R266: initial value 0xFF and no reflection. -/
def crc8 (bs : Bytes) : Byte := bs.foldl crc8Byte 0xFF

/-- R266: a set-point frame: whole counts, fraction, feed-forward in counts per ms, CTRL. -/
def setPoint (pos vel : Int) (atRest : Bool) (seq : Nat) : Bytes :=
  let body := leBytes 4 (uNat 32 (pos / 256)) ++ leBytes 1 (uNat 8 pos) ++ leBytes 2 (uNat 16 (vel / 1000)) ++
    leBytes 1 (1 + (if atRest then 2 else 0) + 16 * (seq % 16)) ++ [0]
  body ++ [crc8 body]

/-! ## Limits and positions -/

namespace State

/-- Servo period in ns (PLN_CTRL.SERVO). -/
def servoPeriod (s : State) : Nat :=
  match s.rfld Reg.PLN_CTRL 0 2 with
  | 1 => 31250
  | 2 => 125000
  | _ => 62500

/-- The timebase of the last servo tick, in ns. -/
def lastTick (s : State) : Nat := s.now / s.servoPeriod * s.servoPeriod

/-- R253, R255: the limit in force: VMAX, AMAX, JMAX for `which` 0, 1, 2. -/
def limitReg (a which : Nat) : Nat :=
  match which with
  | 0 => Reg.PLN_VMAX a
  | 1 => Reg.PLN_AMAX a
  | _ => Reg.PLN_JMAX a

/-- A limit in force: the register's, unless a write waits for standstill (R256), which holds the old value. -/
def limitOf (s : State) (a which : Nat) : Nat :=
  match (s.axis a).pend.find? (fun p => p.1 = which) with
  | some p => p.2.toNat
  | none => (s.reg (limitReg a which)).toNat

def softLo (s : State) (a : Nat) : Int := sWord (s.reg (Reg.PLN_SOFTLO a))

def softHi (s : State) (a : Nat) : Int := sWord (s.reg (Reg.PLN_SOFTHI a))

/-- R257, R562: a position in whole units inside the soft limits. -/
def softOk (s : State) (a : Nat) (x : Int) : Bool := decide (s.softLo a ≤ x) && decide (x ≤ s.softHi a)

/-- The module plans: it has an axis unit, is the lead, and owns the outputs (R250, R252). -/
def plans (s : State) : Bool := s.hasAxis && s.isLead && s.owns

/-- R252: the module plans, or keeps the plan of the module that does. -/
def plansAlong (s : State) : Bool := s.hasAxis && s.isLead && (s.owns || s.follows)

/-- R319: this module drives its carriage: it plans, or it is a carriage master that follows the lead's plan. -/
def drives (s : State) : Bool := s.plans || (s.hasAxis && s.owns && !s.isLead && s.csc.jstate = 3 && s.rbit Reg.CSC_CARRIAGE 2)

/-! ## Switches as limits (R281 to R283) -/

def switchOf (s : State) (k : Nat) : Switch := nth s.swi k { active := false, faulty := false }

/-- The switches of a role for an axis. -/
def roleSwitches (s : State) (role a : Nat) : List Nat :=
  (List.range 8).filter (fun k => s.rfld (Reg.SWI_CFG k) 0 3 = role && s.rfld (Reg.SWI_CFG k) 3 2 = a)

/-- R282, R283: the limit of an axis in a direction is active; a FAULTY limit switch counts as active. -/
def limitActive (s : State) (a : Nat) (positive : Bool) : Bool :=
  (s.roleSwitches (if positive then 3 else 2) a).any (fun k => (s.switchOf k).active || (s.switchOf k).faulty)

/-! ## Moves -/

/-- R280: VALID of the axis's record is written 0 before its next move begins. -/
def recordOff (s : State) (a : Nat) : State := { s with island := upd s.island (64 + 16 * a) (fun _ => 0) }

/-- R254, R256: a move toward a target (in 2⁻⁸ units) is asked for, and planned at the next servo tick; limits that waited
apply from it.  A move toward an active limit stops at once (R283). -/
def startMove (s : State) (a : Nat) (target : Int) : State :=
  let s := s.recordOff a
  let toward := target != (s.axis a).pos && s.limitActive a (decide ((s.axis a).pos < target))
  let s := s.updAxis a (fun x =>
    { x with target := target, moving := true, stopping := toward, pend := if x.moving then x.pend else [], restAt := none,
             replan := true })
  if 2 ≤ a then s.updStp (a - 2) (fun m => { m with hold := false, stalled := false }) else s

/-- R283, R286: the axis stops at SDEC, if it moves. -/
def stopAxis (s : State) (a : Nat) : State := s.updAxis a (fun x => { x with stopping := x.moving, replan := x.moving })

/-- Every moving axis stops at SDEC; layer moves that had not begun are not made. -/
def stopAll (s : State) : State :=
  let s := { s with mot := { s.mot with recoats := 0, platformMove := false } }
  (List.range 4).foldl (fun s a => s.stopAxis a) s

/-- R267, R279: the trajectory of an axis ends where it is. -/
def freezeAxis (s : State) (a : Nat) : State :=
  let s := s.updAxis a (fun x =>
    { x with vel := 0, acc := 0, target := x.pos, moving := false, stopping := false, restAt := some s.clk.pclk,
             segs := [], replan := false, asks := [] })
  { s with mot := if 2 ≤ a then { s.mot with recoats := 0, platformMove := false } else s.mot }

/-- R277: STP_POS follows the planned position, and the electrical index follows STP_POS. -/
def stepTo (s : State) (a : Nat) (pos : Int) : State :=
  if 2 ≤ a then s.updStp (a - 2) (fun m => { m with pos := pos / 256, elec := uNat 10 (pos / 256) }) else s

/-! ## Homing (R284 to R287) -/

def homeMethod (s : State) (a : Nat) : Nat := s.rfld (Reg.PLN_HOME a) 0 2

def homeUp (s : State) (a : Nat) : Bool := s.rbit (Reg.PLN_HOME a) 2

/-- The home switch of an axis (METHOD SWITCH). -/
def homeSwitch (s : State) (a : Nat) : Nat := s.rfld (Reg.PLN_HOME a) 4 3

def homeStat (s : State) (a : Nat) : Nat := s.rfld (Reg.PLN_HSTAT a) 0 4

def setHomeStat (s : State) (a v : Nat) : State := s.setReg (Reg.PLN_HSTAT a) (BitVec.ofNat 32 v)

/-- R286: one axis aborts with `code`; every moving axis stops, and the axes not yet DONE are CANCELLED. -/
def homingAbort (s : State) (a code : Nat) : State :=
  let s := s.mot.homing.foldl (fun s b => (s.updAxis b (fun x => { x with hstate := 0 })).setHomeStat b 7) s
  let s := (s.updAxis a (fun x => { x with hstate := 5 })).setHomeStat a code
  let s := { s.stopAll with mot := { s.stopAll.mot with homing := [] } }
  ((s.event Reg.PLN_EVENT 6).setBuild Build.UNHOMED).raise Src.PLN_HOMING_ABORT

/-- The axis that homes now, when it is in SEEK, BACKOFF or CREEP. -/
def homingNow (s : State) : Option Nat :=
  match s.mot.homing with
  | a :: _ => if 1 ≤ (s.axis a).hstate && (s.axis a).hstate ≤ 3 then some a else none
  | [] => none

/-- R285: the axis moves in or against its seek direction until something stops it. -/
def homeMove (s : State) (a : Nat) (along : Bool) : State :=
  let up := if along then s.homeUp a else !s.homeUp a
  let span : Int := 2 * 256 * ((s.reg (Reg.PLN_HRANGE a)).toNat + 1)
  let s := s.recordOff a
  let s := s.updAxis a (fun x =>
    { x with target := if up then x.pos + span else x.pos - span, moving := true, stopping := false, restAt := none,
             replan := true })
  if 2 ≤ a then s.updStp (a - 2) (fun m => { m with hold := false, stalled := false }) else s

/-- R285: DONE; the axis after it takes its turn with `homeTurn`. -/
def homeDone (s : State) (a : Nat) : State :=
  let s := (s.updAxis a (fun x => { x with hstate := 4, hmark := none, stopping := x.moving, replan := x.moving,
                                           restAt := if x.moving then none else some s.clk.pclk })).setHomeStat a 2
  { s with mot := { s.mot with homing := s.mot.homing.filter (· != a) } }

/-- R284, R285: the axis whose turn it is: a retained stepper is DONE at once, ABSOLUTE waits for a valid read, and the
others seek; when none is left, homing is complete.  `n` bounds the axes that are DONE at once. -/
def homeTurn : Nat → State → State
  | 0, s => s
  | n + 1, s =>
    match s.mot.homing with
    | [] => if s.mot.bstate = Build.HOMING then (s.event Reg.PLN_EVENT 5).setBuild Build.READY else s
    | a :: _ =>
      if 2 ≤ a && s.rbit (Reg.PLN_HOME a) 3 && (s.stepper (a - 2)).retained then homeTurn n (s.homeDone a)
      else if s.homeMethod a = 2 then s
      else
        let s := (s.updAxis a (fun x => { x with hstate := 1, travel := 0, hmark := none })).setHomeStat a 1
        if s.limitActive a (s.homeUp a) then s.homingAbort a 3
        else if s.homeMethod a = 0 && (s.switchOf (s.homeSwitch a)).faulty then s.homingAbort a 5
        else s.homeMove a true

/-- R284: a HOME directive: the named axes in the order recoater, platform, index, scan. -/
def startHoming (s : State) (axes : Nat) : State :=
  let order := [3, 2, 1, 0].filter (fun a => axes.testBit a)
  let s := { s with mot := { s.mot with homing := order } }.setBuild Build.HOMING
  homeTurn 5 (order.foldl (fun s a => s.updAxis a (fun x => { x with hstate := 0 })) s)

/-- R287: an axis that is HOMED loses homing; in READY, LAYER and CLOSING the state becomes HELD. -/
def loseHoming (s : State) (a : Nat) : State :=
  if s.homeStat a != 2 then s
  else
    let b := s.mot.bstate
    let s := ((s.setHomeStat a 8).event Reg.PLN_EVENT 7).raise Src.PLN_HOMING_LOST
    let s := if b = Build.READY || b = Build.LAYER || b = Build.CLOSING then s.enterHeld else s
    { s with mot := { s.mot with heldHomed := false } }

/-- R285, R287: a fault of an axis that aborts its homing, or loses it. -/
def axisFault (s : State) (a : Nat) : State :=
  if s.homingNow = some a then s.homingAbort a 6 else s.loseHoming a

/-- A major fault of a position unit, and what it does to its axis. -/
def unitFault (s : State) (u src : Nat) : State :=
  let s := s.posFault u src
  if u < 2 then s.axisFault u else s

/-- R283: a limit switch trips, or becomes FAULTY.  While the module homes, only the homing axis's limits act. -/
def limitTrip (s : State) (a : Nat) : State :=
  if s.homingNow = some a then s.homingAbort a 3
  else if s.mot.bstate = Build.HOMING then s
  else ((s.stopAll.event Reg.PLN_EVENT 8).raise Src.PLN_LIMIT_TRIP).loseHoming a

/-- R285: the axis's own position becomes `pos` (whole units) at this point; the position unit's count moves with it. -/
def shiftAxis (s : State) (a : Nat) (pos : Int) : State :=
  if a < 2 then
    let d := pos - s.posX a / 256
    let s := if a = 0 then { s with stb := { s.stb with lastDecision := none } } else s
    (s.updPos a (fun p => p.shift d (posMode s a) s.clk.pclk)).updAxis a (fun x =>
      { x with pos := x.pos + 256 * d, target := x.target + 256 * d, base := x.base + 256 * d })
  else
    let d := 256 * pos - (s.axis a).pos
    (s.updAxis a (fun x => { x with pos := 256 * pos, target := x.target + d, base := x.base + d })).updStp (a - 2) (fun m => { m with pos := pos, elec := uNat 10 pos })

/-- R285: the home switch of the homing axis changes. -/
def homeSwitchChange (s : State) (a : Nat) (active : Bool) : State :=
  match (s.axis a).hstate, active with
  | 1, true => (s.updAxis a (fun x => { x with hstate := 2, hmark := none })).homeMove a false
  | 2, false => s.updAxis a (fun x => { x with hmark := some x.pos })
  | 2, true => s.updAxis a (fun x => { x with hmark := none })
  | 3, true => homeTurn 5 ((s.shiftAxis a (sWord (s.reg (Reg.PLN_HPOS a)))).homeDone a)
  | _, _ => s

/-- R285: travel of the homing axis at a servo tick: BACKOFF ends after HBACK, and too much of it aborts. -/
def homeTravel (s : State) (a : Nat) (d : Int) : State :=
  let s := s.updAxis a (fun x => { x with travel := x.travel + d })
  let x := s.axis a
  if 256 * ((s.reg (Reg.PLN_HRANGE a)).toNat : Int) < x.travel then s.homingAbort a 4
  else if x.hstate = 2 then
    match x.hmark with
    | none => s
    | some m =>
      if 256 * ((s.reg (Reg.PLN_HBACK a)).toNat : Int) ≤ (x.pos - m).natAbs then
        if s.homeMethod a = 1 then homeTurn 5 (s.homeDone a)
        else (s.updAxis a (fun x => { x with hstate := 3 })).homeMove a true
      else s
  else s

/-! ## Swaths (R258 to R263) -/

/-- R259: v_s, in counts/s. -/
def swathSpeed (s : State) (p : SwathPlan) : Nat := p.speed * 100000000 / (s.reg Reg.PLN_SCALE).toNat

/-- R33: v_min, rounded up to counts/s. -/
def minSpeed (s : State) : Nat :=
  let d := 65536 * s.dose.grid.maxInterval
  (s.dose.grid.pitch * 200000000 + d - 1) / max 1 d

/-- R255, R261: the planned speed of a swath: derated, within VMAX, and never below v_min. -/
def scanSpeed (s : State) (p : SwathPlan) : Nat :=
  let v := s.swathSpeed p
  max (min (if s.mot.derate then v * s.rfld Reg.PLN_CTRL 8 8 / 256 else v) (s.limitOf 0 0)) s.minSpeed

/-- R259: the line whose crossing begins the firing span. -/
def spanStart (s : State) (p : SwathPlan) : Int :=
  let m : Int := 8 + s.rfld Reg.PLN_CTRL 16 8
  if p.dir = 0 then p.lineFirst - m else p.lineLast + m

/-- R34, R105, R260: v_s lies from v_min to v_max and not above VMAX, and the run-in start, the firing span and
INDEX_TARGET inside the soft limits.  The limits are those that the next move will have (R256).  With AMAX or JMAX 0 no
run-in start lies inside them (log entry 51). -/
def planFits (s : State) (p : SwathPlan) : Bool :=
  let v := s.swathSpeed p
  let up := p.dir = 0
  let a := s.gridPoint (s.spanStart p)
  let b := s.gridPoint (if up then p.lineLast else p.lineFirst)
  let inside := fun (x : Int) => decide (256 * s.softLo 0 ≤ x) && decide (x ≤ 256 * s.softHi 0)
  let runIn := match runDistance v (s.reg (limitReg 0 1)).toNat (s.reg (limitReg 0 2)).toNat with
    | none => false
    | some d => inside (if up then a - 256 * d else a + 256 * d)
  decide (s.dose.grid.pitch * 200000000 ≤ v * 65536 * s.dose.grid.maxInterval) &&
    decide (v * 65536 * s.dose.grid.minInterval ≤ s.dose.grid.pitch * 200000000) && decide (v ≤ (s.reg (Reg.PLN_VMAX 0)).toNat) &&
    inside a && inside b && runIn && s.softOk 1 p.indexTarget

/-- R190: whether a station stands at the end where a swath of the direction ends. -/
def hasStation (s : State) (dir : Nat) : Bool := s.rbit Reg.ACT_CTRL (if dir = 0 then 0 else 1)

/-- R262: the station zone at the end of a swath of the direction, in counts. -/
def stationZone (s : State) (dir : Nat) : Int × Int :=
  if dir = 0 then (sWord (s.reg Reg.PLN_STN_PLO), sWord (s.reg Reg.PLN_STN_PHI))
  else (sWord (s.reg Reg.PLN_STN_NLO), sWord (s.reg Reg.PLN_STN_NHI))

/-- R259: the line whose crossing ends the firing span. -/
def spanEnd (p : SwathPlan) : Int := if p.dir = 0 then p.lineLast else p.lineFirst

/-- The jerk limit of an axis, in units/s³. -/
def jerkOf (s : State) (a : Nat) : Nat := 1000 * s.limitOf a 2

/-- R262: where the scan axis comes to rest after a swath: the centre of the station zone, or past the span by its
run-out. -/
def runOutTarget (s : State) (p : SwathPlan) : Int :=
  if s.hasStation p.dir then
    let z := s.stationZone p.dir
    128 * (z.1 + z.2)
  else
    let d := segsDist (velTo (s.scanSpeed p) 0 0 (s.limitOf 0 1) (s.jerkOf 0))
    if p.dir = 0 then s.gridPoint (spanEnd p) + d else s.gridPoint (spanEnd p) - d

/-- R251: PLN_STATE. -/
def plnState (s : State) : BitVec 32 :=
  fields [(0, 3, s.mot.bstate), (3, 3, s.mot.queue.length), (6, 1, flag s.mot.inCol), (7, 1, flag s.mot.derate),
    (8, 4, (bitsWhere 4 (fun a => s.homeStat a = 2)).toNat), (12, 4, (bitsWhere 4 (fun a => (s.axis a).moving)).toNat)]

/-- R262, R100, R25, R263: the next queued swath becomes current, once no swath is, the col's hold is over, the scree
spill does not hold it and the layer's moves are done. -/
def startSwath (s : State) : State :=
  match s.mot.current, s.mot.queue with
  | none, w :: rest =>
    if s.scree.held || s.mot.platformMove || s.mot.recoats != 0 || (s.axis 2).moving || (s.axis 3).moving ||
        s.act.phase = 1 || s.act.hold.isSome then s
    else
      -- R242: what was written before this swath, or one abandoned before it began, was planned
      let trim := ((s.stb.vtrimNext.reverse.find? (fun p => decide (p.1 ≤ w.issued))).map Prod.snd).getD s.stb.vtrim
      let s := { s with
        mot := { s.mot with current := some w, queue := rest, spanOn := false },
        stb := { s.stb with lastDecision := none, vtrim := trim,
                            vtrimNext := s.stb.vtrimNext.filter (fun p => decide (w.issued < p.1)) },
        saf := { s.saf with guardPass := List.replicate 16 none },
        twn := { s.twn with lates := 0 } }
      if s.plansAlong then (s.startMove 1 (256 * w.plan.indexTarget)).startMove 0 (s.runOutTarget w.plan) else s
  | _, _ => s

/-- R263: a recoat pass: to whichever of the two positions lies further away; of two equally far, to PLN_RCT0 (DESIGN CHOICE,
log entry 152). -/
def recoatPass (s : State) : State :=
  let a := 256 * sWord (s.reg Reg.PLN_RCT0)
  let b := 256 * sWord (s.reg Reg.PLN_RCT1)
  let p := (s.axis 3).pos
  s.startMove 3 (if (b - p).natAbs ≤ (a - p).natAbs then a else b)

/-! ## Moves complete -/

/-- R253: where the trajectory of an axis has it, `e` ns after the servo tick at which it began. -/
def plannedAt (s : State) (a t : Nat) : AxisState :=
  let x := s.axis a
  if x.moving && !x.segs.isEmpty then planAtTime x.segs x.base (t - x.began)
  else { pos := x.pos, vel := x.vel, acc := x.acc }

/-- R253: the trajectory of a moving axis has come to its end, where this module plans it. -/
def atRest (s : State) (a : Nat) : Bool :=
  let x := s.axis a
  !s.plans || (!x.replan && decide (x.began + segsTime x.segs ≤ s.now) && (x.stopping || !x.segs.isEmpty || x.pos = x.target))

/-- R253, R263: the axis is at rest, at its target or where its stop ended. -/
def moveDone (s : State) (a : Nat) : State :=
  let x := s.axis a
  if !x.moving || !s.atRest a then s
  else
    let pos := if x.stopping then (s.plannedAt a s.now).pos else x.target
    let s := s.updAxis a (fun x =>
      { x with pos := pos, vel := 0, acc := 0, target := pos, moving := false, stopping := false, pend := [],
               segs := [], replan := false, asks := [], restAt := some s.clk.pclk })
    let s := s.stepTo a pos
    if a = 2 && s.mot.platformMove then
      let s := { s with mot := { s.mot with platformMove := false } }
      if s.mot.recoats = 0 then s.startSwath else s.recoatPass
    else if a = 3 && s.mot.recoats != 0 && !s.mot.platformMove then
      let s := { s with mot := { s.mot with recoats := s.mot.recoats - 1 } }
      if s.mot.recoats = 0 then s.startSwath else s.recoatPass
    else s.startSwath

/-- R259, R262: the current swath's firing span begins: the scan axis runs at the planned speed, and the index axis is at
rest at INDEX_TARGET. -/
def spanBegins (s : State) : State :=
  match s.mot.current with
  | none => s
  | some w =>
    let x := s.axis 1
    if s.mot.spanOn || (s.plans && (x.moving || x.pos != 256 * w.plan.indexTarget)) then s
    else { s with mot := { s.mot with spanOn := true, inCol := false } }

/-! ## Limit writes (R255 to R257, R261) -/

/-- R255, R256: a limit is written: the next servo tick plans with it.  Once a limit waits for standstill, a further write
waits with it. -/
def limitWrite (s : State) (a which : Nat) (v : BitVec 32) : State :=
  let old := s.reg (limitReg a which)
  (s.setReg (limitReg a which) v).updAxis a (fun x =>
    if !x.moving || x.pend.any (fun p => p.1 = which) then x
    else { x with replan := true, asks := if x.asks.any (fun p => p.1 = which) then x.asks else x.asks ++ [(which, old)] })

/-! ## Edits (R174, R264) -/

/-- R258: the record of a swath plan, and whether its reserved fields are 0. -/
def planRecord (bs : Bytes) : SwathPlan × Bool :=
  ({ layer := fieldLE bs 0 3, swath := fieldLE bs 4 2, dir := fieldLE bs 6 1, pass := fieldLE bs 7 1,
     lineFirst := fieldLEs bs 8 4, lineLast := fieldLEs bs 12 4, indexOffset := fieldLEs bs 16 4,
     speed := fieldLE bs 20 2, swtag := fieldLE bs 22 2, indexTarget := fieldLEs bs 24 4 },
   fieldLE bs 3 1 = 0 && fieldLE bs 28 4 = 0)

/-- R318: this position's transforms of a swath plan. -/
def ownPlan (s : State) (p : SwathPlan) : SwathPlan :=
  let shift := sWord (s.reg Reg.CSC_LINEOFS)
  { p with indexOffset := p.indexOffset + sWord (s.reg Reg.CSC_COLBASE), lineFirst := p.lineFirst + shift,
           lineLast := p.lineLast + shift }

/-- The last line in firing order. -/
def lastLine (p : SwathPlan) : Int := planLine p (planLen p - 1)

/-- R174: ordinal of the divergence line of a change of one swath. -/
def divergence (s : State) (w : Swath) (p : SwathPlan) : Nat :=
  let old := w.plan
  if old.dir != p.dir || old.indexOffset != p.indexOffset || old.pass != p.pass || planFirst old != planFirst p ||
      lastLine old = lastLine p then w.firstOrd
  else
    let earlier : Int := min (planLen old) (planLen p) - 1
    w.firstOrd + (max 0 (earlier - s.rowspan)).toNat

/-- The ordinals, as intervals, of the lines of a plan that another plan does not have. -/
def removedRuns (w : Swath) (p : SwathPlan) : List (Nat × Nat) :=
  let old := w.plan
  let cut := fun (a b : Int) =>
    if a ≤ b then
      let i := (planIndex old a).toNat
      let j := (planIndex old b).toNat
      [(w.firstOrd + min i j, w.firstOrd + max i j + 1)]
    else []
  cut old.lineFirst (min old.lineLast (p.lineFirst - 1)) ++ cut (max old.lineFirst (p.lineLast + 1)) old.lineLast

/-- R155, R174, R264: the plan of a planned swath is replaced: a squash from the divergence line, the removed lines
withheld as STANDSTILL, and new ordinals from the divergence line on. -/
def replan (s : State) (w : Swath) (p : SwathPlan) : State :=
  let d := s.divergence w p
  let s := s.squash 2 s.allRidges d 4
  let u := s.firstUntx
  let q := max d u
  let s := (removedRuns w p).foldl (fun s r => if max r.1 u < r.2 then s.withholdLines w (max r.1 u) r.2 4 else s) s
  let s := s.flushRuns (fun _ => true)
  let s := { s with crn := { s.crn with
      window := s.crn.window.filter (fun l => l.ord < q || l.taken), crossed := min s.crn.crossed q, decided := min s.crn.decided q } }
  let new : Swath := { w with plan := p }
  let isMe : Swath → Bool := fun v => decide (v.firstOrd = w.firstOrd)
  let place := fun (st : List Swath × Nat) (v : Swath) =>
    if isMe v then (st.1 ++ [new], max (w.firstOrd + planLen p) u)
    else if w.firstOrd < v.firstOrd then (st.1 ++ [{ v with firstOrd := st.2 }], st.2 + planLen v.plan)
    else (st.1 ++ [v], st.2)
  let current := s.mot.current.map (fun v => if isMe v then new else v)
  let start : Nat := if s.mot.current.any isMe then max (w.firstOrd + planLen p) u else s.crn.nextOrd
  let (queue, last) := s.mot.queue.foldl place ([], start)
  let s := { s with mot := { s.mot with current := current, queue := queue }, crn := { s.crn with nextOrd := last } }
  -- R19, R178: the positions that a swath with its gate closed gains are withheld as the rest of it was
  if s.crn.lateSwath = some (p.layer, p.swath) && planLen w.plan < planLen p then s.withholdSwath new (w.firstOrd + planLen w.plan) else s

/-- R264: the result of an edit of the swath with this plan record: 1 DONE to 5 PASSED, and the swath it names. -/
def editResult (s : State) (p : SwathPlan) (clean : Bool) : Nat × Option Swath :=
  match s.planned.find? (fun w => w.plan.layer = p.layer && w.plan.swath = p.swath) with
  | none => (2, none)
  | some w =>
    let old := w.plan
    let isCurrent := (s.mot.current.map Swath.firstOrd) = some w.firstOrd
    let other := old.dir != p.dir || old.pass != p.pass || planFirst old != planFirst p || old.indexOffset != p.indexOffset ||
      old.indexTarget != p.indexTarget
    let fired : Int := match s.firstUnfired w with
      | some q => (q : Int) - w.firstOrd
      | none => planLen old
    if isCurrent && other then (3, some w)
    else if !clean || 1 < p.dir || p.lineLast < p.lineFirst || !s.planFits p then (4, some w)
    else if isCurrent && planIndex old (lastLine p) < fired then (5, some w)
    else (1, some w)

/-- R264: PLN_EDSTAT and PLN_EVENT; an accepted edit is applied with this position's transforms (R318), and the lead distributes
it to every position (R265). -/
def applyEdit (s : State) (rec : SwathPlan) (clean : Bool) : State :=
  let p := s.ownPlan rec
  let (r, w) := s.editResult p clean
  let s := s.setReg Reg.PLN_EDSTAT (BitVec.ofNat 32 (r + 65536 * p.swath))
  match r, w with
  | 1, some w =>
    let p := { p with swtag := w.plan.swtag }
    let s := (s.event Reg.PLN_EVENT 1).count Reg.PLN_REPLANS 1
    let speedOnly := { w.plan with speed := p.speed } = p
    let put := fun (v : Swath) => if v.firstOrd = w.firstOrd then { v with plan := p } else v
    let s := if speedOnly then
        { s with mot := { s.mot with current := s.mot.current.map put, queue := s.mot.queue.map put } }
      else s.replan w p
    -- R264: the run-out of a current swath ends elsewhere
    let s := if s.plansAlong && (s.mot.current.map Swath.firstOrd) = some w.firstOrd then s.startMove 0 (s.runOutTarget p) else s
    s.distribute 5 (planBytes { rec with swtag := w.plan.swtag })
  | _, _ => (s.event Reg.PLN_EVENT 2).raise Src.PLN_EDIT_REFUSED

/-! ## Set-point ports (R266 to R268) -/

/-- R257: a planned position inside the soft limits; homing finds them. -/
def softPos (s : State) (a : Nat) (from_ p : Int) : Int :=
  let lo := 256 * s.softLo a
  let hi := 256 * s.softHi a + 255
  if s.homeStat a != 2 || from_ < lo || hi < from_ then p else max lo (min hi p)

/-- R277: STP_POS now: on the line from the set-point of the last servo tick to that of the next, at the start of the
present PWM period of 25 µs. -/
def stepAt (s : State) (m : Nat) : Int :=
  let a := m + 2
  let x := s.axis a
  if s.plans && x.moving then
    let next := s.softPos a x.pos (s.plannedAt a (s.lastTick + s.servoPeriod)).pos
    let since := s.now / 25000 * 25000 - s.lastTick
    (x.pos + (next - x.pos) * since / s.servoPeriod) / 256
  else (s.stepper m).pos

/-- R277: the electrical index, whose sine and cosine the phases follow. -/
def elecAt (s : State) (m : Nat) : Nat :=
  if s.plans && (s.axis (m + 2)).moving then uNat 10 (s.stepAt m) else (s.stepper m).elec

/-- R252, R277, R290, R291: what drives the outputs of a stepper: the electrical index e and AMP; none where they are at
high impedance. -/
def stepperDrive (s : State) (m : Nat) : Option (Nat × Nat) :=
  if s.hasAxis && s.pins.town then
    some (s.elecAt m, s.rfld (Reg.STP_CFG m) (if (s.stepper m).hold then 8 else 0) 8)
  else none

/-- The planned state of an axis as it was last planned or received. -/
def plannedState (s : State) (a : Nat) : AxisState := { pos := (s.axis a).pos, vel := (s.axis a).vel, acc := (s.axis a).acc }

/-- R266: the frame that an enabled port sends at a servo tick. -/
def sendSetPoint (s : State) (p : Nat) : State :=
  if s.rbit (Reg.PLN_AXP p) 0 && s.drives then
    let seq := (nth s.mot.axpSeq p 0 + 1) % 16
    -- the planned state at the tick after this one; a carriage master sends what the lead distributes (R319)
    let z := if s.plans then s.plannedAt p (s.lastTick + s.servoPeriod) else s.plannedState p
    let f := setPoint (s.softPos p z.pos z.pos) z.vel (!(s.axis p).moving) seq
    ({ s with mot := { s.mot with axpSeq := upd s.mot.axpSeq p (fun _ => seq),
                                  axpBytes := upd s.mot.axpBytes p (fun _ => f) } }).emit (.axp p f)
  else s

/-- R267: a bad frame is one whose CRC fails or whose ECHO is not the SEQ of the frame sent before the present one. -/
def driveFrameBad (s : State) (p : Nat) (f : Bytes) : Bool :=
  f.length != 10 || crc8 (f.take 9) != BitVec.ofNat 8 (fieldLE f 9 1) ||
    fieldLE f 4 1 % 16 != (nth s.mot.axpSeq p 0 + 15) % 16

def driveFrame (s : State) (p : Nat) (f : Bytes) : State :=
  if !(s.rbit (Reg.PLN_AXP p) 0 && s.drives && p < 2) then s
  else if s.driveFrameBad p f then
    let n := nth s.mot.axpBad p 0 + 1
    let s := { s with mot := { s.mot with axpBad := upd s.mot.axpBad p (fun _ => n) } }
    let s := (s.count (Reg.PLN_AXPERR p) 1).setReg (Reg.PLN_AXPSTAT p) (setBit (s.reg (Reg.PLN_AXPSTAT p)) 16 false)
    if n = s.rfld (Reg.PLN_AXP p) 8 8 then
      (((s.freezeAxis p).event Reg.PLN_EVENT 11).raise Src.PLN_AXP_LINK).axisFault p
    else s
  else
    let st := fieldLE f 0 2
    let s := { s with mot := { s.mot with axpBad := upd s.mot.axpBad p (fun _ => 0) } }
    let s := s.setReg (Reg.PLN_AXPSTAT p) (BitVec.ofNat 32 (st + 65536))
    let s := s.setReg (Reg.PLN_FOLERR p) (toWord (fieldLEs f 2 2))
    if st.testBit 2 then (((s.freezeAxis p).event Reg.PLN_EVENT 9).raise Src.PLN_DRIVE_FAULT).axisFault p else s

/-- R268: the following error of axis 0 or 1 at a servo tick. -/
def followCheck (s : State) (a : Nat) : State :=
  let lim := (s.reg (Reg.PLN_FOLMAX a)).toNat
  if lim != 0 && 256 * lim < ((s.axis a).pos - s.posX a).natAbs then
    ((s.event Reg.PLN_EVENT 10).raise Src.PLN_FOLLOW_ERR).axisFault a
  else s

/-! ## Trajectories at a servo tick (R252 to R257, R259, R261, R262) -/

/-- R285: the speed of a homing move. -/
def homingSpeed (s : State) (a : Nat) : Nat :=
  if s.homeMethod a = 1 || (s.axis a).hstate = 3 then (s.reg (Reg.PLN_HCREEP a)).toNat else (s.reg (Reg.PLN_HSEEK a)).toNat

/-- R283: a stop at SDEC, at the axis's jerk limit. -/
def stopSegs (s : State) (a : Nat) (v acc : Int) : List Seg := velTo v acc 0 (s.reg (Reg.PLN_SDEC a)).toNat (s.jerkOf a)

/-- R259, R262: the scan axis through a swath in progress: at the planned speed to the end of the firing span, and out to
where it comes to rest; and whether it passes that place. -/
def spanSegs (s : State) (p : SwathPlan) (x : AxisState) : List Seg × Bool :=
  let up := p.dir = 0
  let v : Int := s.scanSpeed p
  let c := if up then v else -v
  let am := s.limitOf 0 1
  let j := s.jerkOf 0
  let lead := velTo x.vel x.acc c am j
  let rest := s.gridPoint (spanEnd p) - (x.pos + segsDist lead)
  let left := if up then rest else -rest
  let along : Seg := { v := c, a := 0, j := 0, t := if v = 0 then 0 else (left * 10 ^ 9 / (256 * v)).toNat }
  let d := s.runOutTarget p - (x.pos + segsDist lead + along.dist along.t)
  (lead ++ [along] ++ moveSegs c 0 d (s.limitOf 0 0) am j, passes c 0 d am j)

/-- R259, R262: the scan axis before a swath's firing span: to the start of the run-in, which is planned backward from the
span's start and is reached no sooner than lets the index axis come to rest; then through the span. -/
def runInSegs (s : State) (p : SwathPlan) (x : AxisState) : List Seg × Bool :=
  let up := p.dir = 0
  let v : Int := s.scanSpeed p
  let c := if up then v else -v
  let am := s.limitOf 0 1
  let j := s.jerkOf 0
  let a := s.gridPoint (s.spanStart p)
  let run := velTo 0 0 c am j
  let first := moveSegs x.vel x.acc (a - segsDist run - x.pos) (s.limitOf 0 0) am j
  let idx := s.axis 1
  let idxLeft := if idx.moving then idx.began + segsTime idx.segs - s.lastTick else 0
  let still : Seg := { v := 0, a := 0, j := 0, t := idxLeft - (segsTime first + segsTime run) }
  let z := s.spanSegs p { pos := a, vel := c, acc := 0 }
  (first ++ [still] ++ run ++ z.1, z.2)

/-- R253 to R257: the trajectory of a moving axis from its planned state at a servo tick, and whether it passes its target. -/
def planSegs (s : State) (a : Nat) (x : AxisState) : List Seg × Bool :=
  let k := s.axis a
  let am := s.limitOf a 1
  let j := s.jerkOf a
  let plain := (moveSegs x.vel x.acc (k.target - x.pos) (s.limitOf a 0) am j, passes x.vel x.acc (k.target - x.pos) am j)
  if k.stopping then (s.stopSegs a x.vel x.acc, false)
  else if s.homingNow = some a then
    let away := decide (x.vel * (k.target - x.pos) < 0)
    let stop := if away then s.stopSegs a x.vel x.acc else []
    let from_ : AxisState := if away then { pos := x.pos + segsDist stop, vel := 0, acc := 0 } else x
    (stop ++ moveSegs from_.vel from_.acc (k.target - from_.pos) (s.homingSpeed a) am j, false)
  else if a = 0 then
    match s.mot.current with
    | some w => if s.mot.spanOn then s.spanSegs w.plan x else s.runInSegs w.plan x
    | none =>
      match s.crn.lastPlan with
      -- R247, R262: an abandoned swath's trajectory is completed on its plan
      | some p => if s.mot.colDue && s.mot.spanOn then s.spanSegs p x else plain
      | none => plain
  else plain

/-- R257: every position of a trajectory lies inside the soft limits. -/
def insideSoft (s : State) (a : Nat) (l : List Seg) (p : Int) : Bool :=
  (planTurns l p 0).all (fun z => decide (256 * s.softLo a ≤ z) && decide (z ≤ 256 * s.softHi a + 255))

/-- R254 to R257: what was asked of an axis since the last servo tick is planned.  A limit write with which the axis would
pass its target waits for standstill where NO_OVERSHOOT is set or a soft limit would be passed. -/
def replanAxis (s : State) (a : Nat) : State :=
  let x := s.axis a
  if !x.replan then s
  else
    let at_ : AxisState := { pos := x.pos, vel := x.vel, acc := x.acc }
    let (segs, past) := s.planSegs a at_
    let asked := !x.asks.isEmpty && !x.stopping
    let held := asked && past && (s.rbit (Reg.PLN_AXCTRL a) 0 || !s.insideSoft a segs x.pos)
    if held then s.updAxis a (fun x => { x with replan := false, asks := [], pend := x.asks ++ x.pend })
    else
      let s := if asked && past then s.event Reg.PLN_EVENT 4 else s
      s.updAxis a (fun x => { x with replan := false, asks := [], segs := segs, base := x.pos, began := s.lastTick })

/-- R253: the planned state of a moving axis at this servo tick. -/
def advanceAxis (s : State) (a : Nat) : State :=
  let x := s.axis a
  if !x.moving then s
  else
    let homes := s.homingNow = some a
    let z := s.plannedAt a s.lastTick
    let p := s.softPos a x.pos z.pos
    let s := (s.updAxis a (fun x => { x with pos := p, vel := z.vel, acc := z.acc })).stepTo a p
    (if homes then s.homeTravel a ((p - x.pos).natAbs) else s).replanAxis a

end State

/-! ## Commands -/

/-- R267. -/
def execAxpDriveFrame (port : Nat) (frame : Bytes) (s : State) : Out := whenReady s (fun s => s.driveFrame port frame)

/-- R255. -/
def execPlnLimitWrite (w axis which : Nat) (v : Word) (s : State) : Out :=
  whenClocked s (fun s =>
    if 3 < axis || 2 < which then s
    else if !s.hasAxis then s.absentTrap w (State.limitReg axis which)
    else if w != s.super then s.permTrap w (State.limitReg axis which)
    else if s.follows then s
    else s.limitWrite axis which v)

/-- R264: a write of PLN_EDIT: the next servo tick applies the record. -/
def State.editWrite (s : State) (off : Word) : State :=
  let r := State.planRecord (s.rd (Config.seqPool + fld off 3 20 * 8) 32)
  let s := s.setReg Reg.PLN_EDIT (off &&& 0x7FFFF8)
  { s with mot := { s.mot with edits := s.mot.edits ++ [r] } }

/-- R264. -/
def execPlnEdit (w : Nat) (off : Word) (s : State) : Out :=
  whenClocked s (fun s =>
    if !s.hasAxis then s.absentTrap w Reg.PLN_EDIT
    else if w != s.super then s.permTrap w Reg.PLN_EDIT
    else if s.follows then s
    else s.editWrite off)

/-- R263: an axis comes to rest. -/
def execAxisMoveDone (axis t : Nat) (s : State) : Out := whenReady s (fun s => (s.at_ t).moveDone axis)

/-- R262 step 4. -/
def execFiringSpanStart (t : Nat) (s : State) : Out := whenReady s (fun s => (s.at_ t).spanBegins)

/-- R278: a rising edge on STPn_STEP. -/
def execStepEdge (m : Nat) (dirHigh : Bool) (s : State) : Out :=
  whenReady s (fun s =>
    let a := m + 2
    if 2 ≤ m || !s.plans || !s.rbit (Reg.STP_CTRL m) 0 then s
    else if s.homingNow = some a then s.count (Reg.STP_IGNORED m) 1
    else
      let d : Int := 256 * s.rfld (Reg.STP_CFG m) 16 8
      let t := (s.axis a).target
      let z := if dirHigh then t + d else t - d
      s.startMove a (max (256 * s.softLo a) (min (256 * s.softHi a) z)))

/-- R279: a stall of the motor that moves at SVMIN or more: the electrical index is frozen and the trajectory stops. -/
def execStall (m : Nat) (load : Int) (s : State) : Out :=
  whenReady s (fun s =>
    let a := m + 2
    let x := s.axis a
    if 2 ≤ m || !x.moving || load.natAbs < s.rfld (Reg.STP_STALL m) 0 10 ||
        x.vel.natAbs < (s.reg (Reg.STP_SVMIN m)).toNat then s
    else
      let z := s.stepAt m
      let s := s.updAxis a (fun x => { x with pos := 256 * z })
      let s := (s.updStp m (fun p => { p with pos := z, elec := uNat 10 z, stalled := true, hold := true, load := load })).event Reg.STP_EVENT m
      let s := s.freezeAxis a
      if s.homingNow = some a && s.homeMethod a = 1 then
        if x.hstate = 1 then
          let s := s.shiftAxis a (sWord (s.reg (Reg.PLN_HPOS a)))
          (s.updAxis a (fun x => { x with hstate := 2, hmark := some x.pos })).homeMove a false
        else s
      else (s.raise Src.STP_STALL).axisFault a)

/-- R277: at rest for 100 ms: AMP is IHOLD. -/
def execStepperHoldCurrent (m t : Nat) (s : State) : Out :=
  whenClocked s (fun s =>
    let s := s.at_ t
    match (s.axis (m + 2)).restAt with
    | some r => if m < 2 && r + 20000000 ≤ s.clk.pclk then s.updStp m (fun p => { p with hold := true }) else s
    | none => s)

/-- R280: the 16-byte record of an axis that has been homed and at rest for 100 ms. -/
def State.axisRecord (s : State) (a : Nat) : Bytes :=
  let elec := if 2 ≤ a then (s.stepper (a - 2)).elec else 0
  let pos := if 2 ≤ a then (s.stepper (a - 2)).pos else (s.axis a).pos / 256
  let body := [0xA5, BitVec.ofNat 8 a] ++ leBytes 2 elec ++ leBytes 4 (uNat 32 pos) ++ [0, 0, 0, 0]
  body ++ leBytes 4 (crc32c body).toNat

/-- R280. -/
def execAxisRecordWrite (a t : Nat) (s : State) : Out :=
  whenClocked s (fun s =>
    let s := s.at_ t
    let x := s.axis a
    match x.restAt with
    | some r =>
      if s.hasAxis && a < 4 && !x.moving && s.homeStat a = 2 && r + 20000000 ≤ s.clk.pclk then
        { s with island := s.island.take (64 + 16 * a) ++ s.axisRecord a ++ s.island.drop (80 + 16 * a) }
      else s
    | none => s)

/-! ## Switches -/

/-- R281: the debounced level of a switch changes. -/
def execSwitchChange (k : Nat) (level : Bool) (s : State) : Out :=
  whenReady s (fun s =>
    let cfg := s.reg (Reg.SWI_CFG k)
    let active := level != bit cfg 5
    let old := s.switchOf k
    if !s.hasAxis || 7 < k || old.active = active then s
    else
      let s := { s with swi := upd s.swi k (fun w => { w with active := active }) }
      let s := (s.event Reg.SWI_EVENT k).count (Reg.SWI_TRANS k) 1
      let role := fld cfg 0 3
      let a := fld cfg 3 2
      if role = 1 then (if s.homingNow = some a && s.homeMethod a = 0 && s.homeSwitch a = k then s.homeSwitchChange a active else s)
      else if (role = 2 || role = 3) && active && !old.faulty then s.limitTrip a
      else s)

/-- R282: more than CHAT_MAX transitions in one window: the switch is FAULTY. -/
def execSwitchChatter (k transitions : Nat) (s : State) : Out :=
  whenReady s (fun s =>
    let cfg := s.reg (Reg.SWI_CFG k)
    let old := s.switchOf k
    if !s.hasAxis || 7 < k then s
    else
      let s := s.count (Reg.SWI_TRANS k) transitions
      if old.faulty || transitions ≤ fld cfg 16 8 then s
      else
        let s := { s with swi := upd s.swi k (fun w => { w with faulty := true }) }
        let s := (s.event Reg.SWI_EVENT (8 + k)).raise Src.SWI_CHATTER
        let role := fld cfg 0 3
        let a := fld cfg 3 2
        if role = 1 then
          if s.homeMethod a = 0 && s.homeSwitch a = k then (if s.homingNow = some a then s.homingAbort a 5 else s.loseHoming a)
          else s
        else if role = 2 || role = 3 then s.limitTrip a
        else s)

/-- R282: a whole window without a transition: the switch is no longer FAULTY. -/
def execSwitchRecover (k : Nat) (s : State) : Out :=
  whenReady s (fun s => if s.hasAxis then { s with swi := upd s.swi k (fun w => { w with faulty := false }) } else s)

end Sys2Proof.Machine
end

