-- ==== Sys2Proof/Machine/Pos.lean ====
section
/-! DEFINITION. The position units' rows (R269 to R276). -/

namespace Sys2Proof.Machine

namespace State

/-- R251: the unit exists: POS0 on every variant, the others with an axis unit. -/
def posPresent (s : State) (u : Nat) : Bool := u = 0 || (u < 4 && s.hasAxis)

/-! ## Quadrature (R270) -/

/-- R270: both lines changed in one filtered sample. -/
def sameSample (s : State) (u t : Nat) : State :=
  let win := 200000 * s.rfld (Reg.POS_QERR u) 8 16
  let s := s.updPos u (fun p => { p with qerrAt := t :: p.qerrAt.filter (fun e => decide (t < e + win)) })
  let s := ((s.count (Reg.POS_QERRS u) 1).event Reg.POS_EVENT (8 + u)).raise Src.POS_QERR
  if s.rfld (Reg.POS_QERR u) 0 8 < (s.posu u).qerrAt.length then s.unitFault u Src.POS_QERR_RUN else s

/-- R270: a filtered change of the lines.  A leads B in the positive direction, which INVERT reverses. -/
def quad (s : State) (u : Nat) (a b : Bool) (t : Nat) : State :=
  let p := s.posu u
  let s := s.updPos u (fun p => { p with aLine := a, bLine := b })
  if a != p.aLine && b != p.bLine then s.sameSample u t
  else if a != p.aLine then s.posEdge u ((a = b) != s.rbit (Reg.POS_CFG u) 2) t
  else if b != p.bLine then s.posEdge u ((a != b) != s.rbit (Reg.POS_CFG u) 2) t
  else s

/-! ## Sin/cos (R273) -/

/-- R273: the amplitude of one sample; the fourth in a row outside the window is a major fault. -/
def amplitudeSample (s : State) (u : Nat) (sn cs : Int) : State :=
  let lo := s.rfld (Reg.POS_AMP u) 0 12
  let hi := s.rfld (Reg.POS_AMP u) 16 12
  let r := (sn * sn + cs * cs).toNat
  if lo * lo ≤ r && r ≤ hi * hi then s.updPos u (fun p => { p with ampBad := 0 })
  else
    let n := (s.posu u).ampBad + 1
    let s := s.updPos u (fun p => { p with ampBad := n })
    if n = 4 then s.unitFault u Src.POS_AMPLITUDE else s

/-- R273: the edges at the count boundaries between two samples, at the times that linear interpolation gives: `z` is
the phase of the earlier sample and `z1` of this one, in 2⁻⁸ counts, at `t0` and `t`. -/
def phaseEdges : Nat → State → Nat → Int → Int → Nat → Nat → State
  | 0, s, _, _, _, _, _ => s
  | n + 1, s, u, z, z1, t0, t =>
    let c := (s.posu u).count
    let span : Int := ((t - t0 : Nat) : Int)
    if 256 * (c + 1) ≤ z1 then
      let at_ := t0 + ((256 * (c + 1) - z) * span / max 1 (z1 - z)).toNat
      phaseEdges n (s.posEdge u false at_) u z z1 t0 t
    else if z1 < 256 * c then
      let at_ := t0 + ((z - 256 * c) * span / max 1 (z - z1)).toNat
      phaseEdges n (s.posEdge u true at_) u z z1 t0 t
    else s

/-- R273: one sample pair: the angle, the period it lies in by the shortest way, and the edges passed. -/
def sinCos (s : State) (u : Nat) (sn cs : Int) (t : Nat) : State :=
  let p := s.posu u
  let a := if s.rbit (Reg.POS_CFG u) 2 then (1024 - angleOf sn cs) % 1024 else angleOf sn cs
  let s := s.amplitudeSample u sn cs
  if (s.posu u).fault then s
  else if !p.angleSeen then
    s.updPos u (fun p => { p with angle := a, angleAt := t, angleSeen := true, count := 4 * (p.count / 4) + (a / 256 : Nat) })
  else
    let d := sInt 10 (a + 1024 - p.angle)
    let z : Int := 256 * p.count + (p.angle % 256 : Nat)
    let s := phaseEdges 3 s u z (z + d) p.angleAt t
    s.updPos u (fun k => { k with angle := a, angleAt := t, changeAt := t, beforeX := p.posAt 2 (t - 1) })

/-! ## SSI (R274) -/

/-- R274: a read is discarded; the third SSI error in a row is a major fault. -/
def ssiError (s : State) (u : Nat) : State :=
  let n := (s.posu u).ssiErrs + 1
  let s := s.updPos u (fun p => { p with ssiErrs := n })
  if n = 3 then s.unitFault u Src.POS_SSI_ERR else s

/-- R284, R285: a valid read homes the axis whose turn it is under METHOD ABSOLUTE. -/
def absoluteHome (s : State) (u : Nat) : State :=
  match s.mot.homing with
  | a :: _ =>
    if a = u && u < 2 && s.homeMethod a = 2 && (s.axis a).hstate = 0 then
      let x := 256 * (s.posu u).ssiPos
      homeTurn 5 ((s.updAxis a (fun k => { k with pos := x, target := x })).homeDone a)
    else s
  | [] => s

/-- R274: a read. -/
def ssi (s : State) (u raw : Nat) (lineHigh : Bool) (t : Nat) : State :=
  let p := s.posu u
  let n := s.rfld (Reg.POS_CFG u) 16 6
  let inv := s.rbit (Reg.POS_CFG u) 2
  let raw := raw % 2 ^ n
  let v := if s.rbit (Reg.POS_CFG u) 22 then grayValue n raw else raw
  let v : Int := if inv then -(v : Int) else v
  let d := sInt n (uNat n (v - p.ssiPos))
  if p.fault then s
  else if !lineHigh then s.ssiError u
  else if !p.ssiSeen then
    (s.movePos u t (fun p => { p with ssiPos := v, count := v, ssiAt := t, ssiDiff := 0, ssiErrs := 0, ssiSeen := true })).absoluteHome u
  else if s.rfld (Reg.POS_SSI u) 24 8 < d.natAbs then s.ssiError u
  else
    let back := decide (d * p.ssiDiff < 0)
    let still := d = 0 && !p.speedValid && p.ssiBack
    (s.movePos u t (fun p =>
      { p with ssiPos := p.ssiPos + d, count := p.ssiPos + d, ssiAt := t, ssiDiff := d, ssiErrs := 0, speedValid := !back && !still, ssiBack := back || still,
               neg := if d = 0 then p.neg else decide (d < 0),
               speed := d.natAbs * 2 ^ 24 / max 1 (s.rfld (Reg.POS_SSI u) 8 16) })).absoluteHome u

/-! ## Probe and compare (R275, R276) -/

/-- R275: the first edge of the selected polarity latches position and time. -/
def probe (s : State) (u : Nat) (rising : Bool) : State :=
  let c := s.reg (Reg.POS_PRBCTRL u)
  if bit c 0 && bit c 1 = !rising then
    let x := s.posX u
    let s := s.setReg (Reg.POS_PRB_LO u) (toWord x)
    let s := s.setReg (Reg.POS_PRB_HI u) (toWord (x / 2 ^ 32))
    let s := s.setReg (Reg.POS_PRB_TLO u) (BitVec.ofNat 32 s.now)
    let s := s.setReg (Reg.POS_PRB_THI u) (BitVec.ofNat 32 (s.now >>> 32))
    let s := s.setReg (Reg.POS_PRBCTRL u) (setBit c 0 false)
    (s.event (Reg.POS_STAT u) 5).event Reg.POS_EVENT u
  else s

/-- R276: the compare arms with its value at this sample. -/
def compareArm (s : State) (u : Nat) (hi : Word) : State :=
  let cmp := sInt 40 ((s.reg (Reg.POS_CMP_LO u)).toNat + 2 ^ 32 * fld hi 0 8)
  let ge := decide (cmp ≤ s.posX u)
  let moving := s.posSpeed u != 0
  let behind := moving && ge != (s.posu u).neg
  let s := (s.setReg (Reg.POS_CMP_HI u) hi).setReg (Reg.POS_STAT u) (setBit (s.reg (Reg.POS_STAT u)) 3 behind)
  s.updPos u (fun p => { p with cmpArmed := true, cmpPrev := ge, cmpVal := cmp })

/-- R276: the position has crossed CMP; crossings in a direction not selected are ignored. -/
def compareCross (s : State) (u : Nat) : State :=
  let p := s.posu u
  let ge := decide (p.cmpVal ≤ s.posX u)
  if !p.cmpArmed || ge = p.cmpPrev then s
  else
    let ctl := s.reg (Reg.POS_CMPCTRL u)
    let dir := fld ctl 0 2
    let s := s.updPos u (fun p => { p with cmpPrev := ge })
    if (dir = 1 && !ge) || (dir = 2 && ge) then s
    else
      let w := max 1 (fld ctl 8 8)
      let s := s.updPos u (fun p => { p with cmpArmed := false, cmpEnd := some (s.clk.pclk + 8 * w) })
      let s := s.setReg (Reg.POS_STAT u) (setBit (s.reg (Reg.POS_STAT u)) 3 false)
      let s := { s with pins := { s.pins with cmpHigh := upd s.pins.cmpHigh u (fun _ => true) } }
      (s.event Reg.POS_EVENT (4 + u)).emit (.comparePulse u true)

def comparePulseOver (s : State) (u : Nat) : State :=
  match (s.posu u).cmpEnd with
  | some e =>
    if e ≤ s.clk.pclk then
      let s := s.updPos u (fun p => { p with cmpEnd := none })
      ({ s with pins := { s.pins with cmpHigh := upd s.pins.cmpHigh u (fun _ => false) } }).emit (.comparePulse u false)
    else s
  | none => s

end State

/-! ## Commands -/

/-- R270. -/
def execQuadEdge (u : Nat) (a b : Bool) (t : Nat) (s : State) : Out :=
  whenClocked s (fun s => if s.posPresent u && posMode s u = 1 then (s.at_ t).quad u a b t else s)

/-- R273: samples whose amplitude the unit judges. -/
def execAmplitude (u : Nat) (samples : List (Int × Int)) (s : State) : Out :=
  whenClocked s (fun s =>
    if s.posPresent u && posMode s u = 2 then samples.foldl (fun s p => s.amplitudeSample u p.1 p.2) s else s)

/-- R273. -/
def execSincosSample (u : Nat) (sn cs : Int) (t : Nat) (s : State) : Out :=
  whenClocked s (fun s => if s.posPresent u && posMode s u = 2 then (s.at_ t).sinCos u sn cs t else s)

/-- R274. -/
def execSsiRead (u raw : Nat) (lineHigh : Bool) (t : Nat) (s : State) : Out :=
  whenClocked s (fun s => if s.posPresent u && posMode s u = 3 then (s.at_ t).ssi u raw lineHigh t else s)

/-- R275. -/
def execProbeEdge (u : Nat) (rising : Bool) (t : Nat) (s : State) : Out :=
  whenClocked s (fun s => if s.hasAxis && u < 4 then (s.at_ t).probe u rising else s)

/-- R276: a write of POS_CMP_HI. -/
def execPosCmpArm (u : Nat) (hi : Word) (t : Nat) (s : State) : Out :=
  whenClocked s (fun s => if s.hasAxis && u < 4 then (s.at_ t).compareArm u hi else s)

/-- R276. -/
def execCompareFire (u t : Nat) (s : State) : Out :=
  whenClocked s (fun s => if s.hasAxis && u < 4 then (s.at_ t).compareCross u else s)

/-- R276. -/
def execComparePulseEnd (u t : Nat) (s : State) : Out :=
  whenClocked s (fun s => if s.hasAxis && u < 4 then (s.at_ t).comparePulseOver u else s)

end Sys2Proof.Machine
end

