-- ==== Sys2Proof/Machine/Crypto.lean ====
section
/-! DEFINITION. The ciphers and hashes that the spec names and leaves to their standards (R416, R418, R419, R508): AES-256
and AES-256-GCM (FIPS 197, SP 800-38D), the AES key wrap (RFC 3394), SHA-256 (FIPS 180-4) and ECDSA over P-256 (FIPS
186).  PRESUMED, log entry 22. -/

namespace Sys2Proof.Machine

def sbox0 : List Nat :=
  [0x63, 0x7C, 0x77, 0x7B, 0xF2, 0x6B, 0x6F, 0xC5, 0x30, 0x01, 0x67, 0x2B, 0xFE, 0xD7, 0xAB, 0x76,
   0xCA, 0x82, 0xC9, 0x7D, 0xFA, 0x59, 0x47, 0xF0, 0xAD, 0xD4, 0xA2, 0xAF, 0x9C, 0xA4, 0x72, 0xC0,
   0xB7, 0xFD, 0x93, 0x26, 0x36, 0x3F, 0xF7, 0xCC, 0x34, 0xA5, 0xE5, 0xF1, 0x71, 0xD8, 0x31, 0x15,
   0x04, 0xC7, 0x23, 0xC3, 0x18, 0x96, 0x05, 0x9A, 0x07, 0x12, 0x80, 0xE2, 0xEB, 0x27, 0xB2, 0x75]

def sbox1 : List Nat :=
  [0x09, 0x83, 0x2C, 0x1A, 0x1B, 0x6E, 0x5A, 0xA0, 0x52, 0x3B, 0xD6, 0xB3, 0x29, 0xE3, 0x2F, 0x84,
   0x53, 0xD1, 0x00, 0xED, 0x20, 0xFC, 0xB1, 0x5B, 0x6A, 0xCB, 0xBE, 0x39, 0x4A, 0x4C, 0x58, 0xCF,
   0xD0, 0xEF, 0xAA, 0xFB, 0x43, 0x4D, 0x33, 0x85, 0x45, 0xF9, 0x02, 0x7F, 0x50, 0x3C, 0x9F, 0xA8,
   0x51, 0xA3, 0x40, 0x8F, 0x92, 0x9D, 0x38, 0xF5, 0xBC, 0xB6, 0xDA, 0x21, 0x10, 0xFF, 0xF3, 0xD2]

def sbox2 : List Nat :=
  [0xCD, 0x0C, 0x13, 0xEC, 0x5F, 0x97, 0x44, 0x17, 0xC4, 0xA7, 0x7E, 0x3D, 0x64, 0x5D, 0x19, 0x73,
   0x60, 0x81, 0x4F, 0xDC, 0x22, 0x2A, 0x90, 0x88, 0x46, 0xEE, 0xB8, 0x14, 0xDE, 0x5E, 0x0B, 0xDB,
   0xE0, 0x32, 0x3A, 0x0A, 0x49, 0x06, 0x24, 0x5C, 0xC2, 0xD3, 0xAC, 0x62, 0x91, 0x95, 0xE4, 0x79,
   0xE7, 0xC8, 0x37, 0x6D, 0x8D, 0xD5, 0x4E, 0xA9, 0x6C, 0x56, 0xF4, 0xEA, 0x65, 0x7A, 0xAE, 0x08]

def sbox3 : List Nat :=
  [0xBA, 0x78, 0x25, 0x2E, 0x1C, 0xA6, 0xB4, 0xC6, 0xE8, 0xDD, 0x74, 0x1F, 0x4B, 0xBD, 0x8B, 0x8A,
   0x70, 0x3E, 0xB5, 0x66, 0x48, 0x03, 0xF6, 0x0E, 0x61, 0x35, 0x57, 0xB9, 0x86, 0xC1, 0x1D, 0x9E,
   0xE1, 0xF8, 0x98, 0x11, 0x69, 0xD9, 0x8E, 0x94, 0x9B, 0x1E, 0x87, 0xE9, 0xCE, 0x55, 0x28, 0xDF,
   0x8C, 0xA1, 0x89, 0x0D, 0xBF, 0xE6, 0x42, 0x68, 0x41, 0x99, 0x2D, 0x0F, 0xB0, 0x54, 0xBB, 0x16]

/-- FIPS 197: the substitution box. -/
def sbox : List Nat := sbox0 ++ sbox1 ++ sbox2 ++ sbox3

def shaK0 : List (BitVec 32) :=
  [0x428A2F98, 0x71374491, 0xB5C0FBCF, 0xE9B5DBA5, 0x3956C25B, 0x59F111F1, 0x923F82A4, 0xAB1C5ED5,
   0xD807AA98, 0x12835B01, 0x243185BE, 0x550C7DC3, 0x72BE5D74, 0x80DEB1FE, 0x9BDC06A7, 0xC19BF174,
   0xE49B69C1, 0xEFBE4786, 0x0FC19DC6, 0x240CA1CC, 0x2DE92C6F, 0x4A7484AA, 0x5CB0A9DC, 0x76F988DA,
   0x983E5152, 0xA831C66D, 0xB00327C8, 0xBF597FC7, 0xC6E00BF3, 0xD5A79147, 0x06CA6351, 0x14292967]

def shaK1 : List (BitVec 32) :=
  [0x27B70A85, 0x2E1B2138, 0x4D2C6DFC, 0x53380D13, 0x650A7354, 0x766A0ABB, 0x81C2C92E, 0x92722C85,
   0xA2BFE8A1, 0xA81A664B, 0xC24B8B70, 0xC76C51A3, 0xD192E819, 0xD6990624, 0xF40E3585, 0x106AA070,
   0x19A4C116, 0x1E376C08, 0x2748774C, 0x34B0BCB5, 0x391C0CB3, 0x4ED8AA4A, 0x5B9CCA4F, 0x682E6FF3,
   0x748F82EE, 0x78A5636F, 0x84C87814, 0x8CC70208, 0x90BEFFFA, 0xA4506CEB, 0xBEF9A3F7, 0xC67178F2]

/-- FIPS 180-4: the round constants. -/
def shaK : List (BitVec 32) := shaK0 ++ shaK1

/-- FIPS 180-4: the initial hash value. -/
def shaH : List (BitVec 32) :=
  [0x6A09E667, 0xBB67AE85, 0x3C6EF372, 0xA54FF53A, 0x510E527F, 0x9B05688C, 0x1F83D9AB, 0x5BE0CD19]

/-! ## Big-endian numbers -/

def beNat (bs : Bytes) : Nat := leNat bs.reverse

def beBytes (n x : Nat) : Bytes := (leBytes n x).reverse

def xorBytes (a b : Bytes) : Bytes := List.zipWith (· ^^^ ·) a b

/-! ## AES-256 (FIPS 197) -/

def subByte (b : Byte) : Byte := BitVec.ofNat 8 (nth sbox b.toNat 0)

def invSubByte (b : Byte) : Byte := BitVec.ofNat 8 ((sbox.findIdx? (fun x => x = b.toNat)).getD 0)

/-- Multiplication by x in the field of AES. -/
def xtime (b : Byte) : Byte := if bit b 7 then (b <<< 1) ^^^ 0x1B else b <<< 1

/-- Multiplication in the field of AES by a constant below 16. -/
def gfMul (b : Byte) (k : Nat) : Byte :=
  let b2 := xtime b
  let b4 := xtime b2
  let b8 := xtime b4
  (if k % 2 = 1 then b else 0) ^^^ (if k / 2 % 2 = 1 then b2 else 0) ^^^ (if k / 4 % 2 = 1 then b4 else 0) ^^^
    (if k / 8 % 2 = 1 then b8 else 0)

/-- The bytes of a 16-byte block taken from the places `f 0` to `f 15`. -/
def permuteBlock (f : Nat → Nat) (b : Bytes) : Bytes := (List.range 16).map (fun i => nth b (f i) 0)

def shiftRows (b : Bytes) : Bytes := permuteBlock (fun i => (i + 4 * (i % 4)) % 16) b

def invShiftRows (b : Bytes) : Bytes := permuteBlock (fun i => (i + 16 - 4 * (i % 4)) % 16) b

/-- Each column times the circulant matrix of `k`. -/
def mixWith (k : List Nat) (b : Bytes) : Bytes :=
  (List.range 16).map (fun i =>
    (List.range 4).foldl (fun (v : Byte) j => v ^^^ gfMul (nth b (i / 4 * 4 + (i + j) % 4) 0) (nth k j 0)) 0)

/-- The key schedule: words of 4 bytes, newest first. -/
def expandKey : Nat → List Bytes → List Bytes
  | 0, ws => ws
  | n + 1, ws =>
    let i := ws.length
    let t := nth ws 0 []
    let t := if i % 8 = 0 then xorBytes ((t.rotateLeft 1).map subByte) [BitVec.ofNat 8 (2 ^ (i / 8 - 1)), 0, 0, 0]
      else if i % 8 = 4 then t.map subByte else t
    expandKey n (xorBytes (nth ws 7 []) t :: ws)

/-- The 15 round keys of a 32-byte key. -/
def roundKeys (key : Bytes) : List Bytes :=
  let ws := (expandKey 52 ((List.range 8).map (fun i => (key.drop (4 * i)).take 4)).reverse).reverse
  (List.range 15).map (fun r => ((ws.drop (4 * r)).take 4).flatten)

/-- One block enciphered under round keys. -/
def aesEnc (rks : List Bytes) (b : Bytes) : Bytes :=
  let b := xorBytes b (nth rks 0 [])
  let b := ((rks.drop 1).take 13).foldl (fun b rk => xorBytes (mixWith [2, 3, 1, 1] (shiftRows (b.map subByte))) rk) b
  xorBytes (shiftRows (b.map subByte)) (nth rks 14 [])

/-- One block deciphered under round keys. -/
def aesDec (rks : List Bytes) (b : Bytes) : Bytes :=
  let b := (invShiftRows (xorBytes b (nth rks 14 []))).map invSubByte
  let b := (((rks.drop 1).take 13).reverse).foldl (fun b rk =>
    (invShiftRows (mixWith [14, 11, 13, 9] (xorBytes b rk))).map invSubByte) b
  xorBytes b (nth rks 0 [])

/-- The 32 bytes of a key as a number holds them, first byte most significant. -/
def keyBytes (k : BitVec 256) : Bytes := beBytes 32 k.toNat

/-! ## GCM (SP 800-38D) -/

/-- Multiplication in the field of GHASH, on numbers whose most significant bit is the first bit. -/
def ghashMul (x y : Nat) : Nat :=
  ((List.range 128).foldl (fun (p : Nat × Nat) i =>
    (if x / 2 ^ (127 - i) % 2 = 1 then p.1 ^^^ p.2 else p.1,
     if p.2 % 2 = 1 then (p.2 / 2) ^^^ (0xE1 * 2 ^ 120) else p.2 / 2)) (0, y)).1

/-- Whole 16-byte blocks, the last filled up with 0; `n` bounds their number. -/
def blocks16 : Nat → Bytes → List Bytes
  | 0, _ => []
  | n + 1, bs => if bs.isEmpty then [] else slicePad bs 0 16 :: blocks16 n (bs.drop 16)

def ghash (h : Nat) (bs : Bytes) : Nat :=
  (blocks16 (bs.length / 16 + 1) bs).foldl (fun y b => ghashMul (y ^^^ beNat b) h) 0

def pad16 (bs : Bytes) : Bytes := bs ++ List.replicate ((16 - bs.length % 16) % 16) 0

/-- The key stream of GCM applied to data, from counter block 2 on. -/
def gcmCtr (rks : List Bytes) (iv data : Bytes) : Bytes :=
  ((blocks16 (data.length / 16 + 1) data).zipIdx.flatMap (fun z =>
    xorBytes z.1 (aesEnc rks (iv ++ beBytes 4 (z.2 + 2))))).take data.length

/-- The tag over additional data and ciphertext. -/
def gcmTag (rks : List Bytes) (iv aad ct : Bytes) : Bytes :=
  let h := beNat (aesEnc rks (List.replicate 16 0))
  let s := ghash h (pad16 aad ++ pad16 ct ++ beBytes 8 (8 * aad.length) ++ beBytes 8 (8 * ct.length))
  xorBytes (beBytes 16 s) (aesEnc rks (iv ++ beBytes 4 1))

/-- The plaintext and the computed tag. -/
def gcmOpen (key : BitVec 256) (iv aad ct : Bytes) : Bytes × Bytes :=
  let rks := roundKeys (keyBytes key)
  (gcmCtr rks iv ct, gcmTag rks iv aad ct)

/-! ## Key wrap (RFC 3394) -/

/-- One step of the unwrap: `t` is the step number, `i` the register. -/
def unwrapStep (rks : List Bytes) (p : Bytes × List Bytes) (t : Nat) : Bytes × List Bytes :=
  let i := (t + 3) % 4
  let b := aesDec rks (beBytes 8 (beNat p.1 ^^^ t) ++ nth p.2 i [])
  (b.take 8, p.2.set i (b.drop 8))

/-- A 40-byte envelope of a 256-bit key; none when its integrity check fails. -/
def unwrapKey (kek : BitVec 256) (env : Bytes) : Option (BitVec 256) :=
  let rks := roundKeys (keyBytes kek)
  let start := (env.take 8, (List.range 4).map (fun i => slicePad env (8 + 8 * i) 8))
  let r := (List.range 24).foldl (fun p k => unwrapStep rks p (24 - k)) start
  if env.length = 40 && r.1 = List.replicate 8 0xA6 then some (BitVec.ofNat 256 (beNat r.2.flatten)) else none

/-- The envelope of a key. -/
def wrapKey (kek key : BitVec 256) : Bytes :=
  let rks := roundKeys (keyBytes kek)
  let r := (List.range 24).foldl (fun (p : Bytes × List Bytes) k =>
    let i := k % 4
    let b := aesEnc rks (p.1 ++ nth p.2 i [])
    (beBytes 8 (beNat (b.take 8) ^^^ (k + 1)), p.2.set i (b.drop 8)))
    (List.replicate 8 0xA6, (List.range 4).map (fun i => slicePad (keyBytes key) (8 * i) 8))
  r.1 ++ r.2.flatten

/-! ## SHA-256 (FIPS 180-4) -/

def rotr (x : BitVec 32) (n : Nat) : BitVec 32 := x.rotateRight n

/-- The message schedule, newest word first. -/
def shaSchedule : Nat → List (BitVec 32) → List (BitVec 32)
  | 0, ws => ws
  | n + 1, ws =>
    let w15 := nth ws 14 0
    let w2 := nth ws 1 0
    let s0 := rotr w15 7 ^^^ rotr w15 18 ^^^ (w15 >>> 3)
    let s1 := rotr w2 17 ^^^ rotr w2 19 ^^^ (w2 >>> 10)
    shaSchedule n ((nth ws 15 0 + s0 + nth ws 6 0 + s1) :: ws)

/-- The compression of one 64-byte block. -/
def shaBlock (h : List (BitVec 32)) (b : Bytes) : List (BitVec 32) :=
  let ws := (shaSchedule 48 ((List.range 16).map (fun i => BitVec.ofNat 32 (beNat (slicePad b (4 * i) 4)))).reverse).reverse
  let r := (List.zip ws shaK).foldl (fun (v : List (BitVec 32)) z =>
    let a := nth v 0 0
    let b := nth v 1 0
    let c := nth v 2 0
    let e := nth v 4 0
    let f := nth v 5 0
    let g := nth v 6 0
    let t1 := nth v 7 0 + (rotr e 6 ^^^ rotr e 11 ^^^ rotr e 25) + ((e &&& f) ^^^ (~~~e &&& g)) + z.2 + z.1
    let t2 := (rotr a 2 ^^^ rotr a 13 ^^^ rotr a 22) + ((a &&& b) ^^^ (a &&& c) ^^^ (b &&& c))
    [t1 + t2, a, b, c, nth v 3 0 + t1, e, f, g]) h
  List.zipWith (· + ·) h r

/-- Blocks of 64 bytes; `n` bounds their number. -/
def shaRun : Nat → List (BitVec 32) → Bytes → List (BitVec 32)
  | 0, h, _ => h
  | n + 1, h, bs => if bs.isEmpty then h else shaRun n (shaBlock h (bs.take 64)) (bs.drop 64)

def sha256 (bs : Bytes) : BitVec 256 :=
  let padded := bs ++ [0x80] ++ List.replicate ((119 - bs.length % 64) % 64) 0 ++ beBytes 8 (8 * bs.length)
  BitVec.ofNat 256 (beNat ((shaRun (padded.length / 64) shaH padded).flatMap (fun w => beBytes 4 w.toNat)))

/-! ## ECDSA over P-256 (FIPS 186) -/

def p256P : Nat := 0xFFFFFFFF00000001000000000000000000000000FFFFFFFFFFFFFFFFFFFFFFFF
def p256N : Nat := 0xFFFFFFFF00000000FFFFFFFFFFFFFFFFBCE6FAADA7179E84F3B9CAC2FC632551
def p256B : Nat := 0x5AC635D8AA3A93E7B3EBBD55769886BC651D06B0CC53B0F63BCE3C3E27D2604B
def p256Gx : Nat := 0x6B17D1F2E12C4247F8BCE6E563A440F277037D812DEB33A0F4A13945D898C296
def p256Gy : Nat := 0x4FE342E2FE1A7F9B8EE7EB4A7C0F9E162BCE33576B315ECECBB6406837BF51F5

/-- `b` to the power `e` modulo `m`, `n` the bits of `e`. -/
def powMod (m b e : Nat) (n : Nat) : Nat :=
  ((List.range n).foldl (fun (p : Nat × Nat) i =>
    (if e / 2 ^ i % 2 = 1 then p.1 * p.2 % m else p.1, p.2 * p.2 % m)) (1, b % m)).1

def invMod (m x : Nat) : Nat := powMod m x (m - 2) 256

/-- The sum of two points of the curve; `none` is the point at infinity. -/
def ecAdd (a b : Option (Nat × Nat)) : Option (Nat × Nat) :=
  match a, b with
  | none, q => q
  | p, none => p
  | some (x1, y1), some (x2, y2) =>
    let p := p256P
    if x1 = x2 && (y1 + y2) % p = 0 then none
    else
      let l := if x1 = x2 then (3 * x1 * x1 + (p - 3)) * invMod p (2 * y1) % p
        else (y2 + p - y1) * invMod p (x2 + p - x1) % p
      let x3 := (l * l + 2 * p - x1 - x2) % p
      some (x3, (l * (x1 + p - x3) + p - y1) % p)

def ecMul (k : Nat) (a : Option (Nat × Nat)) : Option (Nat × Nat) :=
  ((List.range 256).foldl (fun (q : Option (Nat × Nat) × Option (Nat × Nat)) i =>
    (if k / 2 ^ i % 2 = 1 then ecAdd q.1 q.2 else q.1, ecAdd q.2 q.2)) (none, a)).1

/-- Whether `(r, s)` signs the hash under the public key `(x, y)`. -/
def ecdsaOk (x y r s hash : Nat) : Bool :=
  let onCurve := x < p256P && y < p256P && y * y % p256P = (x * x * x + (p256P - 3) * x + p256B) % p256P
  if !onCurve || r = 0 || p256N ≤ r || s = 0 || p256N ≤ s then false
  else
    let w := invMod p256N s
    match ecAdd (ecMul (hash * w % p256N) (some (p256Gx, p256Gy))) (ecMul (r * w % p256N) (some (x, y))) with
    | none => false
    | some (v, _) => v % p256N = r

end Sys2Proof.Machine
end

