-- ==== Sys2Proof/Machine/Sync.lean ====
section
/-! DEFINITION. What the owner copies to a joiner of its pair (R308 to R310): the sync objects, and the key slots in
envelopes. -/

namespace Sys2Proof.Machine

namespace State

/-- R416: the generation of a key slot. -/
def slotGen (s : State) (k : Nat) : Nat := (s.reg (Reg.CRY_GEN k)).toNat

/-- R309: the KEYS object: for each slot in order its key in an envelope under key-wrapping key 0 (R418), its generation and
4 bytes 0; a slot without a key has an envelope of zeros (log entry 156).  With key-wrapping key 0 not loaded there is no
envelope to send. -/
def keysObject (s : State) : Bytes :=
  (List.range 16).flatMap (fun k =>
    (match s.slotGen k, nth s.mv.keks 0 none with
      | 0, _ => List.replicate 40 0
      | _, some kek => wrapKey kek (nth s.mv.slots k 0)
      | _, none => List.replicate 40 0) ++ leBytes 4 (s.slotGen k) ++ [0, 0, 0, 0])

/-- R309: the keys of a KEYS object by slot, with their generations; none when an envelope fails to unwrap. -/
def readKeys (s : State) (bs : Bytes) : Option (List (BitVec 256 × Nat)) :=
  (List.range 16).mapM (fun k =>
    let gen := fieldLE bs (48 * k + 40) 4
    if gen = 0 then some (0, 0)
    else ((nth s.mv.keks 0 none).bind (fun kek => unwrapKey kek (slicePad bs (48 * k) 40))).map (fun key => (key, gen)))

/-- R309: the joiner's slots take the copied keys. -/
def takeKeys (s : State) (keys : List (BitVec 256 × Nat)) : State :=
  (keys.zipIdx).foldl (fun s z =>
    { (s.setReg (Reg.CRY_GEN z.2) (BitVec.ofNat 32 z.1.2)) with mv := { s.mv with slots := upd s.mv.slots z.2 (fun _ => z.1.1) } }) s

/-- R308, R312: an object, and the CRC-32C sent at its end.  The layout of the objects other than KEYS the spec does not give
(log entry 27). -/
def syncObject (s : State) (obj : Nat) : Bytes × State :=
  let z := if obj = 4 then (s.keysObject, s) else ((Config.syncData obj s.draws).take 4076, { s with draws := s.draws + 1 })
  (z.1 ++ leBytes 4 (crc32c z.1).toNat, z.2)

/-- R316: one object in a SYNC frame. -/
def sendObject (s : State) (obj : Nat) (delta : Bool) : State :=
  let z := s.syncObject obj
  z.2.twinSend 0x0D (leBytes 1 obj ++ [if delta then 3 else 1, 0, 0] ++ leBytes 4 0 ++ z.1)

/-- R310: ALIGN, at a col after the ACT commit, once a DELTA pass has come down far enough: the last delta, with the objects
that are tracked at ALIGN only. -/
def alignAtCol (s : State) : State :=
  if s.twn.role = 1 && s.twn.phase = 3 then
    [1, 2, 3, 4, 5, 6, 7, 9].foldl (fun s obj => s.sendObject obj true)
      { s with twn := { s.twn with phase := 4, joinSwath := none } }
  else s

end State

end Sys2Proof.Machine
end

