-- ==== Sys2Proof/Machine/Act.lean ====
section
/-! DEFINITION. The actuator table and the drop test: entries, shots and results, classes, trims, edits, the hiding plan, its
staging and its commit (R184 to R213). -/

namespace Sys2Proof.Machine

namespace State

/-! ## Entries (R184) -/

def actClass (s : State) (a : Nat) : Nat := s.rdLE (actAddr a + 4) 1 % 8

def actStrikes (s : State) (a : Nat) : Nat := s.rdLE (actAddr a + 5) 1 % 16

def actPasses (s : State) (a : Nat) : Nat := s.rdLE (actAddr a + 5) 1 / 16

def actDelay (s : State) (a : Nat) : Int := sInt 16 (s.rdLE (actAddr a + 6) 2)

def actWord (s : State) (a : Nat) : BitVec 32 := BitVec.ofNat 32 (s.rdLE (actAddr a) 4)

def setClass (s : State) (a cls strikes passes : Nat) : State :=
  s.wr (actAddr a + 4) [BitVec.ofNat 8 cls, BitVec.ofNat 8 (min strikes 15 + 16 * min passes 15)]

/-- GOOD or SUSPECT. -/
def inService (cls : Nat) : Bool := cls ≤ 1

/-- The actuators whose entry differs from all zeros or has an error, by rising index. -/
def actListed (s : State) : List Nat :=
  let idx := fun (a : Nat) => if Config.actPool ≤ a && a < actAddr s.actuators then some ((a - Config.actPool) / 16) else none
  ((s.mem.filterMap (fun c => idx c.1)) ++ s.mu.ues.filterMap idx).eraseDups.mergeSort (fun x y => decide (x ≤ y))

/-- R215: whether a head link carries the column. -/
def carriesCol (s : State) (c : Nat) : Bool := s.linksUsed.any (fun l => decide (s.linkCol0 l ≤ c) && decide (c < s.linkCol0 l + s.linkWidth l))

/-- A render word as its 32 bits. -/
def wordBits (hide partner shareL shareR : Nat) (dgain : Int) : BitVec 32 :=
  BitVec.ofNat 32 (hide % 4 + 16 * (partner % 16) + 256 * (shareL % 32) + 65536 * (shareR % 32) + 2 ^ 24 * uNat 8 dgain)

/-- R212: entries with an uncorrectable byte are rewritten, and join the current plan and the trim upload; the DGAIN, LATENESS
and TESTCOL they then hold are free values. -/
def actRepair (s : State) : State :=
  let bad := (s.mu.ues.filterMap (fun e =>
    if Config.actPool ≤ e && e < actAddr s.actuators then some ((e - Config.actPool) / 16) else none)).eraseDups.mergeSort
      (fun x y => decide (x ≤ y))
  let s := bad.foldl (fun s a =>
    let (v, s) := s.draw
    let (w, s) := s.draw
    let s := s.wr (actAddr a) ([3, 0, 0, BitVec.ofNat 8 (uNat 8 (sInt 7 v.toNat)), 2, 1, 0, 0, 0, 0] ++ leBytes 6 w.toNat)
    (s.event Reg.ACT_EVENT 11).raise Src.ACT_ACT_UNCORR) s
  { s with act := { s.act with repaired := s.act.repaired ++ bad.filter (fun a => !s.act.repaired.contains a),
                               zeroed := s.act.zeroed ++ bad } }

/-! ## The test (R190 to R193) -/

/-- R191: blocks of the module. -/
def actBlocks (s : State) : Nat := s.ridgeCount

/-- R192: the retest columns. -/
def retestCols (s : State) (b : Nat) : List Nat :=
  let outside := s.actListed.filter (fun a => decide (a % 65536 / 4096 ≠ b))
  let cols := fun (cls : Nat) =>
    (((outside.filter (fun a => s.actClass a = cls)).map (fun a => a % 65536)).eraseDups).mergeSort (fun x y => decide (x ≤ y))
  let sus := cols 1
  (sus ++ (cols 2).filter (fun c => !sus.contains c)).take (s.rfld Reg.ACT_LIMITS 0 9)

/-- R193: whether a shot of column `c` fires the actuator of row `r`. -/
def shotFires (s : State) (r c : Nat) : Bool := s.carriesCol c && s.actClass (65536 * r + c) < 3

/-- The actuators that a list of shots fires, with the shot's number. -/
def firedActs (s : State) (shots : List Nat) : List (Nat × Nat) :=
  (List.range 16).flatMap (fun r => (shots.zipIdx).filterMap (fun z => if s.shotFires r z.1 then some (65536 * r + z.1, z.2) else none))

/-- A list in parts of at most `n`. -/
def partsOf {α : Type} (n : Nat) (l : List α) : List (List α) :=
  (List.range ((l.length + n - 1) / n)).map (fun k => (l.drop (n * k)).take n)

/-- R222: an upload in parts of at most `n` records, each part after `lead`: CHUNK numbers the parts and FINAL marks the
last, whose order number acknowledges the upload where `acked` says so (log entry 153). -/
def sendParts (s : State) (l typ arg : Nat) (acked : Bool) (swtag : Nat) (lead : Bytes) (n : Nat) (recs : List Bytes) : State :=
  let parts := partsOf n recs
  (parts.zipIdx).foldl (fun s z =>
    let last : Bool := decide (z.2 + 1 = parts.length)
    s.sendOrder l arg (acked && last) { s.orderHdr l typ with flags := if last then 1 else 0, chunk := z.2, swtag := swtag }
      (lead ++ z.1.flatten)) s

/-- R222: the local index of an actuator on a link. -/
def localIdx (s : State) (l a : Nat) : Nat := 65536 * (a / 65536) + (a % 65536 - s.linkCol0 l)

/-- R233: CLEAR_FAULT for actuators whose nozzle the head driver holds off, as many in a frame as its body takes. -/
def clearFaults (s : State) (acts : List Nat) : State :=
  s.linksUsed.foldl (fun s l =>
    let mine := (s.headlink l).nozzles.filter (fun z => acts.contains z.1)
    if mine.isEmpty || !s.owns then s
    else
      let s := s.updHead l (fun h => { h with nozzles := h.nozzles.filter (fun z => !acts.contains z.1) })
      (partsOf 1022 mine).foldl (fun s p =>
        s.sendOrder l p.length true (s.orderHdr l 0x32)
          (leBytes 4 p.length ++ [0, 0, 0, 0] ++ p.flatMap (fun z => leBytes 4 (s.localIdx l z.1)))) s) s

/-! ## The swath that follows -/

/-- The swath that follows the col: the current one, or the head of the queue. -/
def nextSwath (s : State) : Option Swath := (s.mot.current.toList ++ s.mot.queue).head?

/-- R202, R207: the row map that judges partners, and gives the groups whose test waveforms the rows fire. -/
def planMap (s : State) : BitVec 64 :=
  match s.nextSwath with
  | some w => s.rowmapAt (planAt w.plan (planFirst w.plan))
  | none => s.rowmapAt s.atU

/-- R193, R222: the TEST frame of a link and its exclusion lists. -/
def sendTest (s : State) (l block : Nat) (retest : List Nat) (map : BitVec 64) : State :=
  let shots := (List.range 4096).map (fun j => 4096 * block + j) ++ retest
  let excl := s.actListed.filter (fun a => decide (s.linkCol0 l ≤ a % 65536) && decide (a % 65536 < s.linkCol0 l + s.linkWidth l) &&
    decide (3 ≤ s.actClass a) && shots.contains (a % 65536))
  let n := s.hlk.orderNo
  let s := s.sendOrder l n true (s.orderHdr l 0x24)
    (leBytes 2 (4096 * block) ++ leBytes 2 4096 ++ leBytes 2 retest.length ++ leBytes 2 excl.length ++
      leBytes 2 (s.rfld Reg.ACT_SHOTS 0 12) ++ List.replicate 6 0 ++
      (List.range 16).map (fun r => BitVec.ofNat 8 (s.rfld (Reg.ACT_TESTWAVE (groupIn map r)) 0 8)) ++ retest.flatMap (leBytes 2))
  s.sendParts l 0x25 0 false (s.mot.swtags % 65536) (leBytes 4 n ++ [0, 0, 0, 0]) 1022 (excl.map (fun a => leBytes 4 (s.localIdx l a)))

/-- R193: the test order, with its exclusion lists, and the start strobe at this sample.  No rule names the line that carries
the start strobe (log entry 154). -/
def startTest (s : State) : State :=
  let s := s.actRepair
  let b := s.act.t % s.actBlocks
  let retest := s.retestCols b
  let shots := (List.range 4096).map (fun j => 4096 * b + j) ++ retest
  let s := s.clearFaults ((s.firedActs shots).map Prod.fst)
  let map := s.planMap
  let n := s.hlk.orderNo
  let s := s.linksUsed.foldl (fun s l => s.sendTest l b retest map) s
  let k : TestState :=
    { t0 := s.clk.pclk, shots := shots, edges := [], order := n, aborted := false, next := 0, gate := s.permitted,
      fires := shots.map (fun c => ((List.range 16).filter (fun r => s.shotFires r c)).length) }
  { s with act := { s.act with phase := 2, test := some k } }.emit (.startStrobe s.clk.pclk)

/-- R262: the scan position lies within the station zone, and what is left of its trajectory stays there. -/
def inZone (s : State) : Bool :=
  match s.crn.lastPlan with
  | none => true
  | some p =>
    let z := s.stationZone p.dir
    let inside := fun (x : Int) => decide (256 * z.1 ≤ x) && decide (x ≤ 256 * z.2 + 255)
    let x := s.axis 0
    !s.hasAxis || (inside (s.posX 0) && (!(s.plans && x.moving) || (planTurns x.segs x.base (s.now - x.began)).all inside))

/-- R206, R262: the carriage is in place: the hold begins, and with it the test. -/
def inPlace (s : State) : State :=
  if s.act.phase != 1 || !s.inZone then s
  else
    let s := { s with act := { s.act with hold := some s.clk.pclk, phase := 2 } }
    if s.owns then s.startTest else s

/-- R195, R196: a rising edge of a gate. -/
def gateRise (s : State) (row t : Nat) : State :=
  match s.act.test with
  | some k =>
    if s.act.phase = 2 && s.owns && !k.aborted && row < 16 then
      { s with act := { s.act with test := some { k with edges := k.edges ++ [(row, t)] } } }
    else s
  | none => s

/-! ## Results (R194 to R197) -/

/-- R194: the expected arrival of a row's shot `j`. -/
def arrival (s : State) (k : TestState) (r j : Nat) : Nat :=
  k.t0 + j * s.rfld Reg.ACT_SHOTS 0 12 + s.rfld (Reg.ACT_FLIGHT r) 0 18

/-- R195: RESULT and λ of an actuator from the edges inside its window. -/
def resultOf (s : State) (k : TestState) (stray : Bool) (a j : Nat) : TestResult :=
  let r := a / 65536
  let e := s.arrival k r j
  let w := s.rfld Reg.ACT_SHOTS 12 10
  let hits := (k.edges.filter (fun p => p.1 = r && decide (e ≤ p.2 + w) && decide (p.2 < e + w))).map Prod.snd
  match hits with
  | [] => { act := a, result := if stray then 6 else 3, lateness := -32768 }
  | x :: more =>
    let first := more.foldl min x
    let lam : Int := (first : Int) - e
    { act := a, lateness := lam,
      result := if stray then 6 else if !more.isEmpty then 4 else if lam.natAbs ≤ s.rfld Reg.ACT_SHOTS 22 10 then 1 else 2 }

/-- R196: the edges of a gate outside every window of an actuator fired. -/
def strayEdges (s : State) (k : TestState) (fired : List (Nat × Nat)) (r : Nat) : Nat :=
  let w := s.rfld Reg.ACT_SHOTS 12 10
  ((k.edges.filter (fun p => p.1 = r)).filter (fun p => !fired.any (fun z => decide (z.1 / 65536 = r) &&
    decide (s.arrival k r z.2 ≤ p.2 + w) && decide (p.2 < s.arrival k r z.2 + w)))).length

/-- R189, R195 to R197: the results of a completed test, its counts and its faults; a nozzle fault that a head driver has
reported replaces the gate's result. -/
def testResults (s : State) (k : TestState) : State × List TestResult :=
  let fired := s.firedActs k.shots
  (List.range 16).foldl (fun (acc : State × List TestResult) r =>
    let s := acc.1
    let stray := s.strayEdges k fired r
    let flood := decide (s.rfld Reg.ACT_LIMITS 16 8 < stray)
    let s := s.count Reg.ACT_STRAY stray
    let s := if flood then (s.event Reg.ACT_EVENT 4).raise Src.ACT_GATE_STRAY else s
    let rs := (fired.filter (fun z => decide (z.1 / 65536 = r))).map (fun z =>
      if s.act.headFaults.contains z.1 then { act := z.1, result := 5, lateness := -32768 } else s.resultOf k flood z.1 z.2)
    let num := fun (c : Nat) => (rs.filter (fun z => z.result = c)).length
    let s := (((s.count Reg.ACT_PASS (num 1)).count Reg.ACT_LATE (num 2)).count Reg.ACT_MISS (num 3)).count Reg.ACT_EXTRA (num 4)
    let s := if s.rfld Reg.ACT_MASS 0 13 < rs.length - num 1 then (s.event Reg.ACT_EVENT 5).raise Src.ACT_MASS_FAIL else s
    (s, acc.2 ++ rs)) (s, [])

/-! ## Classification, trims and edits (R188, R189, R200, R210) -/

/-- R188: the class, strikes and passes after a result. -/
def nextClass (s : State) (cls strikes passes : Nat) (pass : Bool) : Nat × Nat × Nat :=
  let hideAt := s.rfld Reg.ACT_CTRL 4 4
  let recover := s.rfld Reg.ACT_CTRL 8 4
  let dead := s.rfld Reg.ACT_CTRL 12 4
  match cls with
  | 0 => if pass then (0, 0, passes) else if hideAt ≤ 1 then (2, 1, 0) else (1, 1, passes)
  | 1 => if pass then (0, 0, passes) else if hideAt ≤ strikes + 1 then (2, strikes + 1, 0) else (1, strikes + 1, passes)
  | 2 =>
    if pass then (if recover ≤ passes + 1 then (0, 0, 0) else (2, strikes, passes + 1))
    else if dead ≤ strikes + 1 then (3, strikes + 1, 0) else (2, strikes + 1, 0)
  | c => (c, strikes, passes)

/-- R200: FDELAY'. -/
def trimOf (s : State) (delay lam : Int) : Int :=
  max (-512) (min 511 (delay - (lam + delay) * (s.rfld Reg.ACT_CTRL 16 5 : Nat) / 16))

/-- What classification gives: the actuators that entered or left a hidden class, and each FDELAY' that differs. -/
structure Sorted where
  changed : List Nat
  trims : List (Nat × Int)
  deriving DecidableEq, Repr

/-- R188, R195, R200: one result is written into its entry. -/
def oneResult (acc : State × Sorted) (z : TestResult) : State × Sorted :=
  let s := acc.1
  let cls := s.actClass z.act
  if 3 ≤ cls then acc
  else
    let (c, st, ps) := s.nextClass cls (s.actStrikes z.act) (s.actPasses z.act) (z.result = 1)
    let s := s.setClass z.act c st ps
    let s := s.wr (actAddr z.act + 8) ([BitVec.ofNat 8 z.result, 0] ++ leBytes 2 (uNat 16 z.lateness) ++
      leBytes 4 (s.reg Reg.ACT_COLNO).toNat)
    let old := s.actDelay z.act
    let new := if z.result = 1 || z.result = 2 then s.trimOf old z.lateness else old
    (s, { changed := if inService cls != inService c then acc.2.changed ++ [z.act] else acc.2.changed,
          trims := if new = old then acc.2.trims else (z.act, new) :: acc.2.trims.filter (fun p => p.1 != z.act) })

/-- R210: one edit is applied; the DGAIN edits of the col are gathered. -/
def oneEdit (acc : State × Sorted × List (Nat × Int)) (e : BitVec 32 × BitVec 16) : State × Sorted × List (Nat × Int) :=
  let (s, k, dg) := acc
  let a := fld e.1 0 20
  let cls := s.actClass a
  let v := sInt 16 e.2.toNat
  let changes := { k with changed := if k.changed.contains a then k.changed else k.changed ++ [a] }
  match fld e.1 24 3 with
  | 1 => (s.setClass a 4 (s.actStrikes a) (s.actPasses a), changes, dg)
  | 2 => if cls = 4 then (s.setClass a 2 0 0, changes, dg) else (s.event Reg.ACT_EVENT 10, k, dg)
  | 3 => if cls = 3 then (s.setClass a 2 0 0, changes, dg) else (s.event Reg.ACT_EVENT 10, k, dg)
  | 4 => (s, k, (a, v) :: dg.filter (fun p => p.1 != a))
  | _ => (s, { k with trims := (a, v) :: k.trims.filter (fun p => p.1 != a) }, dg)

/-! ## The hiding plan (R202 to R204) -/

/-- The rows that ACT_PARTNER lists for a row. -/
def partners (s : State) (r : Nat) : List Nat :=
  let v := s.reg (Reg.ACT_PARTNER r)
  (List.range (fld v 12 2)).map (fun k => fld v (4 * k) 4)

/-- The present render word of an actuator: that of a plan still staged or carried, or the pool's. -/
def effWord (s : State) (a : Nat) : BitVec 32 :=
  match (s.act.plan ++ s.act.carry).find? (fun z => z.1 = a) with
  | some z => z.2
  | none => s.actWord a

/-- R202: a partner row in the group of row `r`. -/
def sameGroup (map : BitVec 64) (r p : Nat) : Bool := groupIn map r = groupIn map p

/-- Whether a hidden actuator's word names a row or column that can no longer receive. -/
def wordStale (s : State) (map : BitVec 64) (a : Nat) : Bool :=
  let w := renderWordOf (s.effWord a).toNat
  let r := a / 65536
  let c := a % 65536
  let takes := fun (b : Nat) => inService (s.actClass b)
  if w.hide = 1 then !((s.partners r).contains w.partner && sameGroup map r w.partner && takes (65536 * w.partner + c))
  else if w.hide = 2 then
    (w.shareL != 0 && !(0 < c && takes (a - 1))) || (w.shareR != 0 && !(decide (c + 1 < s.columns) && takes (a + 1)))
  else false

/-- R203: the render word of one actuator, and the claims it leaves. -/
def planOne (s : State) (map : BitVec 64) (claims : List (Nat × Nat × Nat)) (a : Nat) (dgain : Int) :
    BitVec 32 × List (Nat × Nat × Nat) :=
  let r := a / 65536
  let c := a % 65536
  let takes := fun (b : Nat) => inService (s.actClass b)
  if takes a then (wordBits 0 0 0 0 dgain, claims)
  else
    let free := fun (p : Nat) => match claims.find? (fun z => z.1 = c && z.2.1 = p) with
      | some z => decide (z.2.2 = a)
      | none => true
    match (s.partners r).find? (fun p => sameGroup map r p && takes (65536 * p + c) && free p) with
    | some p => (wordBits 1 p 0 0 dgain, claims ++ [(c, p, a)])
    | none =>
      let left := 0 < c && takes (a - 1)
      let right := decide (c + 1 < s.columns) && takes (a + 1)
      let both := s.rfld Reg.ACT_CTRL 24 5
      (if left && right then wordBits 2 0 both both dgain
       else if left then wordBits 2 0 16 0 dgain
       else if right then wordBits 2 0 0 16 dgain
       else wordBits 3 0 0 0 dgain, claims)

/-- R203, R205: the new words by group (1 to 4) of the change list, and whether one newly hides nothing (OFF). -/
def hidingPlan (s : State) (map : BitVec 64) (changed : List Nat) (dg : List (Nat × Int)) :
    List (Nat × Nat × BitVec 32) × Bool :=
  let hidden := s.actListed.filter (fun a => !inService (s.actClass a))
  let claims := hidden.filterMap (fun a =>
    let w := renderWordOf (s.effWord a).toNat
    if w.hide = 1 then some (a % 65536, w.partner, a) else none)
  let again := hidden.filter (fun a => !changed.contains a && (s.act.firstCol || s.wordStale map a))
  let todo := (changed.map (fun a => (a, 1)) ++ again.map (fun a => (a, 4))).mergeSort (fun x y => decide (x.1 ≤ y.1))
  let dgain := fun (a : Nat) => match dg.find? (fun p => p.1 = a) with
    | some p => p.2
    | none => (renderWordOf (s.effWord a).toNat).dgain
  let (words, _) := todo.foldl (fun (acc : List (Nat × Nat × BitVec 32) × List (Nat × Nat × Nat)) z =>
    let (w, cl) := s.planOne map acc.2 z.1 (dgain z.1)
    (acc.1 ++ [(z.1, z.2, w)], cl)) ([], claims)
  let only := (dg.filter (fun p => !todo.any (fun z => z.1 = p.1))).map (fun p =>
    let w := renderWordOf (s.effWord p.1).toNat
    (p.1, 3, wordBits w.hide w.partner w.shareL w.shareR p.2))
  let off := words.any (fun z => fld z.2.2 0 2 = 3 && (fld (s.effWord z.1) 0 2 != 3 || s.act.repaired.contains z.1))
  (words ++ only, off)

/-! ## Staging (R205) -/

/-- R205: the change list of a col: at most 81,920 records, in full groups, and what is carried. -/
def changeList (new : List (Nat × Nat × BitVec 32)) (pending carried : List (Nat × BitVec 32)) :
    List (Nat × BitVec 32) × List (Nat × BitVec 32) :=
  let has := fun (a : Nat) => new.any (fun z => z.1 = a)
  let late := pending ++ carried.filter (fun z => !pending.any (fun p => p.1 = z.1))
  let all := new ++ (late.filter (fun z => !has z.1)).map (fun z => (z.1, 2, z.2))
  let order := all.mergeSort (fun x y => decide (x.2.1 < y.2.1 ∨ (x.2.1 = y.2.1 ∧ x.1 ≤ y.1)))
  let strip := fun (l : List (Nat × Nat × BitVec 32)) => l.map (fun z => (z.1, z.2.2))
  ((strip (order.take 81920)).mergeSort (fun x y => decide (x.1 ≤ y.1)), strip (order.drop 81920))

/-- R222: the TRIM frames of a link: up to 128 records each, for the swath with this tag. -/
def sendTrims (s : State) (l swtag : Nat) (trims : List (Nat × Int)) : State :=
  let mine := trims.filter (fun z => decide (s.linkCol0 l ≤ z.1 % 65536) && decide (z.1 % 65536 < s.linkCol0 l + s.linkWidth l))
  s.sendParts l 0x23 0 true swtag [] 128
    (mine.map (fun z => leBytes 4 (s.localIdx l z.1) ++ leBytes 2 (uNat 16 z.2) ++ [0, 0]))

/-- R201, R225: each FDELAY' is uploaded to the links that carry the actuator, for the swath that follows the col.  Once that
swath's first transmit point has passed, nothing is sent, and the upload stays without its acknowledgement. -/
def uploadTrims (s : State) (trims : List (Nat × Int)) : State :=
  let links := s.linksUsed.filter (fun l => trims.any (fun z =>
    decide (s.linkCol0 l ≤ z.1 % 65536) && decide (z.1 % 65536 < s.linkCol0 l + s.linkWidth l)))
  let s := { s with act := { s.act with trims := trims, trimWait := links } }
  let tag := match s.nextSwath with
    | some w => w.plan.swtag
    | none => s.mot.swtags % 65536
  if s.nextSwath.any (fun w => decide (w.firstOrd < s.crn.crossed)) then s.trimNack
  else if s.owns then links.foldl (fun s l => s.sendTrims l tag trims) s else s

/-- R189: the HEAD_FAULT results of a col for actuators that its test gives none. -/
def headResults (s : State) (results : List TestResult) : List TestResult :=
  results ++ (s.act.headFaults.filter (fun a => !results.any (fun z => z.act = a))).map (fun a =>
    ({ act := a, result := 5, lateness := -32768 } : TestResult))

/-- R188 to R205: classification, trims, edits and the plan of a col, staged for the swath that follows it.  `test` says
that a test completed. -/
def stagePlan (s : State) (results : List TestResult) (test : Bool) : State :=
  let s := s.actRepair
  let k0 : Sorted := { changed := s.act.repaired, trims := (s.act.zeroed.eraseDups).map (fun a => (a, 0)) }
  let (s, k) := (results.mergeSort (fun x y => decide (x.act ≤ y.act))).foldl oneResult (s, k0)
  let (s, k, dg) := s.act.edits.foldl oneEdit (s, k, [])
  let map := s.planMap
  let (new, off) := s.hidingPlan map k.changed.eraseDups dg
  let (plan, carry) := changeList new (if s.act.pending then s.act.plan else []) s.act.carry
  let s := if carry.isEmpty then s else s.event Reg.ACT_EVENT 12
  let s := if off then (s.event Reg.ACT_EVENT 6).raise Src.ACT_UNHIDEABLE else s
  let moved := (plan.filter (fun z => fld z.2 0 2 != 0 && (fld (s.actWord z.1) 0 2 = 0 || s.act.repaired.contains z.1))).map Prod.fst
  let at_ : Nat × Nat := match s.nextSwath with
    | some w => (w.plan.layer, w.plan.swath)
    | none => match s.crn.lastPlan with
      | some p => (p.layer, (p.swath + 1) % 65536)
      | none => (0, 0)
  let s := s.wr (Config.seqPool + s.rfld Reg.ACT_PLAN_BASE 0 23)
    (plan.flatMap (fun z => leBytes 4 z.1 ++ leBytes 4 z.2.toNat))
  let s := ((s.setReg Reg.ACT_CHANGES (BitVec.ofNat 32 plan.length)).setReg Reg.ACT_NEWHIDE (BitVec.ofNat 32 moved.length))
  let s := (s.setReg Reg.ACT_PLAN_LAYER (BitVec.ofNat 32 at_.1)).setReg Reg.ACT_PLAN_SWATH (BitVec.ofNat 32 at_.2)
  let s := { s with act := { s.act with
      phase := 6, test := none, headFaults := [], edits := [], plan := plan, carry := carry, staged := true, pending := false,
      counts := if s.nextSwath.isSome then moved.map (fun a => (a, 0)) else [],
      forSwath := (s.nextSwath).map (fun (w : Swath) => (w.plan.layer, w.plan.swath)), firstCol := false, zeroed := [] } }
  let s := s.uploadTrims k.trims
  let s := if test then s.event Reg.ACT_EVENT 0 else s
  s.raiseEvent s.super 10

/-! ## Commit (R206 to R209) -/

/-- R326: the body of a COL frame: EVENT 0 col start, 1 hold release. -/
def colBody (s : State) (event : Nat) : Bytes :=
  leBytes 2 ((s.crn.lastPlan.map SwathPlan.swtag).getD 0) ++ leBytes 1 event ++ [0, 0, 0, 0, 0]

/-- R206, R325: the hold ends; at the lead of a cascade only once it and every member have committed, and at a follower with
the lead's release. -/
def releaseHold (s : State) : State :=
  let waits := !s.isLead || (s.csc.joined ||| 1) &&& ~~~s.csc.committed != 0
  if s.act.hold.isNone || waits then s
  else
    let s := { s with act := { s.act with hold := none } }
    (s.distribute 8 (s.colBody 1)).startSwath

/-- R325: this position's plan of the col is committed or refused: a member reports it, and the lead counts it. -/
def colDecided (s : State) : State :=
  (({ s with csc := { s.csc with committed := setBit s.csc.committed 0 true } }).report 1 0 (s.rfld Reg.ACT_PLAN_SWATH 0 16)
    (s.rfld Reg.ACT_PLAN_LAYER 0 24)).releaseHold

/-- R207: the ridges that own a changed column, and the neighbour at a ridge's edge. -/
def planRidges (s : State) (acts : List Nat) : BitVec 16 :=
  let owns := acts.flatMap (fun a =>
    let c := a % 65536
    let i := c / 4096
    [i] ++ (if c % 4096 = 0 && 0 < i then [i - 1] else []) ++ (if c % 4096 = 4095 && i + 1 < s.ridgeCount then [i + 1] else []))
  maskOf 16 owns

/-- R186, R212: the records of the staged plan that change a render word; that of a rewritten entry joins them. -/
def planChanges (s : State) : List (Nat × BitVec 32) :=
  s.act.plan.filter (fun z => z.2 != s.actWord z.1 || s.act.repaired.contains z.1)

/-- R173, R207: the staged plan is committed, or refused because a line of its swath has been transmitted. -/
def commitPlan (s : State) (refuse : Bool) : State :=
  let changed := s.planChanges
  let w := s.planned.find? (fun (w : Swath) => s.act.forSwath = some (w.plan.layer, w.plan.swath))
  if refuse then
    let s := ((s.event Reg.CRN_EVENT 4).raise Src.CRN_HEALTH_LATE).event Reg.ACT_EVENT 3
    { s with act := { s.act with pending := true, phase := 0 } }
  else
    let back := (changed.filter (fun z => fld z.2 0 2 = 0 && fld (s.actWord z.1) 0 2 != 0)).map Prod.fst
    let s := changed.foldl (fun s z => s.wrLE (actAddr z.1) 4 z.2.toNat) s
    let s := match w with
      | some w => if changed.isEmpty then s else s.squash 1 (s.planRidges (changed.map Prod.fst)) w.firstOrd 0
      | none => s
    let s := ((s.clearFaults back).event Reg.ACT_EVENT 2).count Reg.ACT_COMMITS 1
    { s with act := { s.act with plan := [], staged := false, pending := false, counts := [], phase := 0, repaired := [] } }

/-- R173: a line of the plan's swath has been transmitted. -/
def commitRefused (s : State) : Bool :=
  match s.act.forSwath with
  | none => false
  | some (l, w) =>
    !s.planChanges.isEmpty && (match s.planned.find? (fun v => v.plan.layer = l && v.plan.swath = w) with
      | some v => decide (v.firstOrd < s.firstUntx)
      | none => true)

/-- R207: the module that owns the outputs decides and mirrors; the standby waits for the outcome. -/
def decideCommit (s : State) : State :=
  if s.follows then s
  else (((s.mirror 7 (actBytes (if s.commitRefused then .refusal else .commit))).commitPlan s.commitRefused).colDecided).alignAtCol

/-- R208: a plan that is staged and not committed when the next col begins is refused. -/
def staleStage (s : State) : State :=
  if s.act.staged && !s.act.pending then s.commitPlan true else s

/-- R209: at the end of the swath of a refused plan, one FIRED_STALE entry for each actuator that printed. -/
def flushCounts (s : State) (p : SwathPlan) : State :=
  if s.act.forSwath = some (p.layer, p.swath) && !s.act.counts.isEmpty then
    let es := (s.act.counts.filter (fun z => z.2 != 0)).map (fun z =>
      ({ kind := 0x20, ctx := 0, rowmask := setBit 0 (z.1 / 65536) true, layer := p.layer, swath := p.swath,
         firstCol := z.1 % 65536, lastCol := z.1 % 65536, source := 0, firstLine := p.lineFirst, lastLine := p.lineLast,
         count := z.2, seq := 0 } : ScreeEntry))
    ({ s with act := { s.act with counts := [] } }).writeEntries es
  else s

/-- R195, R198, R199: the module that owns the outputs mirrors the record of the col, and forms the plan from it.  At a col
with no test, or with one that aborted, the record has no shot and only HEAD_FAULT results (log entry 155). -/
def recordPlan (s : State) (t0 : Nat) (shots : List Nat) (results : List TestResult) : State :=
  let results := s.headResults results
  (((s.mirror 7 (actBytes (.test t0 shots results))).stagePlan results (!shots.isEmpty))).decideCommit

/-- R190, R206, R208: ACT at the start of a col that follows the plan's swath; a standby forms its plan from the mirrored
record. -/
def actCol (s : State) (p : SwathPlan) : State :=
  let s := ((s.staleStage.count Reg.ACT_COLNO 1).flushCounts p)
  let s := { s with act := { s.act with test := none, hold := none }, csc := { s.csc with committed := setBit s.csc.committed 0 false } }
  if s.hasStation p.dir then { s with act := { s.act with phase := 1 } }
  else
    let s := { s with act := { s.act with hold := some s.clk.pclk } }
    if s.follows then s else s.recordPlan s.clk.pclk [] []

/-! ## The end of the test -/

/-- R194: the PCLK at which the last window closes. -/
def windowsEnd (s : State) (k : TestState) : Nat :=
  s.lastShot k + ((List.range 16).map (fun r => s.rfld (Reg.ACT_FLIGHT r) 0 18)).foldl max 0 + s.rfld Reg.ACT_SHOTS 12 10

/-- R195, R198, R199: the last window has closed: the record is mirrored, and the plan formed from it. -/
def testOver (s : State) : State :=
  match s.act.test with
  | some k =>
    if s.act.phase != 2 || !s.owns || s.clk.pclk < s.windowsEnd k then s
    else if k.aborted then s.countShots.recordPlan k.t0 [] []
    else
      let (s, rs) := s.countShots.testResults k
      ({ s with act := { s.act with t := s.act.t + 1 } }.obsCount 8).recordPlan k.t0 k.shots rs
  | none => s

/-- R206: HOLD_MAX passes first: the moment is HOLD_MAX after the hold began. -/
def holdOver (s : State) : State :=
  match s.act.hold with
  | none => s
  | some h =>
    let s := s.at_ (h + 200 * s.rfld Reg.ACT_HOLD 0 16)
    let s := (s.event Reg.ACT_EVENT 8).raise Src.ACT_HOLD_TIMEOUT
    let s := { s with act := { s.act with hold := none } }
    (s.distribute 8 (s.colBody 1)).startSwath

/-! ## Edits (R210) -/

/-- R210: what is judged when an edit is queued. -/
def editBad (s : State) (idx : BitVec 32) (val : BitVec 16) : Bool :=
  let op := fld idx 24 3
  let v := sInt 16 val.toNat
  op = 0 || 6 ≤ op || (op = 4 && (decide (v < -64) || decide (63 < v))) || (op = 5 && (decide (v < -512) || decide (511 < v))) ||
    s.columns ≤ fld idx 0 16

/-- R210: an edit joins the queue; the module that owns the outputs mirrors it. -/
def queueEdit (s : State) (idx : BitVec 32) (val : BitVec 16) : State :=
  if s.editBad idx val then s.event Reg.ACT_EVENT 10
  else if 1024 ≤ s.act.edits.length then s.event Reg.ACT_EVENT 9
  else ({ s with act := { s.act with edits := s.act.edits ++ [(idx, val)] } }).mirror 7 (actBytes (.edit idx (val.setWidth 32)))

/-- R210: a write of ACT_EDIT_IDX with the value of ACT_EDIT_VAL; a standby applies the mirrored edits instead (R295). -/
def editWriteIdx (s : State) (op idx : Nat) (val : BitVec 16) : State :=
  let v := BitVec.ofNat 32 (idx % 2 ^ 20 + 2 ^ 24 * op)
  let s := (s.setReg Reg.ACT_EDIT_VAL (BitVec.ofNat 32 val.toNat)).setReg Reg.ACT_EDIT_IDX v
  if s.follows then s else s.queueEdit v val

end State

/-! ## Commands -/

/-- R262: the scan position lies in the station zone and stays there. -/
def execCarriageInPlace (t : Nat) (s : State) : Out := whenReady s (fun s => (s.at_ t).inPlace)

/-- R195. -/
def execGateEdge (row t : Nat) (s : State) : Out := whenReady s (fun s => (s.at_ t).gateRise row t)

/-- R198. -/
def execTestWindowsClosed (t : Nat) (s : State) : Out := whenReady s (fun s => (s.at_ t).testOver)

/-- R206. -/
def execHoldTimeout (s : State) : Out := whenReady s (fun s => s.holdOver)

/-- R210 MASK. -/
def execActEditMask (idx : Nat) (val : BitVec 16) (s : State) : Out := whenClocked s (fun s => s.editWriteIdx 1 idx val)

/-- R210 UNMASK. -/
def execActEditUnmask (idx : Nat) (val : BitVec 16) (s : State) : Out := whenClocked s (fun s => s.editWriteIdx 2 idx val)

/-- R210 REVIVE. -/
def execActEditRevive (idx : Nat) (val : BitVec 16) (s : State) : Out := whenClocked s (fun s => s.editWriteIdx 3 idx val)

/-- R210 DGAIN. -/
def execActEditDgain (idx : Nat) (val : BitVec 16) (s : State) : Out := whenClocked s (fun s => s.editWriteIdx 4 idx val)

/-- R210 FDELAY. -/
def execActEditFdelay (idx : Nat) (val : BitVec 16) (s : State) : Out := whenClocked s (fun s => s.editWriteIdx 5 idx val)

end Sys2Proof.Machine
end

