-- ==== Sys2Proof/Machine/Col.lean ====
section
/-! DEFINITION. The col: how it begins, the rotation of the ridges, and the BIST slices that start in it (R152 to R154, R262,
R499 to R501). -/

namespace Sys2Proof.Machine

namespace State

/-! ## BIST slices begin (R499, R500) -/

/-- The target of a pair slice returns to service, unless the pair is retired. -/
def pairBack (s : State) (p : Nat) : State :=
  if bit s.seq.retired p then s
  else { s with seq := { s.seq with pairs := s.seq.pairs.modify p (fun q => { q with inService := true }) } }

/-- R499: the pair slice of a col, on the next pair in service. -/
def pairSlice (s : State) : State :=
  let live := fun (p : Nat) => !bit s.seq.retired p && ((s.seq.pairs[p]?).map Pair.inService).getD false
  if !s.rbit Reg.BST_CTRL 20 || s.bist.slices.any (fun x => x.kind = 1) || ((List.range 4).filter live).length < 2 then s
  else
    match nextUnit 4 ((s.bist.nextPair + 3) % 4) live with
    | none => s
    | some p =>
      let c := ((s.seq.pairs[p]?).map Pair.running).getD 0
      let s := if c = 0 then s else s.switchOut c
      let s := { s with seq := { s.seq with pairs := s.seq.pairs.modify p (fun q => { q with inService := false }) },
                        bist := { s.bist with nextPair := p } }
      s.addSlice 1 p 2

/-- R499: the CVU slice of a col; a unit that is busy is tested once it is idle. -/
def cvuSlice (s : State) : State :=
  if !s.rbit Reg.BST_CTRL 21 || s.bist.slices.any (fun x => x.kind = 2) then s
  else
    match nextUnit 4 ((s.bist.nextCvu + 3) % 4) (fun u => !s.rbit Reg.BST_OUT u) with
    | none => s
    | some u =>
      let s := { s with bist := { s.bist with nextCvu := u } }
      s.addSlice 2 u (if (s.cvu u).cur.isNone && (s.cvu u).queue.isEmpty then 2 else 0)

/-! ## Rotation (R152 to R154) -/

/-- R299: a ridge that a tie-break suspects goes ahead of the rotation order. -/
def leaving (s : State) (spare : Nat) : Option Nat :=
  let inUse := fun (p : Nat) => s.rdg.ridges.any (fun g => g.phys = p)
  match s.bist.firstRidge with
  | some p => if inUse p then some p else nextUnit s.physCount spare inUse
  | none => nextUnit s.physCount spare inUse

/-- R152, R153: at a col a physical ridge leaves service: its logical ridge moves to the spare at the next band boundary.
At a col with a handover still due, no further ridge leaves (log entry 149). -/
def rotate (s : State) : State :=
  match s.rdg.spare with
  | none => s
  | some spare =>
    if s.rdg.rotHalt || s.rdg.leaving.isSome then s
    else
      match (s.leaving spare).bind (fun p => s.rdg.ridges.findIdx? (fun g => g.phys = p)) with
      | none => s
      | some i =>
        { s with rdg := { s.rdg with leaving := some (i, spare) }, bist := { s.bist with firstRidge := none } }.tryHandOver

/-! ## The col begins (R262) -/

/-- The last line of a swath in firing order has had its pulses; at a standby, the swath's owner has closed it. -/
def lastDone (s : State) (w : Swath) : Bool :=
  let last := w.firstOrd + planLen w.plan - 1
  last < s.crn.freed || s.crn.window.any (fun (l : CLine) => l.ord = last &&
    (if s.follows then l.dropped || l.ridges.all (fun k => decide (5 ≤ k.st)) else rowsDone l))

/-- What a swath that has ended leaves: lines that were never taken are withheld as STANDSTILL, and a ridge that has not
come to its end goes on with the next swath. -/
def endSwath (s : State) (w : Swath) : State :=
  let past := w.firstOrd + planLen w.plan
  let u := s.firstUntx
  let s := if u < past then
      let s := s.withholdLines w u past 4
      { s with crn := { s.crn with window := s.crn.window.map (fun (l : CLine) =>
          if u ≤ l.ord && l.ord < past && !l.taken then
            { l with dropped := true, ridges := l.ridges.map (fun (k : RLine) => { k with st := 6 }) }
          else l) } }
    else s
  (List.range s.rdg.ridges.length).foldl (fun s i =>
    if (s.ridge i).nextOrd < past then
      (s.dropFault i).updRidge i (fun g => { dropBand g with nextOrd := past, carried := [] })
    else s) s

/-- R306: a handover asked for runs at this col: the frame names the servo tick at which ownership changes. -/
def handoverAtCol (s : State) : State :=
  if s.twn.handover = some 0 && s.twn.role = 2 then
    let period := s.rfld Reg.PLN_CTRL 0 2
    let ns : Nat := if period = 1 then 31250 else if period = 2 then 125000 else 62500
    let at_ := (s.clk.nextTick + 1) * ns
    ({ s with twn := { s.twn with handover := some at_ } }).twinSend 0x0F
      (leBytes 8 at_ ++ leBytes 2 ((s.twn.topTkn + 1) % 65536) ++ List.replicate 6 0)
  else s

/-- R262: the col that follows a swath of this plan begins. -/
def runCol (s : State) (p : SwathPlan) : State :=
  let s := s.flushRuns (fun _ => true)
  let s := { s with mot := { s.mot with current := none, inCol := true, colDue := false, spanOn := false },
                    crn := { s.crn with lastPlan := some p, lateSwath := none } }
  let s := s.setCauses (fun f => { f with swgate := false })
  let s := s.updAxis 0 (fun x => { x with pend := x.pend.filter (fun z => z.1 != 0) })
  let s := (((s.raiseEvent s.super 9).event Reg.PLN_EVENT 0).obsCount 6)
  let s := s.rotate.pairSlice.cvuSlice
  let s := { s with csc := { s.csc with committed := 0 } }.distribute 8 (s.colBody 0)
  let s := s.actCol p
  let s := s.trace 6 (leBytes 2 p.swtag ++ [0, 0] ++ leBytes 4 (s.reg Reg.ACT_COLNO).toNat)
  s.handoverAtCol.startSwath

/-- R262: whether a col begins now. -/
def colBegins (s : State) : State :=
  match s.mot.current with
  | some w => if s.lastDone w then (s.endSwath w).runCol w.plan else s
  | none => if s.mot.colDue then (match s.crn.lastPlan with
      | some p => s.runCol p
      | none => s) else s

end State

/-- R262. -/
def execColStart (t : Nat) (s : State) : Out := whenReady s (fun s => (s.at_ t).colBegins)

end Sys2Proof.Machine
end

