-- ==== Sys2Proof/Machine/Zip.lean ====
section
/-! DEFINITION. The inflater and the deflater (R407 to R411), as functions of their input, and the check values of R413. -/

namespace Sys2Proof.Machine

/-! ## Inflate (R407, R408) -/

/-- The bits of a byte, least significant first. -/
def byteBits (b : Byte) : List Bool := (List.range 8).map (fun i => bit b i)

def bitNat : List Bool → Nat
  | [] => 0
  | b :: l => (if b then 1 else 0) + 2 * bitNat l

/-- `n` bits as a number, least significant first; none when the input runs out. -/
def takeBits (n : Nat) (l : List Bool) : Option (Nat × List Bool) :=
  if (l.take n).length < n then none else some (bitNat (l.take n), l.drop n)

/-- How inflation ends. -/
inductive InfEnd where
  | ok | format | adler | short | limit
  deriving DecidableEq, Repr

/-- The output so far, newest byte first, with its length. -/
structure InfOut where
  rev : Bytes
  len : Nat
  deriving DecidableEq, Repr

/-- An entry of a prefix code: length, code, symbol. -/
abbrev HuffTable := List (Nat × Nat × Nat)

/-- R407: the canonical code of a list of lengths; `single` allows a code of one symbol of length 1. -/
def huffTable (lens : List Nat) (single : Bool) : Option HuffTable :=
  let used := lens.filter (· != 0)
  let kraft := (used.map (fun n => 2 ^ (15 - n))).sum
  if kraft != 2 ^ 15 && !(single && used = [1]) then none
  else
    let step := fun (p : Nat × HuffTable) (n : Nat) =>
      let syms := ((lens.zipIdx).filter (fun z => z.1 = n)).map Prod.snd
      ((p.1 + syms.length) * 2, p.2 ++ (syms.zipIdx).map (fun z => (n, p.1 + z.2, z.1)))
    some ((List.range' 1 15).foldl step (0, [])).2

/-- One symbol; `n` bounds the bits of its code. -/
def decodeSym (t : HuffTable) : Nat → Nat → Nat → List Bool → Except InfEnd (Nat × List Bool)
  | 0, _, _, _ => .error .format
  | _ + 1, _, _, [] => .error .short
  | n + 1, len, code, b :: l =>
    let code := 2 * code + (if b then 1 else 0)
    match t.find? (fun z => z.1 = len + 1 && z.2.1 = code) with
    | some z => .ok (z.2.2, l)
    | none => decodeSym t n (len + 1) code l

def lenBase : List Nat :=
  [3, 4, 5, 6, 7, 8, 9, 10, 11, 13, 15, 17, 19, 23, 27, 31, 35, 43, 51, 59, 67, 83, 99, 115, 131, 163, 195, 227, 258]

def lenExtra : List Nat := [0, 0, 0, 0, 0, 0, 0, 0, 1, 1, 1, 1, 2, 2, 2, 2, 3, 3, 3, 3, 4, 4, 4, 4, 5, 5, 5, 5, 0]

def distBase : List Nat :=
  [1, 2, 3, 4, 5, 7, 9, 13, 17, 25, 33, 49, 65, 97, 129, 193, 257, 385, 513, 769, 1025, 1537, 2049, 3073, 4097, 6145,
   8193, 12289, 16385, 24577]

def distExtra : List Nat :=
  [0, 0, 0, 0, 1, 1, 2, 2, 3, 3, 4, 4, 5, 5, 6, 6, 7, 7, 8, 8, 9, 9, 10, 10, 11, 11, 12, 12, 13, 13]

/-- One more output byte, unless the limit has been reached. -/
def infPut (limit : Nat) (o : InfOut) (b : Byte) : Except (InfEnd × InfOut) InfOut :=
  if limit ≤ o.len then .error (.limit, o) else .ok { rev := b :: o.rev, len := o.len + 1 }

/-- A match of `n` bytes at a distance. -/
def infCopy (limit dist : Nat) : Nat → InfOut → Except (InfEnd × InfOut) InfOut
  | 0, o => .ok o
  | n + 1, o =>
    match infPut limit o (nth o.rev (dist - 1) 0) with
    | .error e => .error e
    | .ok o => infCopy limit dist n o

/-- What a stage of inflation answers: how it ended, with the output and what is left of the input. -/
abbrev InfStage := Except (InfEnd × InfOut × List Bool) (InfOut × List Bool)

/-- The symbols of a block; `fuel` bounds their number. -/
def infSyms (limit : Nat) (lt dt : HuffTable) : Nat → InfOut → List Bool → InfStage
  | 0, o, l => .error (.short, o, l)
  | fuel + 1, o, l =>
    match decodeSym lt 15 0 0 l with
    | .error e => .error (e, o, l)
    | .ok (v, l) =>
      if v < 256 then
        match infPut limit o (BitVec.ofNat 8 v) with
        | .error (e, o) => .error (e, o, l)
        | .ok o => infSyms limit lt dt fuel o l
      else if v = 256 then .ok (o, l)
      else if 286 ≤ v then .error (.format, o, l)
      else
        match takeBits (nth lenExtra (v - 257) 0) l with
        | none => .error (.short, o, [])
        | some (x, l) =>
          match decodeSym dt 15 0 0 l with
          | .error e => .error (e, o, l)
          | .ok (d, l) =>
            if 30 ≤ d then .error (.format, o, l)
            else
              match takeBits (nth distExtra d 0) l with
              | none => .error (.short, o, [])
              | some (y, l) =>
                let dist := nth distBase d 0 + y
                if o.len < dist then .error (.format, o, l)
                else
                  match infCopy limit dist (nth lenBase (v - 257) 0 + x) o with
                  | .error (e, o) => .error (e, o, l)
                  | .ok o => infSyms limit lt dt fuel o l

/-- The bytes of a stored block. -/
def infStored (limit : Nat) : Nat → InfOut → List Bool → InfStage
  | 0, o, l => .ok (o, l)
  | n + 1, o, l =>
    match takeBits 8 l with
    | none => .error (.short, o, [])
    | some (b, l) =>
      match infPut limit o (BitVec.ofNat 8 b) with
      | .error (e, o) => .error (e, o, l)
      | .ok o => infStored limit n o l

/-- The code lengths of a dynamic block; `want` of them. -/
def infLens (ct : HuffTable) (want : Nat) : Nat → List Nat → List Bool → Except (InfEnd × List Bool) (List Nat × List Bool)
  | 0, _, l => .error (.format, l)
  | fuel + 1, acc, l =>
    if acc.length = want then .ok (acc, l)
    else if want < acc.length then .error (.format, l)
    else
      match decodeSym ct 7 0 0 l with
      | .error e => .error (e, l)
      | .ok (v, l) =>
        if v < 16 then infLens ct want fuel (acc ++ [v]) l
        else
          let n := if v = 16 then 2 else if v = 17 then 3 else 7
          match takeBits n l with
          | none => .error (.short, [])
          | some (x, l) =>
            if v = 16 && acc.isEmpty then .error (.format, l)
            else
              let k := if v = 18 then 11 + x else 3 + x
              let b := if v = 16 then (acc.getLast?).getD 0 else 0
              infLens ct want fuel (acc ++ List.replicate k b) l

def fixedLens : List Nat := List.replicate 144 8 ++ List.replicate 112 9 ++ List.replicate 24 7 ++ List.replicate 8 8

def clOrder : List Nat := [16, 17, 18, 0, 8, 7, 9, 6, 10, 5, 11, 4, 12, 3, 13, 2, 14, 1, 15]

/-- The two codes of a dynamic block. -/
def infDynamic (l : List Bool) : Except (InfEnd × List Bool) (HuffTable × HuffTable × List Bool) :=
  match takeBits 14 l with
  | none => .error (.short, [])
  | some (h, l) =>
    let nl := h % 32 + 257
    let nd := h / 32 % 32 + 1
    let nc := h / 1024 + 4
    match takeBits (3 * nc) l with
    | none => .error (.short, [])
    | some (c, l) =>
      let cl := (List.range 19).map (fun s => match clOrder.findIdx? (· = s) with
        | some i => if i < nc then c / 8 ^ i % 8 else 0
        | none => 0)
      match huffTable cl false with
      | none => .error (.format, l)
      | some ct =>
        match infLens ct (nl + nd) (nl + nd + 1) [] l with
        | .error e => .error e
        | .ok (lens, l) =>
          match huffTable (lens.take nl) false, huffTable (lens.drop nl) true with
          | some lt, some dt => .ok (lt, dt, l)
          | _, _ => .error (.format, l)

/-- The blocks to the final one; `fuel` bounds their number, `total` is the number of input bits. -/
def infBlocks (limit total : Nat) : Nat → InfOut → List Bool → InfStage
  | 0, o, l => .error (.short, o, l)
  | fuel + 1, o, l =>
    match takeBits 3 l with
    | none => .error (.short, o, [])
    | some (h, l) =>
      let r : InfStage :=
        if h / 2 = 0 then
          let l := l.drop (l.length % 8)
          match takeBits 32 l with
          | none => .error (.short, o, [])
          | some (n, l) => if n % 65536 + n / 65536 != 65535 then .error (.format, o, l) else infStored limit (n % 65536) o l
        else if h / 2 = 1 then
          match huffTable fixedLens false, huffTable (List.replicate 32 5) false with
          | some lt, some dt => infSyms limit lt dt (l.length + 1) o l
          | _, _ => .error (.format, o, l)
        else if h / 2 = 2 then
          match infDynamic l with
          | .error (e, l) => .error (e, o, l)
          | .ok (lt, dt, l) => infSyms limit lt dt (l.length + 1) o l
        else .error (.format, o, l)
      match r with
      | .error e => .error e
      | .ok (o, l) => if h % 2 = 1 then .ok (o, l) else infBlocks limit total fuel o l

/-- R407, R408: inflation of a whole input: how it ends, the output, the input bytes consumed. -/
def inflate (raw : Bool) (limit declared : Nat) (bs : Bytes) : InfEnd × Bytes × Nat :=
  let cmf := fieldLE bs 0 1
  let flg := fieldLE bs 1 1
  if !raw && bs.length < 2 then (.short, [], bs.length)
  else if !raw && (cmf % 16 != 8 || 7 < cmf / 16 || (256 * cmf + flg) % 31 != 0 || flg / 32 % 2 = 1) then (.format, [], 2)
  else
    let bits := (if raw then bs else bs.drop 2).flatMap byteBits
    let used := fun (l : List Bool) => (8 * bs.length - l.length + 7) / 8
    match infBlocks limit bits.length (bits.length + 1) { rev := [], len := 0 } bits with
    | .error (e, o, l) => (e, o.rev.reverse, used l)
    | .ok (o, l) =>
      let out := o.rev.reverse
      let rest := bs.drop (used l)
      if raw then (if rest.isEmpty then (if o.len < declared then .short else .ok) else .format, out, used l)
      else if rest.length < 4 then (.short, out, bs.length)
      else
        let want := fieldLE (rest.take 4).reverse 0 4
        (if want != adler32 out then .adler
         else if 4 < rest.length then .format
         else if o.len < declared then .short else .ok, out, used l + 4)

/-! ## Deflate (R410) -/

/-- What the parse of a block makes: a literal, or a match of a length at a distance. -/
inductive DefSym where
  | lit (b : Byte)
  | copy (len dist : Nat)
  deriving DecidableEq, Repr

/-- How many bytes agree, at most `n`. -/
def agree : Nat → Bytes → Bytes → Nat
  | 0, _, _ => 0
  | _ + 1, [], _ => 0
  | _ + 1, _, [] => 0
  | n + 1, a :: as, b :: bs => if a = b then agree n as bs + 1 else 0

/-- The hash table with one position entered. -/
def hashPut (all : Bytes) (t : List (Nat × Nat)) (p : Nat) : List (Nat × Nat) :=
  let h := Config.deflateHash ((all.drop p).take 3) % 8192
  (h, p) :: t.filter (fun e => e.1 != h)

/-- R410: the greedy parse of the input from `p` to the block's end; `fuel` bounds the symbols.  The hash function and the
entry it keeps are the implementation's (log entry 10). -/
def defParse (all : Bytes) : Nat → Nat → Nat → List (Nat × Nat) → List DefSym × List (Nat × Nat)
  | 0, _, _, t => ([], t)
  | fuel + 1, p, stop, t =>
    if stop ≤ p then ([], t)
    else
      let here := (all.drop p).take (stop - p)
      if here.length < 3 then
        let (r, t) := defParse all fuel (p + 1) stop t
        (.lit (nth here 0 0) :: r, t)
      else
        let h := Config.deflateHash (here.take 3) % 8192
        let n := match t.find? (fun e => e.1 = h) with
          | some (_, q) => if p - q ≤ 32768 then agree 258 (all.drop q) here else 0
          | none => 0
        let q := ((t.find? (fun e => e.1 = h)).map Prod.snd).getD 0
        if 3 ≤ n then
          let t := (List.range n).foldl (fun t i => hashPut all t (p + i)) t
          let (r, t) := defParse all fuel (p + n) stop t
          (.copy n (p - q) :: r, t)
        else
          let (r, t) := defParse all fuel (p + 1) stop (hashPut all t p)
          (.lit (nth here 0 0) :: r, t)

/-- `n` bits, least significant first. -/
def natBits (n x : Nat) : List Bool := (List.range n).map (fun i => x / 2 ^ i % 2 = 1)

/-- A code of the fixed tables, most significant bit first. -/
def fixedCode (v : Nat) : List Bool :=
  if v < 144 then (natBits 8 (0x30 + v)).reverse
  else if v < 256 then (natBits 9 (0x190 + (v - 144))).reverse
  else if v < 280 then (natBits 7 (v - 256)).reverse
  else (natBits 8 (0xC0 + (v - 280))).reverse

/-- The last entry of a table of bases that does not exceed `x`. -/
def baseIndex (t : List Nat) (x : Nat) : Nat := (t.filter (fun b => b ≤ x)).length - 1

def defSymBits : DefSym → List Bool
  | .lit b => fixedCode b.toNat
  | .copy len dist =>
    let i := baseIndex lenBase len
    let j := baseIndex distBase dist
    fixedCode (257 + i) ++ natBits (nth lenExtra i 0) (len - nth lenBase i 0) ++ (natBits 5 j).reverse ++
      natBits (nth distExtra j 0) (dist - nth distBase j 0)

/-- R410: the blocks from byte `p` on; `bits` is the output so far. -/
def defBlocks (all : Bytes) : Nat → Nat → List (Nat × Nat) → List Bool → List Bool
  | 0, _, _, bits => bits
  | fuel + 1, p, t, bits =>
    let stop := min all.length (p + 65535)
    let last := stop = all.length
    let (syms, t) := defParse all (stop - p + 1) p stop t
    let fixed := natBits 3 ((if last then 1 else 0) + 2) ++ syms.flatMap defSymBits ++ fixedCode 256
    let head := natBits 3 (if last then 1 else 0)
    let pad := List.replicate ((8 - (bits.length + 3) % 8) % 8) false
    let n := stop - p
    let stored := head ++ pad ++ natBits 16 n ++ natBits 16 (65535 - n) ++ (((all.drop p).take n).flatMap byteBits)
    let bits := bits ++ (if fixed.length ≤ stored.length then fixed else stored)
    if last then bits else defBlocks all fuel stop t bits

/-- Whole bytes of a list of bits, the last filled up with 0; `n` bounds their number. -/
def packBits : Nat → List Bool → Bytes
  | 0, _ => []
  | n + 1, l => if l.isEmpty then [] else BitVec.ofNat 8 (bitNat (l.take 8)) :: packBits n (l.drop 8)

/-- R410. -/
def deflate (raw : Bool) (bs : Bytes) : Bytes :=
  let bits := defBlocks bs (bs.length / 65535 + 2) 0 [] []
  let body := packBits (bits.length / 8 + 1) bits
  if raw then body else [0x78, 0x5E] ++ body ++ (leBytes 4 (adler32 bs)).reverse

/-- R410: the bound of the output. -/
def deflateBound (raw : Bool) (n : Nat) : Nat := n + 5 * max 1 ((n + 65534) / 65535) + (if raw then 0 else 6)

/-! ## Check values (R413) -/

/-- Continues a reflected CRC from a final value. -/
def crcFrom {w : Nat} (p start : BitVec w) (bs : Bytes) : BitVec w := ~~~(bs.foldl (crcByte p) (~~~start))

/-- Continues Adler-32. -/
def adlerFrom (start : Nat) (bs : Bytes) : Nat :=
  let (a, b) := bs.foldl (fun (p : Nat × Nat) x =>
    let a := (p.1 + x.toNat) % 65521
    (a, (p.2 + a) % 65521)) (start % 65536, start / 65536 % 65536)
  b * 65536 + a

/-- R413: the function over bytes, from a previous result or from the start. -/
def checkValue (func : Nat) (seed : Option Nat) (bs : Bytes) : Nat :=
  if func = 0 then (crcFrom (0x82F63B78 : BitVec 32) (BitVec.ofNat 32 (seed.getD 0)) bs).toNat
  else if func = 1 then (crcFrom (0xEDB88320 : BitVec 32) (BitVec.ofNat 32 (seed.getD 0)) bs).toNat
  else if func = 2 then (crcFrom (0xC96C5795D7870F42 : BitVec 64) (BitVec.ofNat 64 (seed.getD 0)) bs).toNat
  else adlerFrom (seed.getD 1) bs

end Sys2Proof.Machine
end

