-- ==== Sys2Proof/Machine/CryOps.lean ====
section
/-! DEFINITION. The crypto engine's keys and the decryption of a segment (R71 to R73, R416 to R421), and the inflater with
its counts: shared by the DMA channels and the segment keeper. -/

namespace Sys2Proof.Machine

/-! ## Completion statuses (R403) -/

namespace DmaSt

def OK : Nat := 0x00
def DIFFER : Nat := 0x01
def BUS : Nat := 0x10
def XLT : Nat := 0x11
def UNCORR : Nat := 0x12
def FORMAT : Nat := 0x13
def STOPPED : Nat := 0x14
def AUTH : Nat := 0x20
def UNWRAP : Nat := 0x21
def REPLAY : Nat := 0x22
def KEYGEN : Nat := 0x23
def NOKEY : Nat := 0x24
def INF_FORMAT : Nat := 0x30
def INF_ADLER : Nat := 0x31
def INF_SHORT : Nat := 0x32
def INF_LIMIT : Nat := 0x33

end DmaSt

namespace State

/-- R72: bytes 0 to 7 of NONCE of a segment header. -/
def nonceOf (h : Bytes) : Nat := fieldLE h 32 8

def nonceLast (s : State) (x : Nat) : Nat := (s.reg (Reg.CRY_NONCE_LO x)).toNat + 2 ^ 32 * (s.reg (Reg.CRY_NONCE_HI x)).toNat

/-- A failure of the engine: its event, its count and its message. -/
def cryFail (s : State) (x status : Nat) : State :=
  if status = DmaSt.AUTH then ((s.count Reg.CRY_AUTHFAILS 1).event Reg.CRY_EVENT 0).raiseFor Src.CRY_AUTH x
  else if status = DmaSt.UNWRAP then (s.event Reg.CRY_EVENT 1).raiseFor Src.CRY_UNWRAP x
  else if status = DmaSt.REPLAY then (s.event Reg.CRY_EVENT 2).raiseFor Src.CRY_REPLAY x
  else if status = DmaSt.KEYGEN then (s.event Reg.CRY_EVENT 3).raiseFor Src.CRY_KEYGEN x
  else s

/-- R419 steps 1 and 2: the key that decrypts a segment of context `x` with header `h`, and whether it is a new one; or the
status with which the descriptor ends. -/
def decryptKey (s : State) (x count : Nat) (h : Bytes) : State × Except Nat (BitVec 256 × Bool) :=
  let k := (s.ctx x).keyslot
  let newKey := fieldLE h 6 2 / 2 % 2 = 1
  let gen := fieldLE h 28 4
  let have_ := s.slotGen k
  if count != fieldLE h 16 4 then (s, .error DmaSt.FORMAT)
  else if 16 ≤ k then (s, .error DmaSt.NOKEY)
  else if (newKey && gen ≤ have_) || (!newKey && (gen != have_ || have_ = 0)) then (s.cryFail x DmaSt.KEYGEN, .error DmaSt.KEYGEN)
  else if !newKey && nth s.mv.nonceGen x 0 = have_ && nonceOf h ≤ s.nonceLast x then
    (s.cryFail x DmaSt.REPLAY, .error DmaSt.REPLAY)
  else if newKey then
    match (nth s.mv.keks (fieldLE h 64 1) none).bind (fun kek => unwrapKey kek (slicePad h 68 40)) with
    | none => (s.cryFail x DmaSt.UNWRAP, .error DmaSt.UNWRAP)
    | some key => ({ s with mv := { s.mv with pend := upd s.mv.pend k (fun _ => some key) } }, .ok (key, true))
  else (s, .ok (nth s.mv.slots k 0, false))

/-- R421: the pending key is discarded. -/
def dropPending (s : State) (x : Nat) : State :=
  { s with mv := { s.mv with pend := upd s.mv.pend (s.ctx x).keyslot (fun _ => none) } }

/-- R420: a tag that matches: a new key and its generation come into force, and the counter is recorded under the slot's
generation. -/
def decryptDone (s : State) (x : Nat) (h : Bytes) (key : BitVec 256) (newKey : Bool) : State :=
  let k := (s.ctx x).keyslot
  let s := if newKey then
      { (s.setReg (Reg.CRY_GEN k) (BitVec.ofNat 32 (fieldLE h 28 4))) with
        mv := { s.mv with slots := upd s.mv.slots k (fun _ => key), pend := upd s.mv.pend k (fun _ => none) } }
    else s
  let n := nonceOf h
  let s := (s.setReg (Reg.CRY_NONCE_LO x) (BitVec.ofNat 32 n)).setReg (Reg.CRY_NONCE_HI x) (BitVec.ofNat 32 (n >>> 32))
  { s with mv := { s.mv with nonceGen := upd s.mv.nonceGen x (fun _ => s.slotGen k) } }

/-- R419 step 3: plaintext and tag: the additional data are the header with TAG taken as 0. -/
def segmentOpen (h : Bytes) (key : BitVec 256) (ct : Bytes) : Bytes × Bytes :=
  gcmOpen key (slicePad h 32 12) (slicePad h 0 48 ++ List.replicate 16 0 ++ slicePad h 64 48) ct

/-- R419 to R421: the whole decryption. -/
def decryptSegment (s : State) (x : Nat) (h ct : Bytes) : State × Except Nat Bytes :=
  match s.decryptKey x ct.length h with
  | (s, .error e) => (s, .error e)
  | (s, .ok (key, newKey)) =>
    let r := segmentOpen h key ct
    if r.2 = slicePad h 48 16 then (s.decryptDone x h key newKey, .ok r.1)
    else ((s.dropPending x).cryFail x DmaSt.AUTH, .error DmaSt.AUTH)

/-- The status of an inflation. -/
def infStatus (e : InfEnd) : Nat :=
  match e with
  | .ok => DmaSt.OK
  | .format => DmaSt.INF_FORMAT
  | .adler => DmaSt.INF_ADLER
  | .short => DmaSt.INF_SHORT
  | .limit => DmaSt.INF_LIMIT

/-- The inflater's counts and events after a run. -/
def inflated (s : State) (r : InfEnd × Bytes × Nat) : State :=
  let s := (s.count Reg.DFL_INF_IN r.2.2).count Reg.DFL_INF_OUT r.2.1.length
  match r.1 with
  | .ok => s
  | .limit => s.event Reg.DFL_EVENT 1
  | _ => s.event Reg.DFL_EVENT 0

/-- R403: the code of R75 for a status. -/
def keeperCode (status : Nat) : Nat :=
  if status = DmaSt.AUTH || status = DmaSt.UNWRAP || status = DmaSt.NOKEY then 0x13
  else if status = DmaSt.REPLAY then 0x11
  else if status = DmaSt.KEYGEN then 0x12
  else if status = DmaSt.INF_LIMIT then 0x15
  else if status = DmaSt.FORMAT then 0x10
  else 0x14

/-- R417: the supervisor clears a slot. -/
def clearKey (s : State) (k : Nat) : State :=
  ({ (s.setReg (Reg.CRY_GEN k) 0) with mv := { s.mv with slots := upd s.mv.slots k (fun _ => 0) } }).event Reg.CRY_EVENT 4

end State

end Sys2Proof.Machine
end

