-- ==== Sys2Proof/Machine/Tables.lean ====
section
/-! DEFINITION. The layouts and the validity of dose banks, waveforms, curves and masks (R46 to R57), as the configuration
loader and the load directives judge them, and which tables are in use (R49, R52). -/

namespace Sys2Proof.Machine

/-! ## Banks (R46, R47) -/

/-- The 15 entries from byte 4 on: those up to HIGHEST have a waveform and a NOMINAL, the others are 0. -/
def bankEntries (bs : Bytes) : List (Nat × Nat) := (List.range 15).map (fun k => (fieldLE bs (4 * k + 4) 1, fieldLE bs (4 * k + 5) 2))

/-- R46: GROUP, BANK and the bank, when every field is in range and every reserved field 0. -/
def parseBank (bs : Bytes) : Option (Nat × Nat × DoseBank) :=
  let h := fieldLE bs 0 1
  let es := bankEntries bs
  if h = 0 || 15 < h || 7 < fieldLE bs 1 1 || 3 < fieldLE bs 2 1 || fieldLE bs 3 1 != 0 ||
      (List.range 15).any (fun k => fieldLE bs (4 * k + 7) 1 != 0) || (es.take h).any (fun e => e.1 = 0 || e.2 = 0) ||
      (es.drop h).any (fun e => e.1 != 0 || e.2 != 0) then none
  else some (fieldLE bs 1 1, fieldLE bs 2 1, { highest := h, entries := es })

/-- R47: NOMINAL never falls, and every class up to HIGHEST names a waveform of the group's kind. -/
def bankValid (waves : List Waveform) (kind : Nat) (b : DoseBank) : Bool :=
  let es := b.entries.take b.highest
  (List.range (b.highest - 1)).all (fun k => decide ((nth es k (0, 0)).2 ≤ (nth es (k + 1) (0, 0)).2)) &&
    es.all (fun e => waves.any (fun w => w.id = e.1 && w.kind = kind))

/-- Whether a bank names a waveform; an empty bank names none (R51). -/
def DoseBank.names (b : DoseBank) (id : Nat) : Bool := (b.entries.take b.highest).any (fun e => e.1 = id)

/-! ## Waveforms (R50, R51) -/

def WavePulse.stop (p : WavePulse) : Nat := p.start + p.rise + p.hold + p.fall

/-- R50: a waveform whose fields are in range and whose reserved fields are 0. -/
def parseWave (bs : Bytes) : Option Waveform :=
  let n := fieldLE bs 2 1
  let slot := fun (j : Nat) =>
    ({ start := fieldLE bs (8 + 8 * j) 2, rise := fieldLE bs (10 + 8 * j) 1, fall := fieldLE bs (11 + 8 * j) 1,
       hold := fieldLE bs (12 + 8 * j) 2, level := fieldLEs bs (14 + 8 * j) 2 } : WavePulse)
  let k := fieldLE bs 1 1
  let used := (List.range n).map slot
  if fieldLE bs 0 1 = 0 || k = 0 || 2 < k || n = 0 || 7 < n || fieldLE bs 3 1 != 0 || fieldLE bs 4 2 = 0 || fieldLE bs 6 2 != 0 ||
      used.any (fun p => p.hold = 0) || ((bs.drop (8 + 8 * n)).take (56 - 8 * n)).any (· != 0) then none
  else some { id := fieldLE bs 0 1, kind := k, pulses := n, wend := fieldLE bs 4 2, slots := used }

/-- R50: the 64 bytes of a waveform. -/
def waveBytes (w : Waveform) : Bytes :=
  slicePad (leBytes 1 w.id ++ leBytes 1 w.kind ++ leBytes 1 w.pulses ++ [0] ++ leBytes 2 w.wend ++ [0, 0] ++
    w.slots.flatMap (fun p => leBytes 2 p.start ++ leBytes 1 p.rise ++ leBytes 1 p.fall ++ leBytes 2 p.hold ++
      leBytes 2 (uNat 16 p.level))) 0 64

/-- R51: whether the waveform is valid for a grid, the groups and their banks. -/
def waveValid (minInterval : Nat) (groups : List RowGroup) (banks : List DoseBank) (w : Waveform) : Bool :=
  (List.range (w.pulses - 1)).all (fun j => decide (WavePulse.stop (nth w.slots j ⟨0, 0, 0, 0, 0⟩) ≤ (nth w.slots (j + 1) ⟨0, 0, 0, 0, 0⟩).start)) &&
    decide (w.wend = WavePulse.stop (nth w.slots (w.pulses - 1) ⟨0, 0, 0, 0, 0⟩)) && decide (w.wend * 10 + 1600 ≤ minInterval * 5) &&
    (List.range 32).all (fun k => !DoseBank.names (nth banks k DoseBank.empty) w.id ||
      let g := nth groups (k / 4) RowGroup.reset
      w.slots.all (fun p => decide (g.levelMin ≤ p.level) && decide (p.level ≤ g.levelMax)))

/-! ## Curves and masks (R53 to R55, R57) -/

/-- R53, R54: a curve of 136 bytes. -/
def parseCurve (bs : Bytes) : Option DoseCurve :=
  let k := fieldLE bs 1 1
  let knots := (List.range 65).map (fun i => fieldLE bs (4 + 2 * i) 2)
  if fieldLE bs 0 1 = 0 || k = 0 || 2 < k || fieldLE bs 2 2 != 0 || fieldLE bs 134 2 != 0 || fieldLE bs 4 2 != 0 then none
  else some { id := fieldLE bs 0 1, kind := k, knots := knots }

/-- R55: the 256 entries of a mask of 128 bytes; none when a reserved bit is set. -/
def parseMask (bs : Bytes) : Option (List Nat) :=
  let es := (List.range 256).map (fun i => let b := fieldLE bs (i / 2) 1
    if i % 2 = 0 then b % 16 else b / 16)
  if es.any (fun e => 8 ≤ e) then none else some es

/-- R57: every entry is below PASS_COUNT. -/
def maskFits (m : List Nat) (passCount : Nat) : Bool := m.all (fun e => decide (e < passCount))

/-- Waveforms by rising ID. -/
def putWave (l : List Waveform) (w : Waveform) : List Waveform :=
  (l.filter (fun v => v.id < w.id)) ++ w :: (l.filter (fun v => w.id < v.id))

def putCurve (l : List DoseCurve) (c : DoseCurve) : List DoseCurve :=
  (l.filter (fun v => v.id < c.id)) ++ c :: (l.filter (fun v => c.id < v.id))

namespace State

/-! ## Tables in use (R49, R52, R105) -/

/-- The changes whose activation points have not been reached. -/
def waiting (s : State) : List ModeChange := s.dose.changes.filter (fun m => !s.reached (ModeChange.ap m))

/-- The transmitted lines that have not fired everywhere, as places. -/
def unfiredPlaces (s : State) : List At :=
  (s.crn.window.filter (fun l => l.ridges.any (fun k => k.st < 5))).map (fun l =>
    { layer := l.layer, swath := l.swath, dir := ((s.planOf l.layer l.swath).map SwathPlan.dir).getD 0, line := l.line })

/-- R49: a bank selected at U (R176), for a line not yet fired, or named by an activation point not yet reached; never an empty one. -/
def bankInUse (s : State) (g b : Nat) : Bool :=
  let pick := fun (m : ModeSetting) => match m with
    | .bankSel h k => if h = g then some k else none
    | _ => none
  (s.bank g b).highest != 0 &&
    (s.bankAt g s.atU = b || s.waiting.any (fun m => pick m.setting = some b) ||
      s.unfiredPlaces.any (fun a => s.bankAt g a = b))

/-- R52. -/
def waveInUse (s : State) (id : Nat) : Bool :=
  (List.range 32).any (fun k => DoseBank.names (nth s.dose.banks k DoseBank.empty) id && s.bankInUse (k / 4) (k % 4))

/-- The mask and PASS_COUNT selections of a group now, at activation points still to come, and at lines not yet fired. -/
def maskUses (s : State) (g : Nat) : List (Nat × Nat) :=
  let pick := fun (m : ModeSetting) => match m with
    | .maskSel h k n => if h = g then some (k, n) else none
    | _ => none
  s.maskAt g s.atU :: s.waiting.filterMap (fun m => pick m.setting) ++ s.unfiredPlaces.map (s.maskAt g)

def maskInUse (s : State) (id : Nat) : Bool := (List.range 8).any (fun g => (s.maskUses g).any (fun z => z.1 = id))

/-- R57, R105: the mask would leave a selection of its ID with an entry that is not below PASS_COUNT. -/
def maskMisfits (s : State) (id : Nat) (m : List Nat) : Bool :=
  (List.range 8).any (fun g => (s.maskUses g).any (fun z => z.1 = id && !maskFits m z.2))

/-- The curve and material of every binding at a place. -/
def bindingsAt (s : State) (a : At) : List (Nat × Nat) :=
  (List.range 64).flatMap (fun x => (s.stream x).bindings.filterMap (fun b => s.bindingAt x b.id a))

/-- The curve and material of every binding at U and at the activation points still to come. -/
def bindingsNow (s : State) : List (Nat × Nat) :=
  s.bindingsAt s.atU ++ s.waiting.filterMap (fun m => match m.setting with
    | .binding _ _ cv mt => some (cv, mt)
    | _ => none)

/-- The bindings in use: those now and to come, and those at lines not yet fired. -/
def bindingUses (s : State) : List (Nat × Nat) := s.bindingsNow ++ s.unfiredPlaces.flatMap s.bindingsAt

def curveInUse (s : State) (id : Nat) : Bool := s.bindingUses.any (fun z => z.1 = id)

/-- The row group that a material names (R36). -/
def materialGroup (s : State) (material : Nat) : Option Nat :=
  (List.range 8).find? (fun g => (s.rowGroup g).material = material && (s.rowGroup g).kind != 0)

/-- R54: the curve's KIND differs from that of a group it is bound to. -/
def curveMisfits (s : State) (c : DoseCurve) : Bool :=
  s.bindingUses.any (fun z => z.1 = c.id && (s.materialGroup z.2).any (fun g => (s.rowGroup g).kind != c.kind))

end State

end Sys2Proof.Machine
end

