-- ==== Sys2Proof/Machine/Joken.lean ====
section
/-! DEFINITION. The Joken streams (R61 to R109): the segment keeper's work on a stored segment, the records in stream
order, the directives with the rules that stall or refuse them, cairns and resume. -/

namespace Sys2Proof.Machine

/-! ## Directive types and codes (R77, R106) -/

namespace Dir

def HOME : Nat := 0x40
def LAYER_BEGIN : Nat := 0x41
def SWATH : Nat := 0x42
def LAYER_END : Nat := 0x43
def PARK : Nat := 0x44
def WAIT : Nat := 0x45
def BANK_LOAD : Nat := 0x48
def WAVE_LOAD : Nat := 0x49
def MASK_LOAD : Nat := 0x4A
def CURVE_LOAD : Nat := 0x4B
def MODE : Nat := 0x4C
def REGION : Nat := 0x4D

end Dir

namespace Stat

def STATE : Nat := 0x20
def NOT_CONTROL : Nat := 0x21
def NOT_LEAD : Nat := 0x22
def INVALID : Nat := 0x23
def IN_USE : Nat := 0x24
def KIND : Nat := 0x25
def NO_MATERIAL : Nat := 0x26
def EMPTY_GROUP : Nat := 0x27
def WAIT_TIMEOUT : Nat := 0x28
def ABSENT : Nat := 0x29
def SEQ_ERR : Nat := 0x2A
def RESUME_BAD : Nat := 0x2B
def CLOSED : Nat := 0x2C
def ENDED : Nat := 0x2D

end Stat

/-- OFFSET or SEGNO that names nothing. -/
def noOffset : Nat := 0xFFFFFFFF

/-- R77 to R90: what a parser found, as the records that execute: geometry records that follow one another become one
post of their directory entries. -/
def execRecs (layer dirVa segno : Nat) : List (Nat × Parsed) → Nat → List PendRec
  | [], _ => []
  | (off, .item r) :: l, i => { segno := segno, off := off, body := r } :: execRecs layer dirVa segno l i
  | (off, .geo _ _) :: l, i =>
    match execRecs layer dirVa segno l (i + 1) with
    | { segno := n, off := o, body := .post y va k } :: rest =>
      if va = dirVa + 32 * (i + 1) then { segno := n, off := off, body := .post y (dirVa + 32 * i) (k + 1) } :: rest
      else { segno := segno, off := off, body := .post layer (dirVa + 32 * i) 1 } ::
        { segno := n, off := o, body := .post y va k } :: rest
    | rest => { segno := segno, off := off, body := .post layer (dirVa + 32 * i) 1 } :: rest

/-- R142: the directory of a body. -/
def directory (bodyVa : Nat) (l : List (Nat × Parsed)) : Bytes :=
  l.flatMap (fun z => match z.2 with
    | .geo typ g => dirEntry z.1 typ g bodyVa
    | .item _ => [])

/-- R74 step 1, R70, R71: the header of a stored segment, for a context whose KEYSLOT says whether it is encrypted.  That an
uncompressed segment whose PLAIN_LEN is not STORED_LEN fails here, and not at step 5, is a DESIGN CHOICE (log entry 158). -/
def headerOk (h : Bytes) (x : Nat) (clear : Bool) (passed : List Nat) : Bool :=
  let flags := fieldLE h 6 2
  let layer := fieldLE h 12 4
  let stored := fieldLE h 16 4
  let plain := fieldLE h 20 4
  let keygen := fieldLE h 28 4
  let newKey := flags / 2 % 2 = 1
  fieldLE h 0 4 = 0x314E4B4A && fieldLE h 4 1 = 1 && fieldLE h 5 1 = x && flags < 16 && layer < 2 ^ 24 && 8 ≤ stored &&
    stored ≤ 16777216 && 8 ≤ plain && plain ≤ 67108864 && plain % 8 = 0 && fieldLE h 44 4 = 0 && fieldLE h 64 1 ≤ 3 &&
    fieldLE h 65 3 = 0 && fieldLE h 108 4 = 0 && (newKey || (fieldLE h 64 1 = 0 && (slicePad h 68 40).all (· = 0))) &&
    (clear = (flags / 8 % 2 = 1)) && (flags % 2 = 1 || plain = stored) &&
    (if clear then !newKey && keygen = 0 && (slicePad h 32 12).all (· = 0) && (slicePad h 48 16).all (· = 0) else keygen != 0) &&
    passed.all (fun l => decide (l ≤ layer))

namespace State

/-! ## Buffers (R444, R445) -/

def bufBase (s : State) (x : Nat) : Nat := (s.reg (Reg.JOB_BUFBASE_LO x)).toNat + 2 ^ 32 * s.rfld (Reg.JOB_BUFBASE_HI x) 0 8

def bufBody (s : State) (x b : Nat) : Nat := s.bufBase x + b * 0x1000000

def credits (s : State) (x : Nat) : Nat := ((s.stream x).desc.map StreamDesc.credits).getD 0

def bufHead (s : State) (x b : Nat) : Nat := s.bufBase x + s.credits x * 0x1000000 + 128 * b

/-- JOB_BUFFULL[x] follows the stored segments. -/
def showFull (s : State) (x : Nat) : State :=
  let m : BitVec 64 := maskOf 64 ((s.stream x).full.map Prod.fst)
  (s.setReg (Reg.JOB_BUFFULL_LO x) (BitVec.ofNat 32 m.toNat)).setReg (Reg.JOB_BUFFULL_HI x) (BitVec.ofNat 32 (m.toNat >>> 32))

/-- R445: a buffer is freed. -/
def freeBuf (s : State) (x b : Nat) : State :=
  ((s.updStream x (fun st => { st with full := st.full.filter (fun z => z.1 != b) })).showFull x).raiseLimit x

/-! ## Records in stream order -/

/-- R69: every record of the LAST segment has executed. -/
def streamEnds (s : State) (x : Nat) : State :=
  let st := s.stream x
  match st.lastSeg with
  | some n =>
    if st.recs.isEmpty && st.opened && !st.halted then
      (s.updStream x (fun st => { st with opened := false, ended := true })).sendStatus x Stat.ENDED n noOffset
    else s
  | none => s

/-- Records that need no judgement execute as they come to the head: NOP, and geometry made renderable (R77, R143).  A full
post table holds the stream and its LIMIT until the keeper tries again (`keepersGoOn`). -/
def advance : Nat → State → Nat → State
  | 0, s, _ => s
  | fuel + 1, s, x =>
    let st := s.stream x
    let pop := fun (s : State) => s.updStream x (fun st => { st with recs := st.recs.drop 1 })
    match st.recs with
    | [] => s.streamEnds x
    | r :: _ =>
      if st.halted || st.postHeld then s
      else
        match r.body with
        | .nop => advance fuel (pop s) x
        | .post layer va count =>
          match s.addPost { ctx := x, geomEnd := false, layer := layer, dirVa := va, count := count, segno := r.segno,
                            afterCairn := st.cairnNow } with
          | (s, true) => advance fuel (pop s) x
          | (s, false) => s.updStream x (fun st => { st with postHeld := true })
        | _ => s

def goOn (s : State) (x : Nat) : State := advance ((s.stream x).recs.length + 1) s x

/-- R143: after a SCRUB_DONE or DMA_DONE event the keepers that a full post table holds write their posts again. -/
def keepersGoOn (s : State) : State :=
  (List.range 64).foldl (fun s x =>
    if (s.stream x).postHeld then ((s.updStream x (fun st => { st with postHeld := false })).goOn x).raiseLimit x else s) s

/-- The record at the head of a stream that runs. -/
def headRec (s : State) (x : Nat) : Option PendRec :=
  let st := s.stream x
  if st.halted || st.postHeld then none else st.recs.head?

/-- The head record has executed. -/
def popRec (s : State) (x : Nat) : State :=
  (s.updStream x (fun st =>
    { st with recs := st.recs.drop 1, stalled := false, waitStart := none })).goOn x

/-- R95, R445: the keeper halts the stream. -/
def haltStream (s : State) (x : Nat) : State :=
  ((s.updStream x (fun st => { st with halted := true, stalled := false, waitStart := none })).event Reg.JOB_EVENT 4).raiseFor
    Src.JOB_STREAM_HALT x

/-- R95: a record is refused. -/
def refuse (s : State) (x : Nat) (r : PendRec) (code : Nat) : State :=
  (s.sendStatus x code r.segno r.off).haltStream x

/-! ## From a stored segment to its records (R74 to R76) -/

/-- R75: the segment is rejected: STATUS, and the same SEGNO again, or a halt after the last retry.  The segments stored
behind it go with it (log entry 23). -/
def rejectSegment (s : State) (x segno code : Nat) : State :=
  let st := s.stream x
  let tries := if st.triesAt = segno then st.tries else 0
  let max_ := (st.desc.map StreamDesc.retries).getD 0
  let s := s.updStream x (fun st => { st with full := [], arriving := none, triesAt := segno, tries := tries + 1 })
  let s := (s.showFull x).setReg (Reg.JOB_NEXT x) (BitVec.ofNat 32 segno)
  -- R66: a LIMIT held back stays where it is
  let s := if st.desc.any (limitHeld st) then s else s.setReg (Reg.JOB_LIMIT x) (BitVec.ofNat 32 (segno + s.credits x - 1))
  let s := (s.sendStatus x code segno noOffset).obsCount 4
  if tries < max_ then s.sendSegReq x true
  else (s.updStream x (fun st => { st with rejected := true })).haltStream x

/-- R74 steps 2 to 5: the record body, or the code of R75. -/
def openSegment (s : State) (x : Nat) (h body : Bytes) (d : StreamDesc) : State × Except Nat Bytes :=
  let flags := fieldLE h 6 2
  let plain := fieldLE h 20 4
  let check := fun (s : State) (bs : Bytes) =>
    if bs.length != plain || (crc32c bs).toNat != fieldLE h 24 4 then (s, Except.error 0x16) else (s, Except.ok bs)
  let inflateIt := fun (s : State) (bs : Bytes) =>
    if flags % 2 = 0 then check s bs
    else
      let r := inflate false (min (min plain 67108864) (d.maxRatio * fieldLE h 16 4)) plain bs
      let s := s.inflated r
      if r.1 = .ok then check s r.2.1 else (s, Except.error (keeperCode (infStatus r.1)))
  if flags / 8 % 2 = 1 then inflateIt s body
  else
    match s.decryptSegment x h body with
    | (s, .error e) => (s, .error (keeperCode e))
    | (s, .ok bs) => inflateIt s bs

/-- R363: a 4 KiB leaf that permits reads alone, to the sequencer and the engines. -/
def readOnlyLeaf (pa : Nat) : Nat := 4096 * (pa / 4096 % 2 ^ 28) + 7

/-- R363: a pointer to a table. -/
def tableEntry (pa : Nat) : Nat := 4096 * (pa / 4096 % 2 ^ 28) + 1

/-- R74 step 7: `n` bytes from `pa` on are mapped read-only, page by page. -/
def mapReadOnly (s : State) (leaves : List Nat) (pa n : Nat) : State :=
  ((leaves.zipIdx).take ((pa % 4096 + n + 4095) / 4096)).foldl (fun s z => s.wrLE z.1 8 (readOnlyLeaf (pa + 4096 * z.2))) s

/-- R74, R69: the keeper takes the oldest stored segment of a stream; `p` says where it puts the body. -/
def acceptSegment (s : State) (x : Nat) (p : Placement) : State :=
  let st := s.stream x
  match st.full, st.desc with
  | (b, segno) :: _, some d =>
    if st.halted then s
    else if st.lastSeg.isSome then s.freeBuf x b
    else
      let h := s.rd (s.bufHead x b) 112
      let layer := fieldLE h 12 4
      if !headerOk h x (decide ((s.ctx x).keyslot = 255)) st.passedEnd then s.rejectSegment x segno 0x10
      else
        match s.openSegment x h (s.rd (s.bufBody x b) (fieldLE h 16 4)) d with
        | (s, .error code) => s.rejectSegment x segno code
        | (s, .ok body) =>
          match parseBody layer (body.length / 8 + 1) { bound := st.boundIds, cairn := st.lastCairn, closed := st.parsedEnd } 0 body with
          | none => s.rejectSegment x segno 0x17
          | some (recs, ps) =>
            let dir := directory p.bodyVa recs
            let s := p.tables.foldl (fun s e => s.wrLE e.1 8 (tableEntry e.2)) ((s.wr p.bodyPa body).wr p.dirPa dir)
            let s := (s.mapReadOnly p.bodyLeaves p.bodyPa body.length).mapReadOnly p.dirLeaves p.dirPa dir.length
            let s := s.updStream x (fun st =>
              { st with boundIds := ps.bound, lastCairn := ps.cairn, parsedEnd := ps.closed, tries := 0,
                        bodies := st.bodies ++ [{ layer := layer, segno := segno, bytes := body.length }],
                        recs := st.recs ++ execRecs layer p.dirVa segno recs 0,
                        lastSeg := if fieldLE h 6 2 / 4 % 2 = 1 then some segno else none })
            (((s.obsCount 3).freeBuf x b)).goOn x
  | _, _ => s

/-! ## Bindings, layer ends, cairns (R85 to R92) -/

/-- The place of a build position: a swath not planned counts as DIR 0 (log entry 24). -/
def placeOf (s : State) (p : BuildPos) : At :=
  { layer := p.layer, swath := p.swath, dir := ((s.planOf p.layer p.swath).map SwathPlan.dir).getD 0, line := p.line }

/-- R87: whether a binding's material has a group with rows, and its curve is loaded and of that group's kind. -/
def bindingOk (s : State) (curve material : Nat) (a : At) : Bool :=
  match s.materialGroup material with
  | none => false
  | some g =>
    s.dose.curves.any (fun c => c.id = curve && c.kind = (s.rowGroup g).kind) && !(rowsOf (s.rowmapAt a) g).isEmpty

/-- R85 to R87: a BINDING record executes or is refused. -/
def runBinding (s : State) (x : Nat) (r : PendRec) (id curve material : Nat) (ap : BuildPos) : State :=
  let st := s.stream x
  let first := !st.fresh.contains id
  if !s.bindingOk curve material (if first then s.atU else s.placeOf ap) then s.refuse x r Stat.NO_MATERIAL
  else if first then
    (s.updStream x (fun st =>
      { st with fresh := id :: st.fresh, execIds := id :: st.execIds.filter (· != id),
                bindings := { id := id, curve := curve, material := material, afterCairn := st.cairnNow, order := s.dose.nextOrder } ::
                  st.bindings })).popRec x
  else (s.applySetting x st.cairnNow (.binding x id curve material) ap).popRec x

/-- R89: a GEOM_END executes; the post table records it (R143). -/
def runGeomEnd (s : State) (x : Nat) (r : PendRec) (layer : Nat) : State :=
  match s.addPost { ctx := x, geomEnd := true, layer := layer, dirVa := 0, count := 0, segno := r.segno,
                    afterCairn := (s.stream x).cairnNow } with
  | (s, false) => s.updStream x (fun st => { st with postHeld := true })
  | (s, true) => (s.updStream x (fun st => { st with passedEnd := layer :: st.passedEnd })).popRec x

/-- R90: a CAIRN executes and waits for its acknowledgement. -/
def runCairn (s : State) (x : Nat) (r : PendRec) (id : Nat) (resumePoint : Bool) : State :=
  let st := s.stream x
  let w : CairnWait :=
    { id := id, resumePoint := resumePoint, segno := r.segno, layers := st.passedEnd, ids := st.execIds, uptoOrd := s.crn.nextOrd,
      layer := s.mot.lastLayer.getD 0, nextSwath := s.mot.nextSwath }
  (s.updStream x (fun st => { st with cairnNow := id, cairns := st.cairns ++ [w] })).popRec x

/-- R91: every line before a cairn has been fired or logged. -/
def cairnDone (s : State) (w : CairnWait) : Bool :=
  let lineOver := fun (l : CLine) => l.dropped || l.ridges.all (fun k => decide (5 ≤ k.st))
  let swaths := s.planned.any (fun p => p.firstOrd < w.uptoOrd && decide (s.firstUntx < min w.uptoOrd (p.firstOrd + planLen p.plan)))
  !swaths && !s.crn.window.any (fun l => l.ord < w.uptoOrd && !lineOver l) &&
    w.layers.all (fun y => !s.planned.any (fun p => p.plan.layer = y && s.firstUntx < p.firstOrd + planLen p.plan) &&
      !s.crn.window.any (fun l => l.layer = y && !lineOver l) && s.mot.lastLayer.any (fun l => decide (y ≤ l)) &&
      (s.mot.layer != some y || s.mot.bstate != Build.LAYER)) &&
    s.crn.groups.isEmpty

/-- R92: the build resume record. -/
def resumeRecord (x : Nat) (w : CairnWait) (layer nextSwath screeSeq : Nat) : Bytes :=
  let b : Bytes := leBytes 1 0xA5 ++ leBytes 1 x ++ [0, 0] ++ leBytes 4 w.id ++ leBytes 4 layer ++ leBytes 2 nextSwath ++ [0, 0] ++
    leBytes 4 (w.segno + 1) ++ leBytes 4 screeSeq ++ [0, 0, 0, 0]
  b ++ leBytes 4 (crc32c b).toNat

/-- R91, R92: the oldest waiting cairn of a stream is acknowledged.  While no swath has completed yet, LAYER is 0 and SWATH
0xFFFF (DESIGN CHOICE, log entry 157). -/
def ackCairn (s : State) (x : Nat) : State :=
  match (s.stream x).cairns with
  | [] => s
  | w :: rest =>
    if !s.cairnDone w then s
    else
      let s := s.flushRuns (fun _ => true)
      let seq := if s.scree.written then (s.scree.nextSeq + 2 ^ 32 - 1) % 2 ^ 32 else 0xFFFFFFFF
      let (layer, swath) := match s.crn.lastPlan with
        | some p => (p.layer, p.swath)
        | none => (0, 0xFFFF)
      let msg : Bytes := [3, BitVec.ofNat 8 x, 0, 0] ++ leBytes 4 w.id ++ leBytes 4 layer ++ leBytes 2 swath ++ [0, 0] ++ leBytes 4 seq
      let s := s.updStream x (fun st =>
        { st with cairns := rest, acked := some (w.id, (w.segno + 1) % 2 ^ 32), ackedIds := w.ids, ackedEnds := w.layers, ackMsg := some msg })
      let s := if w.resumePoint && ((s.stream x).desc.any StreamDesc.control) then
          { s with island := resumeRecord x w w.layer w.nextSwath seq ++ s.island.drop 32 }
        else s
      let s := match s.streamLink x with
        | some l => s.upMsg l msg
        | none => s
      s.raiseEvent x 6

/-! ## Resume and abort (R93, R94) -/

/-- R93: the last acknowledged cairn; from start-up, that of a valid resume record. -/
def ackedCairn (s : State) (x : Nat) : Option Nat :=
  match (s.stream x).acked with
  | some z => some z.1
  | none =>
    let r := s.island.take 32
    if !(s.stream x).everOpened && fieldLE r 0 1 = 0xA5 && fieldLE r 1 1 = x && fieldLE r 28 4 = (crc32c (r.take 28)).toNat then
      some (fieldLE r 4 4)
    else none

/-- R94, R167 CANCEL: one setting not yet reached is cancelled; rendered lines that it governs are squashed. -/
def cancelOne (s : State) (m : ModeChange) : State :=
  let place := (s.settingPlace (ModeChange.ap m)).bind Prod.snd
  let s := { s with dose := { s.dose with changes := s.dose.changes.filter (fun c => c != m) } }
  match place with
  | some q => if s.renderedFrom q then s.squash 4 s.allRidges q 0 else s
  | none => s

/-- R323: the lead distributes a mode setting, or its cancellation. -/
def tellMode (s : State) (m : ModeSetting) (p : BuildPos) (cancel : Bool) : State :=
  match m with
  | .binding _ _ _ _ => s
  | m => s.distribute 6 (modeBytes m p cancel)

/-- R94 step 3: the settings of a stream after a cairn that have not been reached are cancelled. -/
def cancelSettings (s : State) (x k : Nat) : State :=
  (s.waiting.filter (fun m => m.ctx = x && k ≤ m.afterCairn)).foldl (fun s m => (s.tellMode m.setting m.at_ true).cancelOne m) s

/-- R94 steps 1 to 3, back to cairn `k` (0: to nothing). -/
def backTo (s : State) (x k : Nat) : State :=
  let s := s.updStream x (fun st =>
    { st with full := [], arriving := none, recs := [], stalled := false, waitStart := none, tries := 0, postHeld := false,
              lastSeg := none, boundIds := if k = 0 then [] else st.ackedIds, fresh := [], execIds := if k = 0 then [] else st.ackedIds,
              parsedEnd := if k = 0 then [] else st.ackedEnds, passedEnd := if k = 0 then [] else st.ackedEnds,
              bindings := st.bindings.filter (fun b => decide (b.afterCairn < k)), lastCairn := k, cairnNow := k, cairns := [],
              bodies := st.bodies.filter (fun b => k != 0 && st.acked.any (fun z => decide (b.segno < z.2))) })
  let s := s.showFull x
  let gone := s.rdg.posts.any (fun p => p.ctx = x && k ≤ p.afterCairn)
  let s := if gone then
      { s with rdg := { s.rdg with posts := s.rdg.posts.filter (fun p => !(p.ctx = x && k ≤ p.afterCairn)),
                                   ridges := s.rdg.ridges.map (fun (g : Ridge) => { g with band := none }) } }
    else s
  let s := if (s.stream x).desc.any StreamDesc.control then
      match s.planned.findIdx? (fun w => decide (k ≤ w.afterCairn)) with
      | none => s
      | some i =>
        let first := (s.planned[i]?).map Swath.plan
        let s := s.abandon i 4
        match first with
        | some p => if s.mot.layer = some p.layer then { s with mot := { s.mot with nextSwath := p.swath } } else s
        | none => s
    else s
  s.cancelSettings x k

/-- R68, R94: the stream opens at a SEGNO. -/
def openAt (s : State) (x segno : Nat) : State :=
  let s := s.updStream x (fun st => { st with opened := true, everOpened := true, ended := false, halted := false, rejected := false })
  let s := (s.setReg (Reg.JOB_NEXT x) (BitVec.ofNat 32 segno)).setReg (Reg.JOB_LIMIT x) (BitVec.ofNat 32 (segno + s.credits x - 1))
  match s.streamLink x with
  | some l => (s.sendSegReq x false).exportNew l
  | none => s.sendSegReq x false

/-- R93: from start-up, the cairn of a valid resume record stays the last acknowledged one once its stream has opened. -/
def keepCairn (s : State) (x : Nat) : State :=
  match (s.stream x).acked, s.ackedCairn x with
  | none, some k => s.updStream x (fun st => { st with acked := some (k, fieldLE s.island 16 4) })
  | _, _ => s

/-- R93, R94: a RESUME. -/
def resumeStream (s : State) (x cairn segno : Nat) : State :=
  let st := s.stream x
  let may := st.halted || st.ended || !st.everOpened
  if may && ((cairn = 0 && segno = 0) || (cairn != 0 && s.ackedCairn x = some cairn)) then ((s.keepCairn x).backTo x cairn).openAt x segno
  else s.sendStatus x Stat.RESUME_BAD segno noOffset

/-- R94: an ABORT. -/
def abortStream (s : State) (x : Nat) : State :=
  ((s.keepCairn x).backTo x ((s.ackedCairn x).getD 0)).updStream x (fun st => { st with halted := true })

/-! ## Directives: stalls (R96, R99 to R101) -/

/-- R99: 0 accepted, 1 stalled, 2 refused. -/
def stateRule (typ b : Nat) : Nat :=
  if typ = Dir.HOME then (if b = Build.UNHOMED || b = Build.READY then 0 else if b = Build.CLOSING then 1 else 2)
  else if typ = Dir.LAYER_BEGIN || typ = Dir.PARK then (if b = Build.READY then 0 else if b = Build.CLOSING then 1 else 2)
  else if typ = Dir.SWATH || typ = Dir.LAYER_END then (if b = Build.LAYER then 0 else 2)
  else 0

/-- Whether the directive stalls now.  R320: the build state cannot leave UNHOMED while a member of the cascade is missing
(log entry 29). -/
def stallsNow (s : State) (typ : Nat) (raw : Bytes) : Bool :=
  stateRule typ s.mot.bstate = 1 || (typ = Dir.HOME && s.mot.bstate = Build.UNHOMED && s.isLead && s.saf.cascade) ||
    (typ = Dir.SWATH && s.mot.bstate = Build.LAYER && 4 ≤ s.mot.queue.length) ||
    (typ = Dir.WAIT && fieldLE raw 8 1 ≤ 4 && fieldLE raw 8 1 != s.mot.bstate)

/-! ## Directives: contents (R103 to R105, R107, R260) -/

def zeros (raw : Bytes) (off n : Nat) : Bool := (slicePad raw off n).all (· = 0)

/-- R103, R104: a MODE record's setting; none when it breaks its layout. -/
def parseMode (raw : Bytes) : Option ModeSetting :=
  let g := fieldLE raw 9 1
  let v := fieldLE raw 24 8
  let k := fieldLE raw 8 1
  if k = 1 then (if g < 8 && v < 4 then some (.bankSel g v) else none)
  else if k = 2 then (if (List.range 16).all (fun r => !v.testBit (4 * r + 3)) then some (.rowMap (BitVec.ofNat 64 v)) else none)
  else if k = 3 then (if g < 8 && v < 2048 && v / 8 % 32 = 0 then some (.maskSel g (v % 8) (v / 256 + 1)) else none)
  else if k = 4 then
    let b := leBytes 8 v
    if g < 8 && fieldLE b 0 1 ≤ 2 && fieldLE b 1 1 ≤ 16 && fieldLE b 2 1 ≤ 8 && fieldLE b 3 1 < 16 && fieldLE b 4 1 < 16 && zeros b 5 3 then
      some (.halftone g (fieldLE b 0 1) (fieldLE b 1 1) (fieldLE b 2 1) (fieldLE b 3 1) (fieldLE b 4 1))
    else none
  else none

def modePos (raw : Bytes) : BuildPos := { layer := fieldLE raw 12 4, swath := fieldLE raw 16 2, line := fieldLEs raw 20 4 }

/-- R258: the plan that a SWATH directive makes. -/
def swathPlanOf (s : State) (raw : Bytes) : SwathPlan :=
  { layer := s.mot.layer.getD 0, swath := fieldLE raw 8 2, dir := fieldLE raw 10 1, pass := fieldLE raw 11 1,
    lineFirst := fieldLEs raw 12 4, lineLast := fieldLEs raw 16 4, indexOffset := fieldLEs raw 20 4, speed := fieldLE raw 24 2,
    swtag := s.mot.swtags % 65536, indexTarget := fieldLEs raw 28 4 }

/-- The materials that bindings name at a place or from an activation point beyond it. -/
def boundMaterials (s : State) (a : At) : List Nat :=
  (s.bindingsAt a).map Prod.snd ++ s.waiting.filterMap (fun m => match m.setting with
    | .binding _ _ _ mt => if governs m a then none else some mt
    | _ => none)

/-- R105: the MODE refusals, in the order of R105: 0 none. -/
def modeRefusal (s : State) (m : ModeSetting) (a : At) : Nat :=
  match m with
  | .bankSel g b => if (s.bank g b).highest = 0 && !(rowsOf (s.rowmapAt a) g).isEmpty then Stat.INVALID else 0
  | .rowMap v =>
    let old := s.rowmapAt a
    if (List.range 8).any (fun g => !(rowsOf v g).isEmpty && (s.bankInForce g a).highest = 0) then Stat.INVALID
    else if (List.range 16).any (fun r => (s.rowGroup (groupIn v r)).kind != (s.rowGroup (groupIn old r)).kind) then Stat.KIND
    else if (List.range 8).any (fun g => (rowsOf v g).isEmpty && (s.rowGroup g).kind != 0 &&
        (s.boundMaterials a).contains (s.rowGroup g).material) then Stat.EMPTY_GROUP
    else 0
  | .maskSel _ k n => if k != 0 && !maskFits (nth s.dose.masks k []) n then Stat.INVALID else 0
  | .halftone _ _ _ _ _ _ => 0
  | .binding _ _ _ _ => 0

/-- R103, R107: a REGION record.  LAYER0 and LAYER1 stay below 2²⁴ (DESIGN CHOICE, log entry 159). -/
def regionOk (s : State) (raw : Bytes) : Bool :=
  let y := fieldLE raw 8 1
  0 < y && y < 64 && y != s.super && (s.stream y).desc.isSome && zeros raw 9 3 && fieldLE raw 28 4 < 2 ^ 24 && fieldLE raw 32 4 < 2 ^ 24 &&
    fieldLEs raw 12 4 ≤ fieldLEs raw 16 4 && fieldLEs raw 20 4 ≤ fieldLEs raw 24 4 && fieldLE raw 28 4 ≤ fieldLE raw 32 4

/-- R105: the content code of a directive: 0 when it may execute.  Choices of the model (DESIGN CHOICE): PASS of a SWATH stands
against PASS_COUNT of every group that has rows at its first line (log entry 160), and AP_LAYER of a MODE stays below 2²⁴ (log
entry 159). -/
def contentCode (s : State) (typ : Nat) (raw : Bytes) : Nat :=
  if typ = Dir.HOME then
    let axes := fieldLE raw 8 1
    if axes = 0 || 16 ≤ axes || !zeros raw 9 7 then Stat.INVALID else 0
  else if typ = Dir.LAYER_BEGIN then
    let layer := fieldLE raw 8 4
    let up := 256 * fieldLEs raw 12 4 + (s.axis 2).target
    if 2 ^ 24 ≤ layer || 2 < fieldLE raw 16 1 || !zeros raw 17 7 || s.mot.lastLayer.any (fun l => decide (layer ≤ l)) ||
        !s.softOk 2 (up / 256) || (fieldLE raw 16 1 != 0 && (!s.softOk 3 (sWord (s.reg Reg.PLN_RCT0)) ||
          !s.softOk 3 (sWord (s.reg Reg.PLN_RCT1)))) then Stat.INVALID else 0
  else if typ = Dir.SWATH then
    let p := s.ownPlan (s.swathPlanOf raw)
    let passOk := (List.range 8).all (fun g => (rowsOf (s.rowmapAt (planAt p (planFirst p))) g).isEmpty ||
      decide (p.pass < (s.maskAt g (planAt p (planFirst p))).2))
    if 1 < p.dir || !zeros raw 26 2 || p.lineLast < p.lineFirst || p.swath != s.mot.nextSwath || !passOk || !s.planFits p then Stat.INVALID
    else 0
  else if typ = Dir.LAYER_END then (if s.mot.layer != some (fieldLE raw 8 4) || !zeros raw 12 4 then Stat.INVALID else 0)
  else if typ = Dir.PARK then (if !zeros raw 8 8 then Stat.INVALID else 0)
  else if typ = Dir.WAIT then
    let t := fieldLE raw 12 4
    if 4 < fieldLE raw 8 1 || !zeros raw 9 3 || t = 0 || 600000 < t then Stat.INVALID else 0
  else if typ = Dir.BANK_LOAD then
    match parseBank (slicePad raw 16 64) with
    | none => Stat.INVALID
    | some (g, b, k) =>
      if g != fieldLE raw 8 1 || b != fieldLE raw 9 1 || !zeros raw 10 6 || !bankValid s.dose.waves (s.rowGroup g).kind k then Stat.INVALID
      else if s.bankInUse g b then Stat.IN_USE else 0
  else if typ = Dir.WAVE_LOAD then
    match parseWave (slicePad raw 16 64) with
    | none => Stat.INVALID
    | some w =>
      let waves := putWave s.dose.waves w
      let banksOk := (List.range 32).all (fun k =>
        !DoseBank.names (nth s.dose.banks k DoseBank.empty) w.id || bankValid waves (s.rowGroup (k / 4)).kind (nth s.dose.banks k DoseBank.empty))
      if !zeros raw 8 8 || !waveValid s.dose.grid.minInterval s.dose.groups s.dose.banks w || !banksOk then Stat.INVALID
      else if s.waveInUse w.id then Stat.IN_USE else 0
  else if typ = Dir.MASK_LOAD then
    let id := fieldLE raw 8 1
    if id = 0 || 7 < id || !zeros raw 9 7 || (parseMask (slicePad raw 16 128)).all (s.maskMisfits id) then
      Stat.INVALID
    else if s.maskInUse id then Stat.IN_USE else 0
  else if typ = Dir.CURVE_LOAD then
    match parseCurve (slicePad raw 16 136) with
    | none => Stat.INVALID
    | some c => if !zeros raw 8 8 || s.curveMisfits c then Stat.INVALID else if s.curveInUse c.id then Stat.IN_USE else 0
  else if typ = Dir.MODE then
    match parseMode raw with
    | none => Stat.INVALID
    | some m =>
      if !zeros raw 10 2 || 2 ^ 24 ≤ fieldLE raw 12 4 || !zeros raw 18 2 then Stat.INVALID
      else s.modeRefusal m (s.placeOf (modePos raw))
  else if typ = Dir.REGION then (if s.regionOk raw then 0 else Stat.INVALID)
  else Stat.INVALID

/-- R102, R105: the refusal of a directive in the order of R105; 0 when it is accepted. -/
def refusal (s : State) (x typ : Nat) (raw : Bytes) : Nat :=
  let lead := typ = Dir.HOME || typ = Dir.LAYER_BEGIN || typ = Dir.SWATH || typ = Dir.LAYER_END || typ = Dir.PARK || typ = Dir.MODE
  if !(s.stream x).desc.any StreamDesc.control then Stat.NOT_CONTROL
  else if lead && (!s.isLead || !s.hasAxis) then Stat.NOT_LEAD
  else if stateRule typ s.mot.bstate = 2 then Stat.STATE
  else if (typ = Dir.HOME || typ = Dir.LAYER_BEGIN) && !s.unitPresent 0x1A then Stat.ABSENT
  else s.contentCode typ raw

/-! ## Directives: effects -/

/-- R107: a REGION that waits takes effect. -/
def takeRegions (s : State) : State :=
  (List.range 64).foldl (fun s x =>
    match (s.stream x).regionNext with
    | none => s
    | some (r, q) =>
      let s := s.updStream x (fun st => { st with region := r, regionNext := none })
      if q = 0 then s else s.updCtx x (fun k => { k with quota := q })) s

/-- R107: a REGION waits for the next LAYER_BEGIN; one with QUOTA 0 leaves the QUOTA that another has asked for. -/
def waitRegion (s : State) (y : Nat) (g : Region) (quota : Nat) : State :=
  s.updStream y (fun st =>
    { st with regionNext := some (g, if quota = 0 then (st.regionNext.map Prod.snd).getD 0 else quota) })

/-- R107, R22, R300: what the begin of a layer settles on every module. -/
def layerBegins (s : State) (layer : Nat) : State :=
  let s := s.takeRegions
  let s := s.setBuild Build.LAYER
  { s with mot := { s.mot with layer := some layer, lastLayer := some layer, nextSwath := 0 },
           scree := { s.scree with acted := [], holds := [] },
           seq := { s.seq with ctxs := s.seq.ctxs.map (fun (k : Ctx) => { k with qused := 0 }) },
           twn := { s.twn with selfFaults := 0 } }

/-- R100, R176: an accepted swath joins the queue and its lines take their ordinals. -/
def queueSwath (s : State) (p : SwathPlan) (afterCairn : Nat) : State :=
  let w : Swath := { plan := p, firstOrd := s.crn.nextOrd, afterCairn := afterCairn, issued := s.mot.issued }
  let join := if s.twn.phase = 4 && s.twn.joinSwath.isNone then some (p.layer, p.swath) else s.twn.joinSwath
  let old := fun (z : BuildPos) => z.layer = p.layer && z.swath = p.swath
  { s with mot := { s.mot with queue := s.mot.queue ++ [w], nextSwath := p.swath + 1, issued := s.mot.issued + 1,
                               swtags := s.mot.swtags + 1 },
           -- R165, R175: squashes and re-renders before its queueing are none of the swath's
           crn := { s.crn with nextOrd := s.crn.nextOrd + planLen p, squashed := s.crn.squashed.filter (fun z => !old z.2),
                               retriedRuns := s.crn.retriedRuns.filter (fun z => !old z.2) },
           twn := { s.twn with joinSwath := join } }

/-- R52: a waveform goes to every head driver; a standby's counts as acknowledged (log entry 25). -/
def uploadWave (s : State) (w : Waveform) : State :=
  if s.owns then
    let links := s.linksUsed
    let s := { s with hlk := { s.hlk with waveAcks := s.hlk.waveAcks.filter (fun z => z.1 != w.id) ++ links.map (fun l => (w.id, l)) } }
    links.foldl (fun s l => s.sendOrder l w.id true (s.orderHdr l 0x21) (waveBytes w)) s
  else s

/-- The effect of an accepted directive. -/
def runDirective (s : State) (x typ : Nat) (raw : Bytes) : State :=
  let cairn := (s.stream x).cairnNow
  if typ = Dir.HOME then s.startHoming (fieldLE raw 8 1)
  else if typ = Dir.LAYER_BEGIN then
    let s := s.layerBegins (fieldLE raw 8 4)
    let s := { s with mot := { s.mot with platformMove := true, recoats := fieldLE raw 16 1 } }
    s.startMove 2 ((s.axis 2).target + 256 * fieldLEs raw 12 4)
  else if typ = Dir.SWATH then
    let p := s.swathPlanOf raw
    ((s.queueSwath (s.ownPlan p) cairn).distribute 4 (planBytes p)).startSwath
  else if typ = Dir.LAYER_END then s.setBuild Build.CLOSING
  else if typ = Dir.BANK_LOAD then
    match parseBank (slicePad raw 16 64) with
    | some (g, b, k) => { s with dose := { s.dose with banks := upd s.dose.banks (4 * g + b) (fun _ => k) } }
    | none => s
  else if typ = Dir.WAVE_LOAD then
    match parseWave (slicePad raw 16 64) with
    | some w => ({ s with dose := { s.dose with waves := putWave s.dose.waves w } }).uploadWave w
    | none => s
  else if typ = Dir.MASK_LOAD then
    match parseMask (slicePad raw 16 128) with
    | some m => { s with dose := { s.dose with masks := upd s.dose.masks (fieldLE raw 8 1) (fun _ => m) } }
    | none => s
  else if typ = Dir.CURVE_LOAD then
    match parseCurve (slicePad raw 16 136) with
    | some c => { s with dose := { s.dose with curves := putCurve s.dose.curves c } }
    | none => s
  else if typ = Dir.MODE then
    match parseMode raw with
    | some m => (s.applySetting x cairn m (modePos raw)).tellMode m (modePos raw) false
    | none => s
  else if typ = Dir.REGION then
    let g : Region := { col0 := fieldLEs raw 12 4, col1 := fieldLEs raw 16 4, line0 := fieldLEs raw 20 4,
                        line1 := fieldLEs raw 24 4, layer0 := fieldLE raw 28 4, layer1 := fieldLE raw 32 4 }
    s.waitRegion (fieldLE raw 8 1) g (fieldLE raw 36 4)
  else s

/-- R97: an outcome is mirrored; the standby applies it and judges nothing. -/
def acceptDirective (s : State) (x : Nat) (r : PendRec) (typ : Nat) (raw : Bytes) : State :=
  ((s.mirror 4 (outcomeBytes x 0 0 r.segno r.off)).runDirective x typ raw).popRec x

def refuseDirective (s : State) (x : Nat) (r : PendRec) (code : Nat) : State :=
  (s.mirror 4 (outcomeBytes x 2 code r.segno r.off)).refuse x r code

/-- R95, R96, R105: the directive at the head of a stream is stalled, refused or accepted.  A stream without CONTROL stalls on
none (R62, R78). -/
def judge (s : State) (x : Nat) (r : PendRec) (typ : Nat) (raw : Bytes) : State :=
  if (s.stream x).desc.any StreamDesc.control && s.stallsNow typ raw then
    s.updStream x (fun st => { st with stalled := true, waitStart := if typ = Dir.WAIT then some (st.waitStart.getD s.clk.pclk) else none })
  else
    let code := s.refusal x typ raw
    if code = 0 then s.acceptDirective x r typ raw else s.refuseDirective x r code

/-- The head record of a stream, when it is a directive. -/
def headDirective (s : State) (x : Nat) : Option (PendRec × Nat × Bytes) :=
  (s.headRec x).bind (fun r => match r.body with
    | .directive typ raw => some (r, typ, raw)
    | _ => none)

/-- R74 step 8: the head directive of the type, and for MODE of the setting, executes; a stall goes on until its release. -/
def execDirective (s : State) (x : Nat) (is : Nat → Bytes → Bool) : State :=
  let s := s.goOn x
  if s.follows || (s.stream x).stalled then s
  else
    match s.headDirective x with
    | some (r, typ, raw) => if is typ raw then s.judge x r typ raw else s
    | none => s

/-- R96: the condition of a stalled directive is met. -/
def stallRelease (s : State) (x : Nat) : State :=
  match s.headDirective x with
  | some (r, typ, raw) =>
    if (s.stream x).stalled && !s.follows && !s.stallsNow typ raw then
      ((s.updStream x (fun st => { st with stalled := false, waitStart := none })).mirror 4 (outcomeBytes x 1 0 r.segno r.off)).judge x r typ raw
    else s
  | none => s

/-- R101: a WAIT's TIMEOUT has passed: WAIT_TIMEOUT, with no further check of the record (DESIGN CHOICE, log entry 161). -/
def waitExpires (s : State) (x : Nat) : State :=
  match s.headDirective x, (s.stream x).waitStart with
  | some (r, typ, raw), some t0 =>
    if typ = Dir.WAIT && (s.stream x).stalled && !s.follows && s.stallsNow typ raw && t0 + 200000 * fieldLE raw 12 4 ≤ s.clk.pclk then
      (s.updStream x (fun st => { st with stalled := false, waitStart := none })).refuseDirective x r Stat.WAIT_TIMEOUT
    else s
  | _, _ => s

/-- R95: a RETRY executes the refused record again; after the last retry of a segment it asks for the segment again. -/
def retryStream (s : State) (x : Nat) : State :=
  let st := s.stream x
  if !st.halted then s
  else
    let s := s.updStream x (fun st => { st with halted := false, rejected := false, tries := 0 })
    if st.rejected then s.sendSegReq x true
    else
      match s.headRec x with
      | some r =>
        match r.body with
        | .binding id cv mt ap => s.runBinding x r id cv mt ap
        | .directive typ raw => if s.follows then s else s.judge x r typ raw
        | _ => s.goOn x
      | none => s

end State

/-! ## Commands -/

/-- R74. -/
def execSegmentAccept (x : Nat) (p : Placement) (s : State) : Out := whenReady s (fun s => s.acceptSegment x p)

/-- R87. -/
def execBinding (x : Nat) (s : State) : Out :=
  whenReady s (fun s =>
    let s := s.goOn x
    match s.headRec x with
    | some r =>
      match r.body with
      | .binding id cv mt ap => s.runBinding x r id cv mt ap
      | _ => s
    | none => s)

/-- R88, R89. -/
def execGeomEnd (x : Nat) (s : State) : Out :=
  whenReady s (fun s =>
    let s := s.goOn x
    match s.headRec x with
    | some r =>
      match r.body with
      | .geomEnd layer => s.runGeomEnd x r layer
      | _ => s
    | none => s)

/-- R90. -/
def execCairn (x : Nat) (s : State) : Out :=
  whenReady s (fun s =>
    let s := s.goOn x
    match s.headRec x with
    | some r =>
      match r.body with
      | .cairn id rp => s.runCairn x r id rp
      | _ => s
    | none => s)

/-- R91. -/
def execCairnAck (x : Nat) (s : State) : Out := whenReady s (fun s => s.ackCairn x)

/-- R284. -/
def execHome (x : Nat) (s : State) : Out := whenReady s (fun s => s.execDirective x (fun t _ => t = Dir.HOME))

/-- R98, R263. -/
def execLayerBegin (x : Nat) (s : State) : Out := whenReady s (fun s => s.execDirective x (fun t _ => t = Dir.LAYER_BEGIN))

/-- R100. -/
def execSwath (x : Nat) (s : State) : Out := whenReady s (fun s => s.execDirective x (fun t _ => t = Dir.SWATH))

/-- R98. -/
def execLayerEnd (x : Nat) (s : State) : Out := whenReady s (fun s => s.execDirective x (fun t _ => t = Dir.LAYER_END))

/-- R99. -/
def execPark (x : Nat) (s : State) : Out := whenReady s (fun s => s.execDirective x (fun t _ => t = Dir.PARK))

/-- R101. -/
def execWaitDirective (x : Nat) (s : State) : Out := whenReady s (fun s => s.execDirective x (fun t _ => t = Dir.WAIT))

/-- R101. -/
def execWaitTimeout (x t : Nat) (s : State) : Out := whenReady s (fun s => (s.at_ t).waitExpires x)

/-- R96. -/
def execDirectiveStallRelease (x : Nat) (s : State) : Out := whenReady s (fun s => s.stallRelease x)

/-- R49. -/
def execBankLoad (x : Nat) (s : State) : Out := whenReady s (fun s => s.execDirective x (fun t _ => t = Dir.BANK_LOAD))

/-- R51, R52. -/
def execWaveLoad (x : Nat) (s : State) : Out := whenReady s (fun s => s.execDirective x (fun t _ => t = Dir.WAVE_LOAD))

/-- R55. -/
def execMaskLoad (x : Nat) (s : State) : Out := whenReady s (fun s => s.execDirective x (fun t _ => t = Dir.MASK_LOAD))

/-- R54. -/
def execCurveLoad (x : Nat) (s : State) : Out := whenReady s (fun s => s.execDirective x (fun t _ => t = Dir.CURVE_LOAD))

/-- R48: a MODE with SETTING 1; a MODE whose SETTING is not listed is judged here too. -/
def execModeBankSel (x : Nat) (s : State) : Out :=
  whenReady s (fun s => s.execDirective x (fun t raw =>
    t = Dir.MODE && (fieldLE raw 8 1 < 2 || 4 < fieldLE raw 8 1)))

/-- R38. -/
def execModeRowmap (x : Nat) (s : State) : Out :=
  whenReady s (fun s => s.execDirective x (fun t raw => t = Dir.MODE && fieldLE raw 8 1 = 2))

/-- R57. -/
def execModeMaskSel (x : Nat) (s : State) : Out :=
  whenReady s (fun s => s.execDirective x (fun t raw => t = Dir.MODE && fieldLE raw 8 1 = 3))

/-- R132. -/
def execModeHalftone (x : Nat) (s : State) : Out :=
  whenReady s (fun s => s.execDirective x (fun t raw => t = Dir.MODE && fieldLE raw 8 1 = 4))

/-- R107. -/
def execRegion (x : Nat) (s : State) : Out := whenReady s (fun s => s.execDirective x (fun t _ => t = Dir.REGION))

end Sys2Proof.Machine
end

