-- ==== Sys2Proof/Machine/JobLink.lean ====
section
/-! DEFINITION. The job link (R63 to R69, R440 to R447): frames, messages, the buffers they fill, and the registers that
keepers write. -/

namespace Sys2Proof.Machine

/-- Whether `a` is at or before `b` in modulo-2³² order. -/
def fseqUpTo (a b : Nat) : Bool := (b + 2 ^ 32 - a) % 2 ^ 32 < 2 ^ 31

/-- R447: the bytes of an upstream message that a program may send. -/
def upLength (typ : Nat) : Option Nat :=
  if typ = 1 || typ = 2 then some 12 else if typ = 3 then some 20 else none

namespace State

def jobErr (s : State) (l : Nat) : State := s.count (Reg.JOB_ERR l) 1

/-! ## Messages (R63, R444 to R446) -/

/-- R445: every write of the arriving segment is visible. -/
def storeSegment (s : State) (x : Nat) : State :=
  match (s.stream x).arriving with
  | none => s
  | some b =>
    let n := (s.reg (Reg.JOB_NEXT x)).toNat
    let s := s.updStream x (fun st => { st with arriving := none, full := st.full ++ [(b, n)] })
    (((s.showFull x).setReg (Reg.JOB_NEXT x) (BitVec.ofNat 32 (n + 1))).raiseEvent x 7)

/-- The lowest empty buffer of a stream. -/
def emptyBuf (s : State) (x : Nat) : Option Nat :=
  (List.range (s.credits x)).find? (fun b => !(s.stream x).full.any (fun z => z.1 = b) && (s.stream x).arriving != some b)

/-- R295, R316: a SEGMENT message, from its TYPE byte on, in parts of 4,080 bytes. -/
def mirrorSegment (s : State) (x l segno : Nat) (msg : Bytes) : State :=
  let parts := partsOf 4080 msg
  (parts.zipIdx).foldl (fun s z =>
    s.mirror 2 (leBytes 1 x ++ leBytes 1 l ++ leBytes 2 z.2 ++ leBytes 2 parts.length ++ [0, 0] ++ leBytes 4 segno ++ [0, 0, 0, 0] ++ z.1)) s

/-- R295, R316: a downstream message but SEGMENT. -/
def mirrorMsg (s : State) (l : Nat) (msg : Bytes) : State := s.mirror 9 (leBytes 1 l ++ List.replicate 7 0 ++ msg)

/-- R444: a SEGMENT message is written into a buffer; it is mirrored as it arrived (R295). -/
def fillSegment (s : State) (x : Nat) (h body : Bytes) : State :=
  match s.emptyBuf x with
  | none => s
  | some b =>
    let s := ((s.wr (s.bufHead x b) h).wr (s.bufBody x b) body).mirrorSegment x ((s.streamLink x).getD 0) (fieldLE h 8 4) (0x81 :: h ++ body)
    s.updStream x (fun st => { st with arriving := some b })

/-- R65, R68, R444: a SEGMENT message on link `l`, from its TYPE byte on. -/
def segmentMsg (s : State) (l : Nat) (msg : Bytes) : State :=
  let h := slicePad msg 1 112
  let x := fieldLE h 5 1
  let segno := fieldLE h 8 4
  let stored := fieldLE h 16 4
  if x = 0 || 64 ≤ x || s.streamLink x != some l then s.jobErr l
  else
    let s := s.storeSegment x
    if !(s.stream x).opened then (s.jobErr l).sendStatus x Stat.CLOSED segno noOffset
    else if segno != (s.reg (Reg.JOB_NEXT x)).toNat || (s.reg (Reg.JOB_LIMIT x)).toNat < segno then
      ((s.event Reg.JOB_EVENT 3).sendStatus x Stat.SEQ_ERR segno noOffset).sendSegReq x false
    else if stored < 8 || 16777216 < stored || msg.length != 113 + stored || (s.emptyBuf x).isNone then s.jobErr l
    else s.fillSegment x h (msg.drop 113)

/-- R446: the message ring of a context in the SEQ pool. -/
def msgSlot (s : State) (x i : Nat) : Nat := Config.seqPool + s.rfld Reg.JOB_CTRL 8 23 + 256 * x + 16 * i

/-- R446: a message enters the context's ring; `false` when the ring is full and it is lost. -/
def ringMsg (s : State) (l x : Nat) (msg : Bytes) : State × Bool :=
  let head := s.rfld (Reg.JOB_MSGHEAD x) 0 4
  let next := (head + 1) % 16
  if next = s.rfld (Reg.JOB_MSGTAIL x) 0 4 then (((s.jobErr l).event Reg.JOB_EVENT 1).raiseFor Src.JOB_MSG_LOST x, false)
  else ((((s.wr (s.msgSlot x head) (slicePad msg 0 16)).setReg (Reg.JOB_MSGHEAD x) (BitVec.ofNat 32 next)).raiseEvent x 7).mirrorMsg l msg, true)

/-- The keeper has read its ring up to the head. -/
def ringRead (s : State) (x : Nat) : State := s.setReg (Reg.JOB_MSGTAIL x) (s.reg (Reg.JOB_MSGHEAD x))

/-- A message for context `x` on link `l` that a keeper acts on; one for a context not mapped to the link is counted
(R63). -/
def keeperMsg (s : State) (l x : Nat) (msg : Bytes) (act : State → State) : State :=
  if x = 0 || 64 ≤ x || s.streamLink x != some l then s.jobErr l
  else
    match s.ringMsg l x msg with
    | (s, false) => s
    | (s, true) => act (s.ringRead x)

def retryMsg (s : State) (l x : Nat) : State := s.keeperMsg l x [0x83, BitVec.ofNat 8 x] (fun s => s.retryStream x)

def resumeMsg (s : State) (l x cairn segno : Nat) : State :=
  s.keeperMsg l x ([0x84, BitVec.ofNat 8 x, 0, 0] ++ leBytes 4 cairn ++ leBytes 4 segno) (fun s => s.resumeStream x cairn segno)

def abortMsg (s : State) (l x : Nat) : State := s.keeperMsg l x [0x85, BitVec.ofNat 8 x] (fun s => s.abortStream x)

/-- R67, R24, R25: a swath that waited for the spill area starts once its hold is over. -/
def screeAckMsg (s : State) (l upTo : Nat) : State :=
  let held := s.scree.held
  let s := (s.mirrorMsg l ([0x82, 0, 0, 0] ++ leBytes 4 upTo)).screeAck l upTo
  if held && !s.scree.held then s.startSwath else s

/-- R63: a downstream message as it was assembled; one of another type is discarded and counted. -/
def jobMessage (s : State) (l : Nat) (msg : Bytes) : State :=
  let typ := fieldLE msg 0 1
  if typ = 0x81 then s.segmentMsg l msg
  else if typ = 0x82 && msg.length = 8 then s.screeAckMsg l (fieldLE msg 4 4)
  else if typ = 0x83 && msg.length = 2 then s.retryMsg l (fieldLE msg 1 1)
  else if typ = 0x84 && msg.length = 12 then s.resumeMsg l (fieldLE msg 1 1) (fieldLE msg 4 4) (fieldLE msg 8 4)
  else if typ = 0x85 && msg.length = 2 then s.abortMsg l (fieldLE msg 1 1)
  else s.jobErr l

/-- R295, R504: messages act from READY on and at the module that owns the outputs. -/
def hears (s : State) : Bool := s.owns

/-- A whole message on an ACTIVE link: before READY it is discarded and counted (R504); a module that does not own the
outputs acts on what the twin link brings (R295). -/
def whenMessage (s : State) (l : Nat) (o : State → State) : Out :=
  if !s.linkActive (.job l) || s.boot.failed then .next s
  else if !s.running then done (s.jobErr l)
  else if s.hears then done (o s)
  else .next s

/-! ## Frames (R440 to R443) -/

/-- R441: FACK and CREDIT of a received frame. -/
def jobAck (s : State) (l fack credit : Nat) : State :=
  let s := s.updJob l (fun j =>
    { j with peerCredit := credit, unacked := j.unacked.filter (fun z => !fseqUpTo z.1 fack),
             peerAck := if j.unacked.any (fun z => z.1 = fack) then some fack else j.peerAck })
  pumpJob 64 s l

/-- R442: the body of a frame joins its message; a whole message is delivered. -/
def joinFrame (s : State) (l : Nat) (first last : Bool) (body : Bytes) : State :=
  let opened := (s.joblink l).openMsg
  let s := if first && opened.isSome then s.jobErr l else s
  match first, opened with
  | false, none => s.jobErr l
  | _, _ =>
    let msg := (if first then [] else opened.getD []) ++ body
    if last then
      let s := s.updJob l (fun j => { j with openMsg := none })
      if !s.running then s.jobErr l
      else if s.hears then s.jobMessage l msg
      else s
    else s.updJob l (fun j => { j with openMsg := some msg })

/-- R441: a DATA frame. -/
def jobFrameIn (s : State) (l : Nat) (h : JobHdr) (body : Bytes) (good : Bool) : State :=
  if !s.linkActive (.job l) then s
  else if !good || 4096 < body.length then (s.heardOn (.job l)).jobErr l
  else
    let s := (s.heardOn (.job l)).jobAck l h.fack h.credit
    if h.fseq != (s.joblink l).rxNext then s.jobErr l
    else (s.updJob l (fun j => { j with rxNext := (h.fseq + 1) % 2 ^ 32 })).joinFrame l h.first h.last body

/-- R443: a link that goes down discards its open message; both sides start from FSEQ 0.  Messages that wait go on waiting
(log entry 26). -/
def jobReset (s : State) (l : Nat) : State :=
  s.updJob l (fun j => { JobLink.reset with txq := j.txq })

/-- R435: a job link is down. -/
def jobDown (s : State) (l : Nat) : State := ((s.jobReset l).event Reg.JOB_EVENT 0).raise Src.JOB_JOB_DOWN

/-- R68, R443: what the module says on a link by itself. -/
def greetings (s : State) (l : Nat) : State :=
  let s := (List.range 64).foldl (fun s x =>
    if s.streamLink x != some l then s
    else if (s.stream x).opened then s.sendSegReq x false
    else s.sendStatus x Stat.CLOSED noOffset noOffset) s
  s.reexport l

/-- R443: entry of a job link to ACTIVE. -/
def jobGreets (s : State) (l : Nat) : State :=
  if s.running && s.owns then pumpJob 64 (s.greetings l) l else s

/-! ## Registers of the keepers (R68, R95, R445, R447) -/

/-- Whether context `w` may write the entries of `x`. -/
def ownsStream (s : State) (w x : Nat) : Bool := w = x || (w = s.super && w != 0)

/-- R68: a write of JOB_OPEN. -/
def jobOpen (s : State) (w x : Nat) (open_ : Bool) : State × RegResult :=
  if !s.ownsStream w x then (s, .perm)
  else if (s.stream x).desc.isNone then (s, .ok)
  else if open_ then
    let s := (s.keepCairn x).updStream x (fun st => { st with opened := true, everOpened := true, ended := false })
    (match s.streamLink x with
      | some l => s.exportNew l
      | none => s, .ok)
  else (s.updStream x (fun st => { st with opened := false }), .ok)

/-- R95: a write of JOB_HALT. -/
def jobHalt (s : State) (w x : Nat) : State × RegResult :=
  if !s.ownsStream w x then (s, .perm) else if (s.stream x).desc.isNone then (s, .ok) else (s.haltStream x, .ok)

/-- R445: a write of JOB_FREE. -/
def jobFree (s : State) (w x b : Nat) : State × RegResult :=
  if !s.ownsStream w x then (s, .perm) else if (s.stream x).desc.isNone || s.credits x ≤ b then (s, .ok) else (s.freeBuf x b, .ok)

/-- R447: a write of JOB_TXQ by context `w`; the standby discards it. -/
def jobTxq (s : State) (w : Nat) (v : BitVec 32) : State × RegResult :=
  let a := Config.seqPool + fld v 0 23
  let typ := (s.rdByte a).toNat
  match upLength typ with
  | none => (s, .perm)
  | some n =>
    if fld v 0 3 != 0 || Config.poolEnd < a + n || (s.rdByte (a + 1)).toNat != w then (s, .perm)
    else
      match s.streamLink w with
      | none => (s, .perm)
      | some l =>
        -- R504: held until READY
        if s.running then (s.upMsg l (s.rd a n), .ok)
        else if 64 ≤ (s.joblink l).txq.length then (s.event Reg.JOB_EVENT 2, .ok)
        else (s.updJob l (fun j => { j with txq := j.txq ++ [s.rd a n] }), .ok)

end State

/-! ## Commands -/

/-- R441, R442. -/
def execJobDataFrame (l : Nat) (h : JobHdr) (body : Bytes) (good : Bool) (s : State) : Out :=
  whenClocked s (fun s => s.jobFrameIn l h body good)

/-- R440, R441. -/
def execJobIdleAck (l fack credit : Nat) (s : State) : Out :=
  whenClocked s (fun s => if s.linkActive (.job l) then (s.heardOn (.job l)).jobAck l fack credit else s)

/-- R441: FACK has not advanced for 8 µs: everything outstanding is sent again. -/
def execJobRetxTimeout (l : Nat) (s : State) : Out :=
  whenClocked s (fun s =>
    if (s.joblink l).unacked.isEmpty || !s.linkActive (.job l) then s else s.jobAgain l)

/-- R441: an IDLE_ACK every 4 µs. -/
def execJobIdleDue (l : Nat) (s : State) : Out :=
  whenClocked s (fun s =>
    if s.linkActive (.job l) then s.jobEmit l (s.joblink l).txNext none else s)

/-- R441, R435: no frame for 64 µs. -/
def execJobLinkSilent (l : Nat) (s : State) : Out :=
  whenClocked s (fun s =>
    if s.linkActive (.job l) then
      ((s.updLink (.job l) (fun k => { k with st := 1, wasActive := false, lostAt := false })).event Reg.LNP_EVENT 1).jobDown l
    else s)

/-- R444. -/
def execSegment (l : Nat) (msg : Bytes) (s : State) : Out :=
  s.whenMessage l (fun s => s.segmentMsg l msg)

/-- R445. -/
def execSegmentStored (x : Nat) (s : State) : Out := whenReady s (fun s => s.storeSegment x)

/-- R67. -/
def execScreeAck (l : Nat) (seqUpto : BitVec 32) (s : State) : Out :=
  s.whenMessage l (fun s => s.screeAckMsg l seqUpto.toNat)

/-- R95. -/
def execRetry (l x : Nat) (s : State) : Out :=
  s.whenMessage l (fun s => s.retryMsg l x)

/-- R93, R94. -/
def execResume (l x : Nat) (cairn segno : BitVec 32) (s : State) : Out :=
  s.whenMessage l (fun s => s.resumeMsg l x cairn.toNat segno.toNat)

/-- R94. -/
def execAbort (l x : Nat) (s : State) : Out :=
  s.whenMessage l (fun s => s.abortMsg l x)

/-- R68: every 100 ms. -/
def execClosedStatusRepeat (s : State) : Out :=
  whenReady s (fun s => (List.range 64).foldl (fun s x =>
    if (s.stream x).desc.isSome && !(s.stream x).opened then s.sendStatus x Stat.CLOSED noOffset noOffset else s) s)

/-- R447. -/
def execJobTxq (w : Nat) (off : Word) (s : State) : Out :=
  whenClocked s (fun s =>
    State.wrote (s.jobTxq w off) w Reg.JOB_TXQ)

/-- R445. -/
def execJobFree (x buf : Nat) (s : State) : Out := whenReady s (fun s => (s.jobFree x x buf).1)

/-- R95. -/
def execJobHalt (x : Nat) (s : State) : Out := whenReady s (fun s => (s.jobHalt x x).1)

/-- R68. -/
def execJobOpen (x : Nat) (s : State) : Out := whenReady s (fun s => (s.jobOpen x x true).1)

/-- R69. -/
def execJobClose (x : Nat) (s : State) : Out := whenReady s (fun s => (s.jobOpen x x false).1)

end Sys2Proof.Machine
end

