-- ==== Sys2Proof/Machine/Startup.lean ====
section
/-! DEFINITION. Roles, and the phases of start-up that other units end: SEQ, TWIN, CASCADE and the entry to READY (R289 to
R293, R503, R515, R518). -/

namespace Sys2Proof.Machine

namespace State

/-! ## Phases (R503) -/

/-- A phase begins; a trace record says so (R529). -/
def enterPhase (s : State) (p : Nat) : State :=
  ({ s with boot := { s.boot with phase := p } }).trace 5 (leBytes 1 p ++ leBytes 1 s.boot.code ++ leBytes 6 0)

/-- Start-up fails in the present phase (R516). -/
def phaseFails (s : State) (code : Nat) : State :=
  (s.failStart code).trace 5 (leBytes 1 s.boot.phase ++ leBytes 1 code ++ leBytes 6 0)

/-- A BCL_STATUS flag (R503 to R518). -/
def bootFlag (s : State) (i : Nat) : State := s.event Reg.BCL_STATUS i

/-! ## Roles (R290, R291, R293) -/

/-- R302: in SOLO, with the rotation halted, no spare is left for the full shadow. -/
def shadowCheck (s : State) : State :=
  if s.twn.role = 1 && s.rdg.rotHalt then (s.event Reg.TWN_EVENT 9).raise Src.TWN_SHADOW_DEGRADED else s

/-- A role begins.  TOWN runs in SOLO and ACTIVE from READY on; a RETIRED module holds every output. -/
def setRole (s : State) (r : Nat) : State :=
  if s.twn.role = r then s
  else
    let owned := s.owns
    let s := { s with twn := { s.twn with role := r } }
    let s := { s with pins := { s.pins with town := s.owns && s.running } }
    let s := if owned && !s.owns then
        { s with hlk := { s.hlk with links := s.hlk.links.map (fun (h : HeadLink) => { h with orders := [], held := [] }),
                                     selecting := false } }
      else s
    let s := (s.event Reg.TWN_EVENT 0).trace 4 (leBytes 1 r ++ leBytes 1 s.twn.peerRole ++ leBytes 6 0)
    -- R301: lines not yet MATCHED are compared with shadow values from now on
    let s := if r = 1 then
        { s with crn := { s.crn with window := s.crn.window.map (mapRidges (fun _ k => { k with held := none })) } }.shadowCheck
      else s
    s.settleGate.twinSend 1 s.roleBody

/-- R293: the module leaves the pair until a reset. -/
def retire (s : State) : State := s.setRole 5

/-! ## READY (R518) -/

/-- R280: at start a stepper takes its retained record, or starts at 0. -/
def stepperStart (s : State) (m : Nat) : State :=
  let r := slicePad s.island (64 + 16 * (m + 2)) 16
  if fieldLE r 0 1 = 0xA5 && fieldLE r 1 1 = m + 2 && fieldLE r 12 4 = (crc32c (r.take 12)).toNat then
    let p := fieldLEs r 4 4
    (s.updStp m (fun k => { k with pos := p, elec := fieldLE r 2 2 % 1024, hold := true, retained := true })).updAxis (m + 2)
      (fun x => { x with pos := 256 * p, target := 256 * p })
  else
    ((s.updStp m (fun k => { k with pos := 0, elec := 0, hold := true, retained := false })).event Reg.STP_EVENT (2 + m)).raise
      Src.STP_RETAIN_LOST

/-- R201, R518: the FDELAY values in force go to every head driver. -/
def uploadDelays (s : State) : State :=
  if s.owns then
    let links := s.linksUsed
    let all := (List.range 1048576).map (fun a => (a, s.actDelay a))
    links.foldl (fun s l => s.sendTrims l (s.mot.swtags % 65536) all) { s with act := { s.act with trims := [], trimWait := links } }
  else s

/-- R510: an image with RATCHET that reaches READY raises the fused floor. -/
def ratchetUp (s : State) : State :=
  let v := s.rfld Reg.BCL_SECVER 0 6
  if s.boot.ratchet && s.die.floor < v then { s with die := { s.die with floor := v } }.bootFlag 5 else s

/-- R518: the entry to READY. -/
def readyEntry (s : State) : State :=
  let s := s.enterPhase 13
  let s := { s with boot := { s.boot with failedStarts := 0 }, pins := { s.pins with town := s.owns },
                    hlk := { s.hlk with portB := s.pins.tws } }
  let s := s.setReg Reg.BCL_RDYT_LO (BitVec.ofNat 32 s.now)
  let s := s.setReg Reg.BCL_RDYT_HI (BitVec.ofNat 32 (s.now >>> 32))
  let s := s.ratchetUp
  let s := if s.hasAxis then (s.stepperStart 0).stepperStart 1 else s
  let s := s.dose.waves.foldl (fun s w => s.uploadWave w) s
  let s := (s.uploadMap { layer := 0, swath := 0, dir := 0, line := 0 }).uploadDelays
  (List.range 4).foldl (fun s l => if s.linkActive (.job l) then s.jobGreets l else s) s

/-! ## SEQ, TWIN and CASCADE (R293, R320, R515) -/

/-- R320: a follower whose up port is trained asks to join. -/
def askJoin (s : State) : State :=
  if !s.isLead && s.csc.upPort.up && 12 ≤ s.boot.phase && s.csc.jstate = 0 then
    ({ s with csc := { s.csc with jstate := 1, refused := false } }).cscSend false 1
      (leBytes 1 s.pins.cpos ++ [if s.pins.tws then 1 else 0] ++ leBytes 1 s.die.variant ++ [if s.hasAxis then 1 else 0] ++
        leBytes 4 (s.reg Reg.BCL_COMPAT).toNat)
  else s

/-- R3, R515: CASCADE begins; a lead without an axis unit stops here. -/
def cascadePhase (s : State) : State :=
  let s := s.enterPhase 12
  if s.isLead then
    if !s.hasAxis then (s.raise Src.CSC_LEAD_NO_AXIS).phaseFails 0x0A
    else
      let s := if s.rfld Reg.CSC_CTRL 0 8 = 1 then s else s.setCauses (fun f => { f with cascade := true })
      s.readyEntry
  else s.askJoin

/-- R293: the start-up decision: TWIN ends when the role is SOLO or SYNCING. -/
def decideRole (s : State) (r : Nat) : State :=
  let s := s.setRole r
  if s.boot.phase = 11 && (r = 1 || r = 4) then s.cascadePhase else s

/-- R293, R294: the start-up decision, once the peer's ROLE frame is known. -/
def startDecision (s : State) : State :=
  match s.twn.peerSlotB with
  | none => s
  | some b =>
    if s.boot.phase != 11 || s.twn.role != 0 then s
    else if s.twn.peerRole = 0 then
      if b = s.pins.tws then ((s.event Reg.TWN_EVENT 11).raise Src.TWN_SLOT_CLASH).retire
      else s.decideRole (if s.pins.tws then 4 else 1)
    else if s.twn.peerRole = 1 || s.twn.peerRole = 2 then s.decideRole 4
    else s

/-- R289: TWIN begins. -/
def twinPhase (s : State) : State :=
  let s := s.enterPhase 11
  if s.rbit Reg.TWN_CTRL 0 then (s.twinSend 1 s.roleBody).startDecision else s.decideRole 1

/-- R332, R503: the contexts with a START begin; then TWIN. -/
def seqPhase (s : State) : State :=
  let s := s.enterPhase 10
  let s := (List.range 64).foldl (fun s c => if c != 0 && (s.ctx c).start != 0 then s.startCtx c else s) s
  s.twinPhase

end State

end Sys2Proof.Machine
end

