-- ==== Sys2Proof/Machine/Boot.lean ====
section
/-! DEFINITION. Power, reset and the phases of start-up up to KEYS: CLOCKS, LBIST, MBIST, DRAM, NVM and the choice of an
image, and the key-wrapping keys (R380, R382, R416, R497, R503 to R511, R516, R517, R540, R541). -/

namespace Sys2Proof.Machine

/-! ## Image headers (R507, R508) -/

/-- A field of an image header is within its range, and every reserved byte is 0. -/
def headerFits (h : Bytes) : Bool :=
  let len := fieldLE h 8 4
  let recs := fieldLE h 24 4
  let off := fieldLE h 28 4
  decide (512 ≤ len) && decide (len ≤ 268435456) && len % 64 = 0 && decide (fieldLE h 16 1 ≤ 63) && decide (fieldLE h 17 1 < 8) &&
    decide (fieldLE h 18 2 < 2) && decide (1 ≤ recs) && decide (recs ≤ 1048576) && decide (256 ≤ off) && decide (off + 64 ≤ len) &&
    off % 8 = 0 && (slicePad h 112 136).all (· = 0) && fieldLE h 252 4 = 0

/-- R508: causes 1 to 6 of a slot of `room` bytes, or 0. -/
def slotCause (die : Die) (room : Nat) (bs : Bytes) : Nat :=
  let h := slicePad bs 0 256
  if fieldLE h 0 4 != 0x45525448 || fieldLE h 4 2 != 1 || fieldLE h 6 2 != 256 then 1
  else if fieldLE h 248 4 != (crc32c (h.take 248)).toNat || !headerFits h then 2
  else if room < fieldLE h 8 4 then 3
  else if fieldLE h 17 1 / 2 ^ (die.variant - 1) % 2 = 0 then 4
  else if fieldLE h 16 1 < die.floor then 5
  else if sha256 (slicePad h 32 64) != die.keyHash then 6
  else 0

/-- R509: the signature of an image that is complete. -/
def signed (img : Bytes) : Bool :=
  let n := img.length
  ecdsaOk (fieldLE img 32 32) (fieldLE img 64 32) (fieldLE img (n - 64) 32) (fieldLE img (n - 32) 32)
    (sha256 (img.take (n - 64))).toNat

/-- R505: the smallest divider from 7 to 32 whose rate of FCLK (800 MHz) does not exceed `khz`. -/
def flashDiv (khz : Nat) : Option Nat := ((List.range 26).map (· + 7)).find? (fun n => decide (800000 ≤ khz * n))

/-- R505: the fastest read mode that the table declares with a rate the module can reach: MODE and DIV of BCL_NVM. -/
def flashMode (t : Sfdp) : Option (Nat × Nat) :=
  let try_ := fun (m : Nat) (k : Option Nat) => (k.bind flashDiv).map (fun n => (m, n))
  (try_ 2 t.khz144).orElse (fun _ => (try_ 1 t.khz114).orElse (fun _ => try_ 0 t.khz111))

/-- R512: the record headers of an image up to the first that does not fit: index, offset of the body and the record. -/
def recordsFrom : Nat → Nat → Bytes → List (Nat × Bytes)
  | 0, _, _ => []
  | n + 1, i, bs =>
    let len := fieldLE bs 4 4
    if bs.length < 16 || len < 16 || len % 8 != 0 || bs.length < len then []
    else (i, bs.take len) :: recordsFrom n (i + 1) (bs.drop len)

/-- The records of an image, as far as their headers can be followed. -/
def imageRecords (img : Bytes) : List (Nat × Bytes) :=
  let off := fieldLE img 28 4
  recordsFrom (fieldLE img 24 4) 0 ((img.drop off).take (img.length - 64 - off))

namespace State

/-! ## CLOCKS to DRAM -/

/-- R503: the module has power and its pins allow start-up: CLOCKS. -/
def leaveReset (s : State) : State :=
  { s with pins := { s.pins with supplyGood := true, modEn := true, rstN := true, presentN := false } }.enterPhase 1

/-- R474, R481, R517, R543: what power loss clears beyond a reset; the island keeps its bytes on VBAT. -/
def powerLoss (s : State) (islandKept : Bool) : State :=
  let s := s.chipReset 0
  let s := s.setReg Reg.CRU_CRSTS 0
  { s with boot := { s.boot with failedStarts := 0 }, die := { s.die with cycle := [] },
           island := if islandKept then s.island else List.replicate 256 0 }

/-- R154, R497: a physical ridge that logic BIST found failing is retired; its logical ridge moves to the spare, and no spare
is left. -/
def bistRidge (s : State) (p : Nat) : State :=
  let rs := s.rdg.ridges.map (fun (g : Ridge) => if g.phys = p then { g with phys := s.ridgeCount } else g)
  let s := { s with rdg := { s.rdg with ridges := rs, spare := none, rotHalt := true, retired := setBit s.rdg.retired p true } }
  ((s.event Reg.RDG_EVENT 5).raise Src.RDG_ROTATION_HALTED).event Reg.BST_BOOT 4

/-- R497: a core pair that logic BIST found failing is retired. -/
def bistPair (s : State) (p : Nat) : State :=
  { s with seq := { s.seq with retired := setBit s.seq.retired p true,
                               pairs := upd s.seq.pairs p (fun k => { k with inService := false }) } }.event Reg.BST_BOOT 5

/-- R497: the result of logic BIST.  More than one failing ridge is a failure: one spare replaces one ridge. -/
def logicBist (s : State) (ridges pairs : List Nat) (other : Bool) : State :=
  let rs := (ridges.filter (fun p => decide (p ≤ s.ridgeCount))).eraseDups
  let ps := (pairs.filter (fun p => decide (p < 4))).eraseDups
  if other || 4 ≤ ps.length || 2 ≤ rs.length then s.phaseFails 3
  else
    let s := s.event Reg.BST_BOOT 0
    let s := ps.foldl (fun s p => s.bistPair p) (rs.foldl (fun s p => s.bistRidge p) s)
    (if rs.isEmpty && ps.isEmpty then s else s.bootFlag 7).enterPhase 3

/-- R380: the spares of a pool that are taken, of rows or of columns. -/
def sparesUsed (s : State) (pool : Nat) (column : Bool) : Nat :=
  ((s.die.factory ++ s.die.field ++ s.die.cycle).filter (fun e => e.1 = pool && e.2.1 = column)).length

/-- R380, R382: one failing element; none when it cannot be mapped. -/
def mapElement (s : State) (f : MbistFail) : Option State :=
  let e := (f.pool, f.column, f.index)
  if (s.die.factory ++ s.die.field ++ s.die.cycle).contains e || !(f.nominal || f.margin) then some s
  else if (if f.column then s.die.spareCols else s.die.spareRows) ≤ s.sparesUsed f.pool f.column then none
  else if f.nominal && f.margin then
    if 32 ≤ (s.die.field.filter (fun x => x.1 = f.pool)).length then none
    else some ({ s with die := { s.die with field := s.die.field ++ [e] } }.event Reg.BST_BOOT 2)
  else some ({ s with die := { s.die with cycle := s.die.cycle ++ [e] } }.event Reg.BST_BOOT 3)

/-- R380: the elements in order. -/
def mapElements : State → List MbistFail → Option State
  | s, [] => some s
  | s, f :: fs => match s.mapElement f with
    | none => none
    | some t => mapElements t fs

/-! ## NVM (R505 to R511) -/

/-- R511: an image is in the image area and verified; KEYS begins. -/
def imageChosen (s : State) (slot : Nat) (img : Bytes) : State :=
  let s := { s with boot := { s.boot with slot := slot, image := img, ratchet := fieldLE img 18 2 % 2 = 1 } }
  let s := s.setRfld Reg.BCL_SLOTS 16 1 slot
  let s := s.setReg Reg.BCL_SEQNUM (BitVec.ofNat 32 (fieldLE img 12 4))
  let s := s.setReg Reg.BCL_COMPAT (BitVec.ofNat 32 (fieldLE img 20 4))
  (s.setRfld Reg.BCL_SECVER 0 6 (fieldLE img 16 1)).enterPhase 6

/-- R508: the cause of a slot. -/
def setSlotCause (s : State) (slot cause : Nat) : State := s.setRfld Reg.BCL_SLOTS (8 * slot) 4 cause

/-- R511: the slots that may be loaded are copied and checked in order; without one, start-up fails with NO_IMAGE, or with
CONFIG once an image has failed under R513 (R514). -/
def chooseImage : State → List (Nat × Bytes) → State
  | s, [] => if s.rfld Reg.BCL_SLOTS 0 4 = 8 || s.rfld Reg.BCL_SLOTS 8 4 = 8 then s.phaseFails 8 else s.phaseFails 7
  | s, (slot, bs) :: rest =>
    let img := slicePad bs 0 (fieldLE bs 8 4)
    if signed img then (s.setSlotCause slot 0).imageChosen slot img else chooseImage (s.setSlotCause slot 7) rest

/-- R508, R511: both slots are classified, the one with the higher SEQNUM first; a slot whose image failed under R513 keeps
its cause. -/
def readFlash (s : State) (t : Sfdp) (a b : Bytes) : State :=
  let room := min (2 ^ t.log2Bytes / 2) 268435456
  let judge := fun (s : State) (slot : Nat) (bs : Bytes) =>
    if s.rfld Reg.BCL_SLOTS (8 * slot) 4 = 8 then s else s.setSlotCause slot (slotCause s.die room bs)
  let s := judge (judge s 0 a) 1 b
  let good := fun (slot : Nat) => s.rfld Reg.BCL_SLOTS (8 * slot) 4 = 0
  let order := if fieldLE a 12 4 < fieldLE b 12 4 then [(1, b), (0, a)] else [(0, a), (1, b)]
  let order := order.filter (fun z => good z.1)
  let usable := (order.map (fun z => 2 ^ z.1)).sum
  { s with boot := { s.boot with usable := usable } }.chooseImage order

/-- R505, R511: NVM. -/
def nvm (s : State) (sfdp : Option Sfdp) (a b : Bytes) : State :=
  let s := s.setRfld Reg.BCL_SECVER 8 6 s.die.floor
  match sfdp.bind (fun t => (flashMode t).map (fun m => (t, m))) with
  | none => s.phaseFails 6
  | some (t, m) =>
    let wide := if 24 < t.log2Bytes then 1 else 0
    let v : BitVec 32 := setFld (setFld (setFld (setFld 0 0 5 t.log2Bytes) 5 1 wide) 6 2 m.1) 8 5 m.2
    (s.setReg Reg.BCL_NVM v).readFlash t a b

/-! ## KEYS (R416, R418) -/

/-- R416, R512: the envelope for key-wrapping key `k` of this device. -/
def kekEnvelope (s : State) (k : Nat) : Option Bytes :=
  ((imageRecords s.boot.image).find? (fun r =>
    fieldLE r.2 0 2 = 0x0D && fieldLE r.2 8 4 = k && fieldLE r.2 16 8 = s.die.devid.toNat && r.2.length = 64)).map
      (fun r => slicePad r.2 24 40)

/-- R416: the key-wrapping keys are unwrapped under the device-unique key; one that is missing or fails is flagged. -/
def loadKeks (s : State) : State :=
  let ks := (List.range 4).map (fun k => (s.kekEnvelope k).bind (fun e => unwrapKey s.die.wrapKey e))
  let s := { s with mv := { s.mv with keks := ks } }
  let s := s.setReg Reg.CRY_KEK (maskOf 32 ((List.range 4).filter (fun k => (nth ks k none).isSome)))
  (if ks.any (fun k => k.isNone) then s.bootFlag 1 else s).enterPhase 7

end State

/-! ## The commands -/

/-- R503, R537, R540: with `cold`, power had been lost before. -/
def execPowerUp (cold islandKept : Bool) (s : State) : Out :=
  if cold then done ((s.powerLoss islandKept).leaveReset)
  else if s.boot.phase = 0 && !s.boot.failed then done s.leaveReset
  else .next s

/-- R290, R516, R517. -/
def execRstNLow (s : State) : Out :=
  let s := s.chipReset 1
  done { s with pins := { s.pins with rstN := false }, boot := { s.boot with failedStarts := 0 } }

/-- R290, R516, R517. -/
def execModEnLow (s : State) : Out :=
  let s := s.chipReset 3
  done { s with pins := { s.pins with modEn := false } }

/-- R290, R541; a module in FAILED stays there (R516). -/
def execPresentNRise (s : State) : Out :=
  if s.boot.failed then .next { s with pins := { s.pins with presentN := true } }
  else
    let s := s.chipReset 4
    done { s with pins := { s.pins with presentN := true } }

/-- R503, R454. -/
def execRpllLock (s : State) : Out :=
  if s.boot.phase = 1 && !s.boot.failed then done ({ s with clk := { s.clk with released := true } }.enterPhase 2)
  else .next s

/-- R516. -/
def execRpllLockTimeout (s : State) : Out :=
  if s.boot.phase = 1 && !s.boot.failed then done (s.phaseFails 1) else .next s

/-- R497, R498. -/
def execLbistDone (failRidges failPairs : List Nat) (otherFail : Bool) (s : State) : Out :=
  if s.boot.phase = 2 && !s.boot.failed then done (s.logicBist failRidges failPairs otherFail) else .next s

/-- R380, R382. -/
def execMbistDone (fails : List MbistFail) (s : State) : Out :=
  if s.boot.phase = 3 && !s.boot.failed then
    match s.mapElements fails with
    | none => done (s.phaseFails 4)
    | some t => done ((t.event Reg.BST_BOOT 1).enterPhase 4)
  else .next s

/-- R376, R516. -/
def execDramInitDone (trainFail : List Nat) (zeroFail : Bool) (s : State) : Out :=
  if s.boot.phase = 4 && !s.boot.failed then
    done (if zeroFail || !trainFail.isEmpty then s.phaseFails 5 else s.enterPhase 5)
  else .next s

/-- R505 to R511. -/
def execImageVerified (sfdp : Option Sfdp) (slotA slotB : Bytes) (s : State) : Out :=
  if s.boot.phase = 5 && !s.boot.failed then done (s.nvm sfdp slotA slotB) else .next s

/-- R416. -/
def execKeysLoaded (s : State) : Out :=
  if s.boot.phase = 6 && !s.boot.failed then done s.loadKeks else .next s

end Sys2Proof.Machine
end

