-- ==== Sys2Proof/Machine/Timebase.lean ====
section
/-! DEFINITION. The timebase's rate and phase and the trigger channels with the edges of the camera pipelines (R455 to R460,
R465, R467). -/

namespace Sys2Proof.Machine

namespace State

/-! ## Rate and phase (R455 to R458) -/

/-- R457: the contexts that may write INC and ADJ; 0 in ETH_CTRL.OWNER is the supervisor. -/
def mayTime (s : State) (w : Nat) : Bool :=
  let owner := s.rfld Reg.ETH_CTRL 8 6
  !s.follows && s.rfld Reg.TIM_CTRL 0 2 = 1 && w != 0 && (w = s.super || w = owner)

/-- R455: 4.9975 to 5.0025 ns, in 2⁻³² ns. -/
def incFits (inc : Nat) : Bool := 49975 * 2 ^ 32 ≤ inc * 10000 && inc * 10000 ≤ 50025 * 2 ^ 32

/-- R455, R458: the increment whose low half TIM_INC_LO holds comes into force. -/
def setInc (s : State) (inc : Nat) : State :=
  let s := s.setReg Reg.TIM_INC_HI (setFld 0 0 3 (inc / 2 ^ 32))
  let s := s.setRfld Reg.TIM_STAT 2 1 0
  { s with clk := { s.clk with inc := inc, incAt := s.now } }

/-- R455, R458: a write of TIM_INC_HI. -/
def incWrite (s : State) (w : Nat) (hi : BitVec 32) : State × RegResult :=
  let inc := (s.reg Reg.TIM_INC_LO).toNat + 2 ^ 32 * fld hi 0 3
  if !s.mayTime w then (s, .perm)
  else if !incFits inc then (s.event Reg.TIM_EVENT 0, .ok)
  else (s.setInc inc, .ok)

/-- R456: the build states in which the count may not step. -/
def stepBarred (s : State) : Bool :=
  s.mot.bstate = 1 || s.mot.bstate = 3 || s.mot.bstate = 4 || s.trg.any (fun g => g.armed)

/-- R456: TIM_ADJ_HI is written, with the low half in TIM_ADJ_LO: a slew (MODE 0) or a step (MODE 1). -/
def adjust (s : State) (hi : BitVec 32) : State :=
  let off := sInt 40 ((s.reg Reg.TIM_ADJ_LO).toNat + 2 ^ 32 * fld hi 0 8) * 2 ^ 32
  let s := s.setReg Reg.TIM_ADJ_HI (setFld (setFld 0 0 8 (fld hi 0 8)) 8 1 (fld hi 8 1))
  if !bit hi 8 then { s with clk := { s.clk with slew := off } }
  else if s.stepBarred then s.event Reg.TIM_EVENT 1
  else { s with clk := { s.clk with ticks := uNat 96 ((s.clk.ticks : Int) + off) } }

/-- R456: a write of TIM_ADJ_HI. -/
def adjWrite (s : State) (w : Nat) (hi : BitVec 32) : State × RegResult :=
  if !s.mayTime w then (s, .perm) else (s.adjust hi, .ok)

/-- R10, R303, R321, R457: what a link writes after a TIME exchange: the offset to TIM_ADJ, as a slew or a step, and
TIM_INC.  Which increment, the spec does not give: a free value in R455's range (log entry 28). -/
def linkTime (s : State) (off : Int) (step : Bool) : State :=
  let low := (49975 * 2 ^ 32 + 9999) / 10000
  let (v, s) := s.draw
  let inc := low + v.toNat % (50025 * 2 ^ 32 / 10000 - low + 1)
  let s := (s.setReg Reg.TIM_INC_LO (BitVec.ofNat 32 inc)).setInc inc
  let n := uNat 40 off
  (s.setReg Reg.TIM_ADJ_LO (BitVec.ofNat 32 n)).adjust (setBit (BitVec.ofNat 32 (n / 2 ^ 32)) 8 step)

/-- R458: no INC write for HOLD_MS. -/
def holdover (s : State) : State :=
  let lim := s.rfld Reg.TIM_CTRL 8 8 * 100000000
  if s.rfld Reg.TIM_CTRL 0 2 = 1 && !s.follows && !s.rbit Reg.TIM_STAT 2 && decide (s.clk.incAt + lim ≤ s.now) then
    ((s.setRfld Reg.TIM_STAT 2 1 1).event Reg.TIM_EVENT 2).raise Src.TIM_PTP_HOLDOVER
  else s

/-! ## Trigger channels (R460) -/

/-- R465: the pipeline of a channel runs. -/
def pipeOn (s : State) (p : Nat) : Bool := s.unitPresent 0x28 && s.rbit (Reg.CAM_CFG p) 0

/-- R460, R464: who may write a channel. -/
def mayTrigger (s : State) (w k : Nat) : Bool :=
  w != 0 && (w = s.super || (s.unitPresent 0x28 && w = s.rfld (Reg.CAM_CFG (k % 2)) 8 6))

def trigger (s : State) (k : Nat) : Trigger := nth s.trg k Trigger.reset

def updTrigger (s : State) (k : Nat) (f : Trigger → Trigger) : State := { s with trg := upd s.trg k f }

/-- T of a channel, in ns. -/
def triggerT (s : State) (k : Nat) : Nat := (s.reg (Reg.TIM_TRG_TLO k)).toNat + 2 ^ 32 * (s.reg (Reg.TIM_TRG_THI k)).toNat

/-- R460: a write of TIM_TRG_CTL[k]. -/
def trgCtl (s : State) (w k : Nat) (v : BitVec 32) : State × RegResult :=
  if !s.mayTrigger w k then (s, .perm)
  else
    let v := setBit v 2 false
    let v := setFld v 3 5 0
    let v := setFld v 24 8 0
    if !bit v 0 then ((s.updTrigger k (fun g => { g with armed := false })).setReg (Reg.TIM_TRG_CTL k) v, .ok)
    else
      let late := decide (s.triggerT k < s.now)
      let s := s.updTrigger k (fun _ => { armed := true, nextAt := s.triggerT k })
      let s := (s.setReg (Reg.TIM_TRG_CTL k) (setBit v 2 late)).setReg (Reg.TIM_TRG_DONE k) 0
      (if late then s.event Reg.TIM_EVENT 3 else s, .ok)

/-- R460: a pulse starts at `at64`, in 1/64 PCLK (78.125 ps), `width` times 5 ns wide, in the polarity of channel `k`. -/
def pulseOut (s : State) (k at64 width : Nat) : State := s.emit (.trigger k at64 (max 1 width) (s.rbit (Reg.TIM_TRG_CTL k) 1))

/-- R460: where a DSTB edge of its own channel stands, to 78.125 ps: the fraction of the timebase says how long ago, within
the last PCLK, T fell; one that is past by more falls at once (log entry 180). -/
def strobePlace (s : State) (t : Nat) : Nat :=
  let d := s.clk.ticks - t * 2 ^ 32
  64 * s.clk.pclk - (if d < s.clk.inc then (64 * d + s.clk.inc - 1) / s.clk.inc else 0)

/-- R465: the strobe pulses of an edge: one or two from SCOUNT (3 is reserved: a free number of them, log entry 43). -/
def strobeEdges (s : State) (p : Nat) : State :=
  let c := nth (s.pipe p).inForce 9 (0 : BitVec 32)
  let (v, s) := if fld c 12 2 = 3 then s.draw else (BitVec.ofNat 64 (fld c 12 2), s)
  let n := v.toNat % 3
  let at_ := 64 * s.clk.pclk + fld (nth (s.pipe p).inForce 7 (0 : BitVec 32)) 0 24
  let s := if 1 ≤ n then s.pulseOut (p + 2) at_ (fld c 0 12) else s
  if n = 2 then s.pulseOut (p + 2) (at_ + 64 * fld c 16 16) (fld c 0 12) else s

/-- R467, R468: an edge enters the pipeline's queue of 8. -/
def queueEdge (s : State) (p : Nat) : State :=
  let fseq := ((s.pipe p).fseq + 1) % 2 ^ 32
  let s := if 8 ≤ (s.pipe p).queue.length then
      ((s.count (Reg.CAM_MISSED p) 1).event Reg.CAM_EVENT 2).raise Src.CAM_FRAME_MISSED
    else s
  let now := s.now
  s.updPipe p (fun k =>
    let e : TrigEntry := { fseq := fseq, gen := k.gen, at_ := now, settings := k.inForce }
    { k with fseq := fseq, queue := k.queue.drop (k.queue.length - 7) ++ [e] })

/-- R460, R465: the pulse of an edge of channel `k` that was due at `t`: CTRG on PCLK, for EXPOSE where its pipeline runs and
EXPOSE is not 0; DSTB of a channel without a pipeline to the fraction of a PCLK. -/
def edgeOut (s : State) (k t : Nat) : State :=
  let expose := if k < 2 && s.pipeOn k then fld (nth (s.pipe k).inForce 8 (0 : BitVec 32)) 0 16 else 0
  s.pulseOut k (if k < 2 then 64 * s.clk.pclk else s.strobePlace t) (if expose = 0 then s.rfld (Reg.TIM_TRG_CTL k) 8 16 else expose)

/-- R460, R465: an edge of a channel falls; COUNT is judged as it stands at the edge. -/
def triggerFalls (s : State) (k : Nat) : State :=
  let g := s.trigger k
  if !g.armed || s.now < g.nextAt || (2 ≤ k && s.pipeOn (k - 2)) then s
  else
    let per := (s.reg (Reg.TIM_TRG_PER k)).toNat
    let due := s.reg (Reg.TIM_TRG_DONE k) + 1
    let count := s.reg (Reg.TIM_TRG_CNT k)
    let past := per = 0 || (count != 0 && decide (count ≤ due))
    let next := if per = 0 then g.nextAt else g.nextAt + ((s.now - g.nextAt) / per + 1) * per
    let s := s.updTrigger k (fun _ => { armed := !past, nextAt := next })
    let s := if past then s.setRfld (Reg.TIM_TRG_CTL k) 0 1 0 else s
    let s := (s.setReg (Reg.TIM_TRG_DONE k) due).edgeOut k g.nextAt
    if k < 2 && s.pipeOn k then (s.strobeEdges k).queueEdge k else s

end State

/-! ## The commands -/

/-- R455, R457. -/
def execTimIncWrite (w : Nat) (hi : Word) (s : State) : Out :=
  whenClocked s (fun s => State.wrote (s.incWrite w hi) w Reg.TIM_INC_HI)

/-- R456, R457: MODE 0. -/
def execTimAdjSlew (w : Nat) (hi : Word) (s : State) : Out :=
  whenClocked s (fun s => State.wrote (s.adjWrite w (setBit hi 8 false)) w Reg.TIM_ADJ_HI)

/-- R456, R457: MODE 1. -/
def execTimAdjStep (w : Nat) (hi : Word) (s : State) : Out :=
  whenClocked s (fun s => State.wrote (s.adjWrite w (setBit hi 8 true)) w Reg.TIM_ADJ_HI)

/-- R458. -/
def execPtpHoldover (t : Nat) (s : State) : Out := whenClocked s (fun s => (s.at_ t).holdover)

/-- R460: ARM is set. -/
def execTriggerArm (w k : Nat) (ctl : Word) (t : Nat) (s : State) : Out :=
  whenClocked s (fun s => State.wrote ((s.at_ t).trgCtl w k (setBit ctl 0 true)) w (Reg.TIM_TRG_CTL k))

/-- R460, R465, R467. -/
def execTriggerEdge (k t : Nat) (s : State) : Out := whenClocked s (fun s => (s.at_ t).triggerFalls k)

end Sys2Proof.Machine
end

