-- ==== Sys2Proof/Machine/Twin.lean ====
section
/-! DEFINITION. The twin pair (R289 to R316): frames, roles, the line comparison and its tie-break, takeover, handover and the
sync of a joiner. -/

namespace Sys2Proof.Machine

namespace State

/-! ## Frames (R314, R315) -/

/-- R315: an acknowledgement; it makes room for frames that wait. -/
def twinAck (s : State) (tack : Nat) : State :=
  let s := s.heardOn .twin
  twinPump { s with twn := { s.twn with peerAck := tack, unacked := s.twn.unacked.filter (fun z => !seqUpTo z.1 tack) } }

/-- R315: a frame that fails its CRC is discarded, and one that carries a TSEQ is delivered only in order; `true` says that this
one is. -/
def twinIn (s : State) (h : FrameHdr) : State × Bool :=
  if !h.good then (s, false) else
  let s := s.twinAck h.tack
  if h.tseq = s.twn.rxNext then ({ s with twn := { s.twn with rxNext := (h.tseq + 1) % 2 ^ 32 } }, true) else (s, false)

/-- R293: a RETIRED module has left the pair, and before LANES the link is in DEEP (R504). -/
def twinListens (s : State) : Bool :=
  s.clk.released && !s.boot.failed && s.twn.linkUp && s.linkActive .twin && s.twn.role != 5

/-- R308: a standby applies what is mirrored to it; a joiner does so once BULK is complete. -/
def twinApplies (s : State) : Bool := s.running && (s.twn.role = 3 || (s.twn.role = 4 && 3 ≤ s.twn.phase))

/-- The ordinal of a line of a planned swath or of the state window. -/
def ordOf (s : State) (p : BuildPos) : Option Nat :=
  match s.crn.window.find? (fun l => l.layer = p.layer && l.swath = p.swath && l.line = p.line) with
  | some l => some l.ord
  | none => (s.planned.find? (fun w => w.plan.layer = p.layer && w.plan.swath = p.swath && planHas w.plan p.line)).map
      (fun w => w.firstOrd + (planIndex w.plan p.line).toNat)

/-- R310: whether lines of a swath are compared by twin: from the first line of the join swath on. -/
def byTwin (s : State) (layer swath : Nat) : Bool :=
  s.twn.role = 3 || (s.twn.role = 2 && (match s.twn.joinSwath with
    | some j => !swathBefore layer swath j.1 j.2
    | none => false))

/-! ## Sync (R308 to R313) -/

/-- R312: a sync fails: the copies are discarded and it starts again from BULK, or the module retires. -/
def syncFail (s : State) (cause : Nat) : State :=
  let left := decide (s.twn.retries < s.rfld Reg.TWN_LIMITS 12 4)
  let s := { s with twn := { s.twn with cause := cause, copies := [], retries := min 15 (s.twn.retries + 1),
                                        phase := if left && cause != 1 then 2 else 0 } }
  let s := s.event Reg.TWN_EVENT 7
  if left then s else (s.raise Src.TWN_SYNC_FAIL).retire

/-- R315, R292, R293: the twin link is lost. -/
def twinLost (s : State) : State :=
  if !s.twn.linkUp then s
  else
    let s := { s with twn := { s.twn with linkUp := false, txNext := 0, rxNext := 0, peerAck := 0, unacked := [], waiting := [],
                                          segment := none, idBad := false, idTold := false,
                                          timePeer := none, peerSlotB := none } }
    let s := (s.event Reg.TWN_EVENT 2).raise Src.TWN_TWIN_LINK
    match s.twn.role with
    | 1 => { s with twn := { s.twn with phase := 0 } }
    | 2 => ({ s with twn := { s.twn with handover := none, joinSwath := none, ties := [] } }).setRole 1
    | 3 => if s.pins.tpeer then ({ s with twn := { s.twn with phase := 0, ties := [] } }).setRole 4 else s
    | 4 => if s.twn.phase != 0 then s.syncFail 1 else s
    | _ => s

/-- R2, R313: the identities are compared; with a mismatch no sync runs. -/
def compareIds (s : State) : State :=
  { s with twn := { s.twn with
      idBad := s.twn.peerVariant != s.die.variant || s.twn.peerCompat != s.reg Reg.BCL_COMPAT } }

/-- R2, R307: a joiner reports the mismatch, once. -/
def tellIds (s : State) : State :=
  if s.twn.idBad && !s.twn.idTold && s.twn.role = 4 then
    ({ s with twn := { s.twn with idTold := true } }.event Reg.TWN_EVENT 8).raise
      (if s.twn.peerVariant != s.die.variant then Src.TWN_VARIANT_MISMATCH else Src.TWN_IMAGE_MISMATCH)
  else s

/-- R308: the owner copies every object to a joiner in BULK, and those that are not tracked at ALIGN only once more in DELTA
(log entry 27); object 8 goes by the AXIS frames. -/
def startCopies (s : State) : State :=
  let s := { s with twn := { s.twn with phase := 3, object := 9, joinSwath := none } }
  let s := ((List.range 9).map (· + 1)).foldl (fun s obj => s.sendObject obj false) s
  [1, 2, 4, 5, 6, 7].foldl (fun s obj => s.sendObject obj true) s

/-! ## Start-up and role changes (R293, R294) -/

/-- R293, R310: what the peer's role changes in this module's. -/
def peerRoleActs (s : State) : State :=
  let p := s.twn.peerRole
  match s.twn.role with
  | 0 => s.startDecision
  | 1 =>
    if p = 4 && !s.twn.idBad && s.twn.phase = 0 then s.startCopies
    else if p = 3 && s.twn.phase = 4 then ({ s with twn := { s.twn with phase := 0 } }).setRole 2
    else if p != 4 && s.twn.phase != 0 && p != 3 then { s with twn := { s.twn with phase := 0 } }
    else s
  | 2 =>
    if p != 3 && !s.twn.handover.any (· != 0) then
      ({ s with twn := { s.twn with handover := none, joinSwath := none, ties := [] } }).setRole 1
    else s
  | 4 =>
    if p = 1 || p = 2 then (if !s.twn.idBad && s.twn.phase = 0 then { s with twn := { s.twn with phase := 1 } } else s)
    else if s.twn.phase != 0 then s.syncFail 5
    else s
  | _ => s

/-! ## Takeover and handover (R304 to R306) -/

/-- R222: the body of PORT_SELECT: TKN, PORT and FIRST_LSEQ. -/
def portSelectBody (s : State) : Bytes :=
  leBytes 2 s.hlk.tkn ++ [if s.hlk.portB then 1 else 0, 0] ++ leBytes 4 s.hlk.lseq ++ List.replicate 8 0

/-- R304 steps 2 and 3, R306: the head drivers are selected: TKN is one above the highest mirrored, FIRST_LSEQ one above
the highest LSEQ mirrored. -/
def selectPorts (s : State) : State :=
  let first := match s.twn.topLseq with
    | some q => (q + 1) % 2 ^ 32
    | none => s.hlk.lseq
  let u := s.firstUntx
  let s := { s with
    hlk := { s.hlk with tkn := (s.twn.topTkn + 1) % 65536, lseq := first, selecting := !s.linksUsed.isEmpty, portB := s.pins.tws },
    crn := { s.crn with crossed := max s.crn.freed u },
    twn := { s.twn with takeoverFrom := some u, topTkn := (s.twn.topTkn + 1) % 65536 } }
  s.linksUsed.foldl (fun s l => s.sendOrder l s.hlk.tkn true (s.orderHdr l 0x31) s.portSelectBody) s

/-- R252, R304 step 1: the planner goes on from the last mirrored state of every axis: what was in progress is planned again
at the next servo tick, toward the same targets. -/
def axesGoOn (s : State) : State :=
  if s.plans then
    (List.range 4).foldl (fun s a => s.updAxis a (fun x =>
      { x with replan := x.moving, segs := [], base := x.pos, began := s.lastTick, asks := [] })) s
  else s

/-- R304 step 6: the streams are asked for again, the scree log exported again and the last CAIRN_ACK of each context
sent again. -/
def takeoverLinks (s : State) : State :=
  let s := (List.range 64).foldl (fun s x => if (s.stream x).opened then s.sendSegReq x false else s) s
  let s := (List.range 4).foldl (fun s l => s.reexport l) s
  (List.range 64).foldl (fun s x =>
    match (s.stream x).ackMsg, s.streamLink x with
    | some m, some l => s.upMsg l m
    | _, _ => s) s

/-- R198, R207: at a takeover, a test of the old module that has no record counts as aborted (log entry 165); a plan that
is staged is decided. -/
def actGoesOn (s : State) : State :=
  if s.act.phase = 2 then s.recordPlan s.clk.pclk [] []
  else if s.act.staged && !s.act.pending then s.decideCommit
  else s

/-- R304: the standby becomes SOLO. -/
def takeover (s : State) : State :=
  let s := { s with twn := { s.twn with phase := 0, joinSwath := none, ties := [], handover := none } }
  let s := ((s.setRole 1).event Reg.TWN_EVENT 1).count Reg.TWN_TAKEOVERS 1
  let s := ((s.raise Src.TWN_TAKEOVER).obsCount 9).axesGoOn.selectPorts.takeoverLinks
  s.actGoesOn

/-- R292, R293: TPEER has been silent for TK_DETECT. -/
def peerSilent (s : State) : State :=
  let s := { s with pins := { s.pins with tpeer := false } }
  match s.twn.role with
  | 3 => s.takeover
  | 4 => ((s.event Reg.TWN_EVENT 7).raise Src.TWN_SYNC_FAIL).retire
  | _ => s

/-- R306: the servo tick named in the HANDOVER frame. -/
def handoverTick (s : State) : State :=
  match s.twn.handover with
  | none => s
  | some t =>
    if t = 0 || s.now < t then s
    else
      let s := { s with twn := { s.twn with handover := none } }
      match s.twn.role with
      | 2 => s.setRole 3
      | 3 => ((s.setRole 2).axesGoOn).selectPorts
      | _ => s

/-! ## Comparison (R297 to R302) -/

/-- R297: a CRC record of the peer. -/
def twinValue (s : State) (p : BuildPos) (i epoch : Nat) (v : BitVec 32) : State :=
  match s.ordOf p with
  | some q => if s.byTwin p.layer p.swath || s.twn.role = 4 then s.valueArrives q i (BitVec.ofNat 8 epoch) v else s
  | none => s

/-- R301: the logical ridge under full shadow in a swath. -/
def shadowRidge (s : State) (p : SwathPlan) : Nat := p.swtag % s.ridgeCount

/-- R301, R302: the shadow value of a posted slice: the spare's CRC for the shadowed ridge, and for every other one the CRC
of the ring's bytes and the void records. -/
def shadow (s : State) (i : Nat) (p : BuildPos) (spare : Option (BitVec 32)) : State :=
  match s.ordOf p, s.planOf p.layer p.swath with
  | some q, some plan =>
    match s.rline q i with
    | none => s
    | some k =>
      if !s.owns || s.byTwin p.layer p.swath || k.st != 2 then s
      else if i = s.shadowRidge plan && !s.rdg.rotHalt && s.rdg.spare.isSome then
        match spare with
        | some v => s.valueArrives q i k.epoch v
        | none => s
      else
        s.valueArrives q i k.epoch (sliceCrc (s.ringSlice q i).1 k.voids)
  | _, _ => s

/-! ## Tie-break (R299, R300) -/

def dropTie (s : State) (p : BuildPos) (i : Nat) : State :=
  { s with twn := { s.twn with ties := s.twn.ties.filter (fun t => !(t.pos = p && t.ridge = i)) } }

/-- R300: one more self-fault. -/
def selfFault (s : State) (i : Nat) : State :=
  let n := s.twn.selfFaults + 1
  let s := (s.event Reg.TWN_EVENT 4).raise Src.TWN_RIDGE_DIVERGE
  let s := { s with twn := { s.twn with selfFaults := n }, bist := { s.bist with firstRidge := some (s.ridge i).phys } }
  if s.rfld Reg.TWN_LIMITS 8 4 ≤ n then s.retire else s

/-- R299: the outcome, once both checks are known. -/
def resolveTie (s : State) (p : BuildPos) (i : Nat) : State :=
  match s.twn.ties.find? (fun t => t.pos = p && t.ridge = i) with
  | none => s
  | some t =>
    match t.own, t.peer with
    | some 0, some 0 =>
      let s := ((s.dropTie p i).event Reg.TWN_EVENT 6)
      if s.twn.role = 3 then
        ({ s.raise Src.TWN_INPUT_DIVERGE with twn := { (s.raise Src.TWN_INPUT_DIVERGE).twn with phase := 0 } }).setRole 4
      else if s.twn.role = 2 then ({ s with twn := { s.twn with joinSwath := none } }).setRole 1
      else s
    | some 0, some 1 => s.dropTie p i
    | some 1, some 0 => (s.dropTie p i).selfFault i
    | some _, some _ => ((s.dropTie p i).event Reg.TWN_EVENT 5).raise Src.TWN_TIE_UNDECIDED
    | _, _ => s

/-- The tie of a slice, opened if it is not. -/
def openTie (s : State) (p : BuildPos) (i : Nat) : State :=
  if s.twn.ties.any (fun t => t.pos = p && t.ridge = i) then s
  else { s with twn := { s.twn with ties := s.twn.ties ++ [{ pos := p, ridge := i, own := none, peer := none }] } }

def updTie (s : State) (p : BuildPos) (i : Nat) (f : Tie → Tie) : State :=
  { s with twn := { s.twn with ties := s.twn.ties.map (fun t => if t.pos = p && t.ridge = i then f t else t) } }

/-- R299: the peer's TIEBREAK frame: KINDS that differ explain the mismatch; otherwise its check counts.  A mismatch explained
before this module has sent its own KINDS stays known until it has (3 in the place of the peer's check). -/
def tieFrame (s : State) (p : BuildPos) (i : Nat) (kinds : BitVec 32) (check : Nat) : State :=
  match (s.ordOf p).bind (fun q => s.rline q i) with
  | none => s
  | some k =>
    if k.kinds != kinds then
      let told := s.twn.ties.any (fun t => t.pos = p && t.ridge = i && t.own.isSome)
      let s := if told then s.dropTie p i else (s.openTie p i).updTie p i (fun t => { t with peer := some 3 })
      s.count Reg.TWN_EXPLAINED 1
    else ((s.openTie p i).updTie p i (fun t => { t with peer := some check })).resolveTie p i

/-- R299: the spare has checked the slice, or cannot; a mismatch that is explained has no check. -/
def ownCheck (s : State) (p : BuildPos) (i : Nat) (spare : Option (BitVec 32)) : State :=
  match (s.ordOf p).bind (fun q => s.rline q i) with
  | none => s
  | some k =>
    if !(s.twn.role = 2 || s.twn.role = 3) || !k.mismatch then s
    else
      let busy := s.rdg.rotHalt || (s.rdg.inBist.isSome && s.rdg.inBist = s.rdg.spare) || s.rdg.spare.isNone
      let c := if busy then 2 else match spare with
        | none => 2
        | some v => if k.crc = some v then 0 else 1
      let explained := s.twn.ties.any (fun t => t.pos = p && t.ridge = i && t.peer = some 3)
      let c := if explained then 2 else c
      let s := ((s.openTie p i).updTie p i (fun t => { t with own := some c })).twinSend 0x0E
        (leBytes 4 p.layer ++ leBytes 2 p.swath ++ leBytes 1 i ++ leBytes 1 k.epoch.toNat ++ leBytes 4 (uNat 32 p.line) ++
          leBytes 4 k.kinds.toNat ++ leBytes 1 c ++ List.replicate 7 0)
      if explained then s.dropTie p i else s.resolveTie p i

/-! ## What a standby applies (R295) -/

/-- R97: the outcome of the directive at the head of a stream. -/
def outcome (s : State) (x kind code segno off : Nat) : State :=
  let s := s.goOn x
  match s.headRec x with
  | none => s
  | some r =>
    if r.segno != segno || r.off != off then s
    else if kind = 1 then s.updStream x (fun st => { st with stalled := false, waitStart := none })
    else if kind = 2 then (s.updStream x (fun st => { st with stalled := false })).refuse x r code
    else
      match r.body with
      | .directive typ raw => ((s.updStream x (fun st => { st with stalled := false, waitStart := none })).runDirective x typ raw).popRec x
      | _ => s

/-- R164: a line taken by the owner. -/
def takenRec (s : State) (q : Nat) (r : TxRec) : State :=
  match s.cline q, s.planOf r.layer r.swath with
  | some l, some p =>
    let a := planAt p l.line
    let slices := l.ridges.mapIdx (fun i k => if bit r.ridges i then k.slice.getD (List.replicate 32768 0) else List.replicate 32768 0)
    let s := (List.range 8).foldl (fun s g => (s.ceiling a g slices).1) s
    let s := s.updLine q (fun l =>
      { l with taken := true, lseq := some r.lseq, fromRing := r.ridges,
               ridges := l.ridges.mapIdx (fun i k => { k with st := if bit r.ridges i then 4 else 6 }) })
    let s := s.countHidden l slices
    { s with hlk := { s.hlk with lseq := (r.lseq + 1) % 2 ^ 32 }, crn := { s.crn with lastTaken := some (r.layer, r.swath, r.line) },
             twn := { s.twn with topLseq := some r.lseq } }
  | _, _ => { s with twn := { s.twn with topLseq := some r.lseq } }

/-- R295: one record of a TXREC frame.  RIDGES of a closure or a void order names the ridges it is about; 0 names all (log
entry 166). -/
def txRec (s : State) (r : TxRec) : State :=
  match s.ordOf { layer := r.layer, swath := r.swath, line := r.line } with
  | none => s
  | some q =>
    if r.kind = 0 then s.takenRec q r
    else if r.kind = 1 || r.kind = 2 then
      let named := fun (i : Nat) => r.ridges = 0 || bit r.ridges i
      s.updLine q (fun l =>
        { l with dropped := l.dropped || (r.kind = 2 && !l.taken),
                 ridges := l.ridges.mapIdx (fun i (k : RLine) =>
                   if named i && (k.st = 4 || (r.kind = 2 && !l.taken)) then { k with st := 4 + r.kind } else k) })
    else
      match s.cline q with
      | some l => if l.voidKind.isSome then s else s.voidLine q 0 (if r.ridges = 0 then s.allRidges else r.ridges)
      | none => s

/-- R199, R201, R207, R210: one mirrored record of ACT.  A test record without a shot is that of a col with no test, or with
an aborted one (log entry 155). -/
def actRec (s : State) (r : ActRec) : State :=
  match r with
  | .test _ shots results =>
    let s := { s with act := { s.act with hold := some (s.act.hold.getD s.clk.pclk) } }
    if shots.isEmpty then s.stagePlan results false
    else ({ s with act := { s.act with t := s.act.t + 1 } }.obsCount 8).stagePlan results true
  | .trimAck l => s.trimAcked l
  | .commit => (s.commitPlan false).colDecided
  | .refusal => (s.commitPlan true).colDecided
  | .edit idx val => s.queueEdit idx (val.setWidth 16)

/-- R252: the owner's planner state of one axis. -/
def axisRec (s : State) (a : Nat) (x : AxisState) (moving homed : Bool) : State :=
  let was := (s.axis a).moving
  let s := if was && !moving then s.moveDone a else s
  let s := s.updAxis a (fun k =>
    { k with pos := x.pos, vel := x.vel, acc := x.acc, moving := moving, target := if moving then k.target else x.pos })
  let s := s.stepTo a x.pos
  if homed && s.homeStat a != 2 then
    { s.setHomeStat a 2 with mot := { s.mot with homing := s.mot.homing.filter (· != a) } }
  else if !homed && s.homeStat a = 2 then s.setHomeStat a 8
  else s

/-- R252: a mirrored planner state: the axes, and PLN_STATE of the owner. -/
def axisFrame (s : State) (axes : List AxisState) (st : Word) : State :=
  let s := (axes.zipIdx.take 4).foldl (fun s z => s.axisRec z.2 z.1 (bit st (12 + z.2)) (bit st (8 + z.2))) s
  let b := fld st 0 3
  let s := { s with mot := { s.mot with derate := bit st 7 } }
  if b = s.mot.bstate then s
  else if b = Build.HELD then s.enterHeld
  else
    let s := s.setBuild b
    if b = Build.READY || b = Build.UNHOMED then { s with mot := { s.mot with layer := none, homing := [] } } else s

/-- R8, R242: a write of STB_VTRIM[r]: it applies from the next swath planned after it; bits [31:16] stay 0. -/
def vtrimWrite (s : State) (r : Nat) (v : BitVec 32) : State :=
  let s := s.setReg (Reg.STB_VTRIM r) (BitVec.ofNat 32 (fld v 0 16))
  let tag := s.mot.issued
  let base := match s.stb.vtrimNext.reverse with
    | z :: _ => z.2
    | [] => s.stb.vtrim
  let set := upd base r (fun _ => sInt 16 v.toNat)
  { s with stb := { s.stb with vtrimNext := s.stb.vtrimNext.filter (fun z => z.1 != tag) ++ [(tag, set)] } }

/-- R303: the body of a TIME frame: T1 is the stamp of the peer's last TIME frame, T2 when that arrived here, T3 when this one
leaves; T1 and T2 are 0 before the peer's first (log entry 28). -/
def timeBody (s : State) : Bytes :=
  let z := s.twn.timePeer.getD (0, 0)
  stampBytes z.1 z.2 s.now

/-- R303, R457: a TIME frame of the peer: in STANDBY and SYNCING the timebase follows the owner's by half the difference of
the two ways. -/
def twinTime (s : State) (t1 t2 t3 : Nat) : State :=
  let off : Int := (((t2 : Int) - t1) + ((t3 : Int) - s.now)) / 2
  let s := { s with twn := { s.twn with timePeer := some (t3, s.now) } }
  if s.follows && !(t1 = 0 && t2 = 0) then s.linkTime off false else s

/-! ## SEGMENT and SYNC (R308, R316) -/

/-- R316: the parts of a mirrored segment join; the whole is an arrival of the standby's own (R295). -/
def segmentPart (s : State) (x l part parts segno : Nat) (data : Bytes) : State :=
  let bad := fun (s : State) =>
    let s := { s with twn := { s.twn with segment := none } }
    if s.twn.role = 4 then s.syncFail 4 else s.twinLost
  let open_ : Option MirrorSeg :=
    if part = 0 then some { ctx := x, link := l, segno := segno, parts := parts, next := 0, bytes := [] } else s.twn.segment
  match open_ with
  | none => bad s
  | some g =>
    if g.next != part || g.parts != parts || g.ctx != x || g.segno != segno || parts ≤ part || 4080 < data.length ||
        (part = 0 && s.twn.segment.isSome) then bad s
    else
      let bytes := g.bytes ++ data
      if part + 1 < parts then { s with twn := { s.twn with segment := some { g with next := part + 1, bytes := bytes } } }
      else
        let s := { s with twn := { s.twn with segment := none } }
        if bytes.length != 113 + fieldLE bytes 17 4 then bad s else s.segmentMsg l bytes

/-- R309, R310: ALIGN is complete: the joiner takes over what was copied, and becomes the standby. -/
def joinPair (s : State) : State :=
  let keys := ((s.twn.copies.find? (fun z => z.1 = 4)).bind (fun z => s.readKeys z.2)).getD []
  ({ s.takeKeys keys with twn := { s.twn with phase := 0, retries := 0, copies := [], joinSwath := none } }).setRole 3

/-- R312: what the joiner can hold of a sync object: a KEYS object has one size, and the others lie in its DRAM (log entry 175). -/
def syncRoom (s : State) (obj : Nat) : Nat := if obj = 4 then 772 else Config.dramBytes s.die.variant

/-- R308, R309, R312: a part of a sync object; the last part ends with the object's CRC-32C (log entry 27). -/
def syncPart (s : State) (obj : Nat) (last delta : Bool) (off : Nat) (data : Bytes) : State :=
  if s.twn.role != 4 || s.twn.phase = 0 || s.twn.idBad || obj = 0 || 9 < obj then s
  else if s.syncRoom obj < off + data.length then s.syncFail 6
  else
    let old := ((s.twn.copies.find? (fun z => z.1 = obj)).map Prod.snd).getD []
    let new := slicePad old 0 off ++ data ++ (if last then [] else old.drop (off + data.length))
    let s := { s with twn := { s.twn with
        object := obj, phase := if s.twn.phase = 1 then 2 else if s.twn.phase = 3 && delta && obj = 3 then 4 else s.twn.phase,
        copies := (obj, new) :: s.twn.copies.filter (fun z => z.1 != obj) } }
    if !last then s
    else
      let body := new.take (new.length - 4)
      let s := { s with twn := { s.twn with done := (s.twn.done + new.length / 1048576) % 65536 } }
      if leNat (new.drop (new.length - 4)) != (crc32c body).toNat then s.syncFail 4
      else if obj = 4 && (s.readKeys body).isNone then s.syncFail 3
      else if obj != 9 then s
      else if !delta then { s with twn := { s.twn with phase := 3, done := 0 } }
      else if 3 ≤ s.twn.phase then s.joinPair
      else s

end State

/-- A frame that carries a TSEQ. -/
def twinFrame (s : State) (h : FrameHdr) (o : State → State) : Out :=
  if s.twinListens then
    match s.twinIn h with
    | (s, true) => done (o s)
    | (s, false) => done s
  else .next s

/-- A frame that only a standby, or a joiner past BULK, applies. -/
def twinMirror (s : State) (h : FrameHdr) (o : State → State) : Out :=
  twinFrame s h (fun s => if s.twinApplies then o s else s)

/-! ## Commands -/

/-- R292. -/
def execTpeerSilent (t : Nat) (s : State) : Out := whenClocked s (fun s => (s.at_ t).peerSilent)

/-- R293. -/
def execTwinWaitExpiry (s : State) : Out :=
  whenClocked s (fun s =>
    if s.boot.phase = 11 && s.twn.role = 0 && !s.linkActive .twin && s.rbit Reg.TWN_CTRL 0 then
      s.decideRole (if s.pins.tpeer then 4 else 1)
    else s)

/-- R315. -/
def execTwinIdleAck (tack : Nat) (s : State) : Out := if s.twinListens then done (s.twinAck tack) else .next s

/-- R315. -/
def execTwinRetxTimeout (s : State) : Out :=
  if s.twinListens && !s.twn.unacked.isEmpty then
    done s.twinAgain
  else .next s

/-- R315. -/
def execTwinIdleDue (s : State) : Out :=
  if s.twinListens then done (s.twinEmit 0 s.twn.txNext []) else .next s

/-- R315: no frame for 64 µs. -/
def execTwinLinkLost (s : State) : Out :=
  whenClocked s (fun s =>
    if s.twn.linkUp then ((s.updLink .twin (fun k => { k with st := 1, wasActive := false, lostAt := false })).event Reg.LNP_EVENT 1).twinLost else s)

/-- R293, R313. -/
def execTwinRole (h : FrameHdr) (role slotB tkn variant step : Nat) (compat : BitVec 32) (s : State) : Out :=
  twinFrame s h (fun s =>
    let top := if (tkn + 65536 - s.twn.topTkn) % 65536 < 32768 then tkn else s.twn.topTkn
    let s := { s with
      twn := { s.twn with peerRole := role, peerSlotB := some (slotB % 2 = 1), peerVariant := variant, peerStep := step,
                          peerCompat := compat, topTkn := top },
      pins := { s.pins with tpeer := role = 1 || role = 2 } }
    s.compareIds.peerRoleActs.tellIds)

/-- R295, R316. -/
def execTwinSegment (h : FrameHdr) (x link part parts segno : Nat) (data : Bytes) (s : State) : Out :=
  twinMirror s h (fun s => s.segmentPart x link part parts segno data)

/-- R297. -/
def execTwinCrc (h : FrameHdr) (pos : BuildPos) (ridge epoch : Nat) (crc : BitVec 32) (s : State) : Out :=
  twinFrame s h (fun s => s.twinValue pos ridge epoch crc)

/-- R301. -/
def execShadowValue (ridge : Nat) (pos : BuildPos) (spare : Option (BitVec 32)) (s : State) : Out :=
  whenReady s (fun s => s.shadow ridge pos spare)

/-- R97. -/
def execTwinOutcome (h : FrameHdr) (x kind code segno off : Nat) (s : State) : Out :=
  twinMirror s h (fun s => s.outcome x kind code segno off)

/-- R164. -/
def execTwinTxrec (h : FrameHdr) (recs : List TxRec) (s : State) : Out :=
  twinMirror s h (fun s => recs.foldl (fun s r => s.txRec r) s)

/-- R24, and R22 for a QUOTA entry. -/
def execTwinScree (h : FrameHdr) (entries : List ScreeEntry) (s : State) : Out :=
  twinMirror s h (fun s => entries.foldl (fun s e => (s.screePut e).quotaFollows e) s)

/-- R199. -/
def execTwinActrec (h : FrameHdr) (r : ActRec) (s : State) : Out := twinMirror s h (fun s => s.actRec r)

/-- R252. -/
def execTwinAxis (h : FrameHdr) (_tick : Nat) (axes : List AxisState) (plnState : Word) (s : State) : Out :=
  twinMirror s h (fun s =>
    -- R312: cause PEER when the peer becomes HELD with homing lost while the sync runs
    let lost := fld plnState 0 3 = Build.HELD && s.mot.bstate != Build.HELD &&
      (List.range 4).any (fun a => s.homeStat a = 2 && !bit plnState (8 + a))
    let s := s.axisFrame axes plnState
    if lost && s.twn.role = 4 && s.twn.phase != 0 then s.syncFail 5 else s)

/-- R295. -/
def execTwinLinkmsg (h : FrameHdr) (link : Nat) (msg : Bytes) (s : State) : Out :=
  twinMirror s h (fun s => s.jobMessage link msg)

/-- R303. -/
def execTwinTime (h : FrameHdr) (t1 t2 t3 : BitVec 64) (t : Nat) (s : State) : Out :=
  twinFrame s h (fun s =>
    (s.at_ t).twinTime t1.toNat t2.toNat t3.toNat)

/-- R303, R316: every 1 ms. -/
def execTwinTimeSend (t : Nat) (s : State) : Out :=
  if s.twinListens then
    let s := s.at_ t
    done ((s.twinSend 1 s.roleBody).twinSend 0x0A s.timeBody)
  else .next s

/-- R295: the one register that is mirrored is STB_VTRIM[r]. -/
def execTwinWrite (h : FrameHdr) (addr : Nat) (v : Word) (s : State) : Out :=
  twinMirror s h (fun s =>
    match (List.range 16).find? (fun r => Reg.STB_VTRIM r = addr) with
    | some r => s.vtrimWrite r v
    | none => s)

/-- R308. -/
def execTwinSync (h : FrameHdr) (obj : Nat) (last delta : Bool) (off : Nat) (data : Bytes) (s : State) : Out :=
  twinFrame s h (fun s => s.syncPart obj last delta off data)

/-- R299. -/
def execTwinTiebreak (h : FrameHdr) (pos : BuildPos) (ridge _epoch : Nat) (kinds : BitVec 32) (check : Nat) (s : State) : Out :=
  twinFrame s h (fun s => if s.twn.role = 2 || s.twn.role = 3 then s.tieFrame pos ridge kinds check else s)

/-- R299. -/
def execTiebreakCheck (pos : BuildPos) (ridge : Nat) (spare : Option (BitVec 32)) (s : State) : Out :=
  whenReady s (fun s => s.ownCheck pos ridge spare)

/-- R306. -/
def execTwinHandover (h : FrameHdr) (tick : BitVec 64) (tkn : Nat) (s : State) : Out :=
  twinFrame s h (fun s =>
    if s.twn.role = 3 then
      { s with twn := { s.twn with handover := some tick.toNat, topTkn := (tkn + 65535) % 65536 } }
    else s)

/-- R293: a write of TWN_CMD.RETIRE by context `w`. -/
def State.retireWrite (s : State) (w : Nat) : State × RegResult :=
  if w != s.super then (s, .perm)
  else if s.owns then (s, .perm)
  else if s.follows then (s.retire, .ok)
  else (s, .ok)

/-- R306: a write of TWN_CMD.HANDOVER by context `w`. -/
def State.handoverWrite (s : State) (w : Nat) : State × RegResult :=
  if w != s.super then (s, .perm)
  else if s.twn.role = 2 && s.twn.peerRole = 3 then
    (if s.twn.handover.isNone then { s with twn := { s.twn with handover := some 0 } } else s, .ok)
  else (s.event Reg.TWN_EVENT 10, .ok)

/-- R293. -/
def execTwnCmdRetire (w : Nat) (s : State) : Out :=
  whenClocked s (fun s =>
    State.wrote (s.retireWrite w) w Reg.TWN_CMD)

/-- R306. -/
def execTwnCmdHandover (w : Nat) (s : State) : Out :=
  whenClocked s (fun s =>
    State.wrote (s.handoverWrite w) w Reg.TWN_CMD)

/-- R312. -/
def execSyncTimeout (s : State) : Out :=
  whenClocked s (fun s => if s.twn.role = 4 && s.twn.phase != 0 then s.syncFail 2 else s)

end Sys2Proof.Machine
end

