-- ==== Sys2Proof/Machine/Cascade.lean ====
section
/-! DEFINITION. The cascade (R317 to R326): joining, the lead's time, and what it distributes. -/

namespace Sys2Proof.Machine

namespace State

/-! ## Frames (R326) -/

/-- Cascade frames act from the CASCADE phase on (R504), at a module that has not retired. -/
def cscListens (s : State) (down : Bool) : Bool :=
  s.clk.released && !s.boot.failed && 12 ≤ s.boot.phase && s.twn.role != 5 && (s.cscPort down).up &&
    s.linkActive (if down then .cdn else .cup)

def cscAck (s : State) (down : Bool) (tack : Nat) : State :=
  ((s.heardOn (if down then .cdn else .cup)).updCsc down (fun p =>
    { p with peerAck := tack, unacked := p.unacked.filter (fun z => !seqUpTo z.seq tack) })).cscPump down

/-- R326: a frame that fails its CRC is discarded, and the others are delivered in order; a downstream frame only from the highest LTKN seen. -/
def cscIn (s : State) (h : CscHdr) : State × Bool :=
  if !h.good then (s, false) else
  let s := s.cscAck h.down h.tack
  if h.tseq != (s.cscPort h.down).rxNext then (s, false)
  else
    let s := s.updCsc h.down (fun p => { p with rxNext := (h.tseq + 1) % 2 ^ 32 })
    if h.down then (s, true)
    else if (h.ltkn + 65536 - s.csc.ltkn) % 65536 < 32768 then ({ s with csc := { s.csc with ltkn := h.ltkn } }, true)
    else (s, false)

/-- The frame goes on to the next hop, downstream away from the lead, upstream toward it, as it is but for a TIME frame's
HOPDELAY, to which the hop adds its own measured delay (R321). -/
def cscForward (s : State) (h : CscHdr) (typ : Nat) (body : Bytes) : State :=
  let body := if typ = 3 then body.take 24 ++ leBytes 8 (fieldLE body 24 8 + (s.reg Reg.CSC_DELAY).toNat) else body
  if h.down then (if s.isLead then s else s.cscPass false typ h.origin h.ltkn body) else s.cscPass true typ h.origin h.ltkn body

/-- R316: a CASCADE frame of the twin link holds a cascade frame's body with its header. -/
def cscHeld (h : CscHdr) (typ : Nat) (body : Bytes) : Bytes :=
  let b := pad8 body
  cscHeader typ h.origin h.tseq h.tack h.ltkn b.length ++ b

/-- R320: MEMBER. -/
def isMember (s : State) : Bool := !s.isLead && s.csc.jstate = 3

/-! ## Joining (R320, R327) -/

/-- R320: while a position in MEMBERS has not reached MEMBER, the lead holds the gate, and says so by STATE. -/
def gateByMembers (s : State) : State :=
  let want := s.rfld Reg.CSC_CTRL 0 8
  let missing := (maskBits (BitVec.ofNat 8 want) 8).any (fun p => p != 0 && !bit s.csc.joined p)
  if missing = s.saf.cascade then s else 
    let s := s.setCauses (fun f => { f with cascade := missing })
    s.distribute 0x0A s.stateBody

/-- R320: the lead accepts or refuses a JOIN. -/
def joinAsked (s : State) (cpos tws : Nat) (compat : BitVec 32) : State :=
  let refused := cpos = 0 || 8 ≤ cpos || !s.rbit Reg.CSC_CTRL cpos || s.csc.slots.contains (cpos, tws) ||
    compat != s.reg Reg.BCL_COMPAT
  let s := if refused then s else { s with csc := { s.csc with slots := s.csc.slots ++ [(cpos, tws)] } }
  s.cscSend true 2 (leBytes 1 cpos ++ leBytes 1 (if refused then 1 else 0) ++ List.replicate 6 0)

/-- R320, R321: a TIME exchange begins: T1 is the stamp at which it leaves. -/
def askTime (s : State) : State :=
  ({ s with csc := { s.csc with timeAsked := some s.now } }).cscSend false 3 (stampBytes s.now 0 0 ++ leBytes 8 0)

/-- R320: the lead's answer. -/
def joinAnswered (s : State) (cpos result : Nat) : State :=
  if cpos != s.pins.cpos || s.csc.jstate != 1 then s
  else if result = 0 then
    { s with csc := { s.csc with jstate := 2, exchanges := 0, goodTimes := 0 } }.askTime
  else (({ s with csc := { s.csc with jstate := 0, refused := true } }).event Reg.CSC_EVENT 3).raise Src.CSC_CSC_REFUSED

/-- R320, R321: the lead's answer to this position's TIME: the delay, the correction of the timebase while TIM_CTRL.SOURCE is
CASCADE (R457), and MEMBER after 16 exchanges of which the last 8 lay below 20 ns.  A correction above 1 µs is a step, a smaller
one a slew (log entry 28). -/
def timeExchange (s : State) (t1 t2 t3 hop : Nat) : State :=
  let t4 := s.now
  let off : Int := (((t2 : Int) - t1) + ((t3 : Int) - t4)) / 2
  let oneWay : Int := (((t4 : Int) - t1) - ((t3 : Int) - t2)) / 2
  let s := s.setReg Reg.CSC_DELAY (BitVec.ofNat 32 (hop + (oneWay * 64 / 5).toNat))
  let s := if s.rfld Reg.TIM_CTRL 0 2 = 2 && !s.follows then s.linkTime off (decide (1000 < off.natAbs)) else s
  let s := if 1000 < off.natAbs then (s.event Reg.CSC_EVENT 4).raise Src.CSC_TIME_STEP else s
  let s := { s with csc := { s.csc with timeAsked := none, exchanges := s.csc.exchanges + 1, goodTimes := if off.natAbs < 20 then s.csc.goodTimes + 1 else 0 } }
  if s.csc.jstate = 2 && 16 ≤ s.csc.exchanges && 8 ≤ s.csc.goodTimes then
    let s := { s with csc := { s.csc with jstate := 3 } }
    let s := if s.boot.phase = 12 then s.readyEntry else s
    s.report 3 0 0 0
  else if s.csc.jstate = 2 then s.askTime
  else s

/-! ## What the lead distributes (R318, R319, R323 to R325) -/

/-- R318: a distributed swath plan.  The first PLAN of a layer is the layer's LAYER_BEGIN here: regions and quotas are taken
then, and not at the STATE frame with LAYER (DESIGN CHOICE, log entry 162). -/
def planArrives (s : State) (p : SwathPlan) : State :=
  let s := if s.mot.lastLayer = some p.layer then s else s.layerBegins p.layer
  let s := s.queueSwath (s.ownPlan p) 0
  ({ s with mot := { s.mot with swtags := p.swtag + 1 } }).startSwath

/-- R323: a distributed edit; the lead has judged it. -/
def editArrives (s : State) (p : SwathPlan) : State :=
  let p := s.ownPlan p
  match s.planned.find? (fun w => w.plan.layer = p.layer && w.plan.swath = p.swath) with
  | none => s
  | some w =>
    let p := { p with swtag := w.plan.swtag }
    let put := fun (v : Swath) => if v.firstOrd = w.firstOrd then { v with plan := p } else v
    let s := s.count Reg.PLN_REPLANS 1
    if { w.plan with speed := p.speed } = p then
      { s with mot := { s.mot with current := s.mot.current.map put, queue := s.mot.queue.map put } }
    else s.replan w p

/-- R323: a distributed mode setting, or the cancellation of one. -/
def modeArrives (s : State) (m : ModeSetting) (ap : BuildPos) (cancel : Bool) : State :=
  if cancel then
    (s.waiting.filter (fun c => c.ctx = 0 && c.setting = m && c.at_ = ap)).foldl (fun s c => s.cancelOne c) s
  else s.applySetting 0 0 m ap

/-- R319: the lead's planned state at a carriage master. -/
def carriageAxes (s : State) (axes : List AxisState) (st : Word) : State :=
  if s.hasAxis && s.rbit Reg.CSC_CARRIAGE 2 then
    (axes.zipIdx.take 2).foldl (fun s z =>
      let d : Int := if z.2 = 0 then 256 * sWord (s.reg Reg.CSC_SCANOFS) else 0
      s.updAxis z.2 (fun k => { k with pos := z.1.pos + d, vel := z.1.vel, acc := z.1.acc, moving := bit st (12 + z.2) })) s
  else s

/-- R324: the swath gate of a swath closes by distribution. -/
def swgateArrives (s : State) (layer swath : Nat) : State :=
  match s.planned.find? (fun w => w.plan.layer = layer && w.plan.swath = swath) with
  | some w => (s.event Reg.CSC_EVENT 0).closeSwath w
  | none => s

/-- R322, R323: a distributed build state; CAUSE 1 says that the lead holds the gate for a member (log entry 30). -/
def stateArrives (s : State) (b cause : Nat) : State :=
  let s := if s.saf.cascade = (cause = 1) then s else s.setCauses (fun f => { f with cascade := cause = 1 })
  if b = s.mot.bstate then s
  else if b = Build.HELD then s.enterHeld
  else
    let s := s.setBuild b
    if b = Build.READY || b = Build.UNHOMED then { s with mot := { s.mot with layer := none, homing := [] } } else s

/-- R320, R324, R325: a member's REPORT at the lead. -/
def reportArrives (s : State) (origin kind swath layer : Nat) : State :=
  if !s.csc.slots.any (fun z => z.1 = origin) then s
  else
    let s := if bit s.csc.joined origin then s
      else ({ s with csc := { s.csc with joined := setBit s.csc.joined origin true } }).gateByMembers
    if kind = 0 then
      let s := ((s.event Reg.CSC_EVENT 0).raise Src.CSC_MODE_LATE_REPORTED).distribute 9 (swgateBytes layer swath)
      match s.planned.find? (fun w => w.plan.layer = layer && w.plan.swath = swath) with
      | some w => s.closeSwath w
      | none => s
    else if kind = 1 then ({ s with csc := { s.csc with committed := setBit s.csc.committed origin true } }).releaseHold
    else s

/-- R325: a col event of the lead. -/
def colArrives (s : State) (event : Nat) : State :=
  if event = 0 then s.colBegins
  else ({ s with act := { s.act with hold := none } }).startSwath

/-! ## Losses (R315, R322) -/

/-- R326: a port has had no frame for 64 µs. -/
def portLost (s : State) (down : Bool) : State :=
  if (s.cscPort down).up then
    ((s.updCsc down (fun _ => CscPort.reset)).event Reg.CSC_EVENT 1).raise Src.CSC_CSC_LINK
  else s

/-- A port's link enters ACTIVE: it starts from TSEQ 0, and an up port that is trained asks to join (R320). -/
def portUp (s : State) (down : Bool) : State :=
  let s := s.updCsc down (fun _ => { CscPort.reset with up := true })
  if down then s else s.askJoin

/-- What a cascade frame of a type and body does here: the direction in which it came decides who acts on it. -/
def cscBody (s : State) (down : Bool) (origin typ : Nat) (b : Bytes) : State :=
  let plan := (planRecord (slicePad b 0 32)).1
  if down then (if typ = 0x0B && s.isLead then s.reportArrives origin (fieldLE b 0 1) (fieldLE b 2 2) (fieldLE b 4 4) else s)
  else if !s.isMember then s
  else if typ = 4 then s.planArrives plan
  else if typ = 5 then s.editArrives plan
  else if typ = 6 then
    let ap : BuildPos := { layer := fieldLE b 4 4, swath := fieldLE b 8 2, line := fieldLEs b 12 4 }
    match parseMode (slicePad [] 0 8 ++ slicePad b 0 2 ++ slicePad [] 0 2 ++ slicePad b 4 12 ++ slicePad b 16 8) with
    | some m => s.modeArrives m ap (fieldLE b 24 1 = 1)
    | none => s
  else if typ = 7 then
    let axes := (List.range 4).map (fun a =>
      ({ pos := fieldLEs b (8 + 16 * a) 8, vel := fieldLEs b (16 + 16 * a) 4, acc := fieldLEs b (20 + 16 * a) 4 } : AxisState))
    s.carriageAxes axes (BitVec.ofNat 32 (fieldLE b 72 4))
  else if typ = 8 then s.colArrives (fieldLE b 2 1)
  else if typ = 9 then s.swgateArrives (fieldLE b 0 4) (fieldLE b 4 2)
  else if typ = 0x0A then s.stateArrives (fieldLE b 0 1) (fieldLE b 1 1)
  else s

end State

/-- R317, R326: a cascade frame: it is acknowledged and forwarded; the module that owns the outputs acts on it and mirrors
it, and a standby passes it to its twin. -/
def cscFrame (s : State) (h : CscHdr) (typ : Nat) (body : Bytes) (o : State → State) : Out :=
  if s.cscListens h.down then
    match s.cscIn h with
    | (s, true) =>
      let s := s.cscForward h typ body
      if s.follows then done (s.twinSend 0x0C (State.cscHeld h typ body)) else done (o (s.mirror 0x0C (State.cscHeld h typ body)))
    | (s, false) => done s
  else .next s

/-! ## Commands -/

/-- R320, R327. -/
def execCscJoin (h : CscHdr) (cpos tws variant axis : Nat) (compat : BitVec 32) (s : State) : Out :=
  cscFrame s h 1 (leBytes 1 cpos ++ leBytes 1 tws ++ leBytes 1 variant ++ leBytes 1 axis ++ leBytes 4 compat.toNat) (fun s => if h.down && s.isLead then s.joinAsked cpos tws compat else s)

/-- R320. -/
def execCscAccept (h : CscHdr) (cpos result : Nat) (s : State) : Out :=
  cscFrame s h 2 (leBytes 1 cpos ++ leBytes 1 result ++ List.replicate 6 0) (fun s => if !h.down && !s.isLead then s.joinAnswered cpos result else s)

/-- R320, R321. -/
def execCscTime (h : CscHdr) (t1 t2 t3 : BitVec 64) (hopDelay t : Nat) (s : State) : Out :=
  cscFrame s h 3 (stampBytes t1.toNat t2.toNat t3.toNat ++ leBytes 8 hopDelay) (fun s =>
    let s := s.at_ t
    if s.isLead then (if h.down then s.cscSend true 3 (stampBytes t1.toNat s.now s.now ++ leBytes 8 0) else s)
    else if !h.down && 2 ≤ s.csc.jstate && s.csc.timeAsked = some t1.toNat then s.timeExchange t1.toNat t2.toNat t3.toNat hopDelay
    else s)

/-- R318. -/
def execCscPlan (h : CscHdr) (p : SwathPlan) (s : State) : Out :=
  cscFrame s h 4 (planBytes p) (fun s => if !h.down && s.isMember then s.planArrives p else s)

/-- R323. -/
def execCscEdit (h : CscHdr) (p : SwathPlan) (s : State) : Out :=
  cscFrame s h 5 (planBytes p) (fun s => if !h.down && s.isMember then s.editArrives p else s)

/-- R323. -/
def execCscMode (h : CscHdr) (m : ModeSetting) (ap : BuildPos) (cancel : Bool) (s : State) : Out :=
  cscFrame s h 6 (modeBytes m ap cancel) (fun s => if !h.down && s.isMember then s.modeArrives m ap cancel else s)

/-- R319. -/
def execCscAxis (h : CscHdr) (tick : Nat) (axes : List AxisState) (plnState : Word) (s : State) : Out :=
  cscFrame s h 7 (axesBody tick axes plnState) (fun s => if !h.down && s.isMember then s.carriageAxes axes plnState else s)

/-- R325. -/
def execCscCol (h : CscHdr) (swtag event : Nat) (s : State) : Out :=
  cscFrame s h 8 (leBytes 2 swtag ++ leBytes 1 event ++ List.replicate 5 0) (fun s => if !h.down && s.isMember then s.colArrives event else s)

/-- R324. -/
def execCscSwgate (h : CscHdr) (layer swath : Nat) (s : State) : Out :=
  cscFrame s h 9 (swgateBytes layer swath) (fun s => if !h.down && s.isMember then s.swgateArrives layer swath else s)

/-- R322, R323. -/
def execCscState (h : CscHdr) (bstate cause : Nat) (s : State) : Out :=
  cscFrame s h 0x0A (leBytes 1 bstate ++ leBytes 1 cause ++ List.replicate 6 0) (fun s => if !h.down && s.isMember then s.stateArrives bstate cause else s)

/-- R324, R325. -/
def execCscReport (h : CscHdr) (kind code swath layer : Nat) (s : State) : Out :=
  cscFrame s h 0x0B (reportBytes kind code swath layer) (fun s => if h.down && s.isLead then s.reportArrives h.origin kind swath layer else s)

/-- R320, R322: a heartbeat of the lead; the member answers with its own, and measures the time again (log entry 28). -/
def execCscHb (h : CscHdr) (tick : BitVec 64) (s : State) : Out :=
  cscFrame s h 0x0C (leBytes 8 tick.toNat) (fun s => if !h.down && s.isMember then (s.report 3 0 0 0).askTime else s)

/-- R322. -/
def execLeadLost (s : State) : Out :=
  whenClocked s (fun s =>
    if s.isMember then
      (({ s with csc := { s.csc with jstate := 0 } }).event Reg.CSC_EVENT 2).raise Src.CSC_LEAD_LOST
    else s)

/-- R322. -/
def execCscLost (pos : Nat) (s : State) : Out :=
  whenClocked s (fun s =>
    if s.isLead && bit s.csc.joined pos then
      let s := { s with csc := { s.csc with joined := setBit s.csc.joined pos false, slots := s.csc.slots.filter (fun z => z.1 != pos) } }
      let s := ((s.event Reg.CSC_EVENT 2).raise Src.CSC_CSC_LOST).gateByMembers
      if s.mot.bstate = Build.HELD then s.distribute 0x0A s.stateBody else s.enterHeld
    else s)

/-- R515, R320: 1 s after a REFUSE, or once a member that lost its lead can ask again. -/
def execJoinRetry (s : State) : Out := whenClocked s (fun s => s.askJoin)

/-- R326. -/
def execCscIdleAck (h : CscHdr) (s : State) : Out :=
  if s.cscListens h.down && h.good then done (s.cscAck h.down h.tack) else .next s

/-- R326. -/
def execCscRetxTimeout (down : Bool) (s : State) : Out :=
  if s.cscListens down && !(s.cscPort down).unacked.isEmpty then
    done (s.cscAgain down)
  else .next s

/-- R326. -/
def execCscIdleDue (down : Bool) (s : State) : Out :=
  if s.cscListens down then done (s.cscIdle down) else .next s

/-- R326. -/
def execCscLinkSilent (down : Bool) (s : State) : Out :=
  whenClocked s (fun s =>
    if (s.cscPort down).up then
      ((s.updLink (if down then .cdn else .cup) (fun k => { k with st := 1, wasActive := false, lostAt := false })).event Reg.LNP_EVENT 1).portLost down
    else s)

/-- R317: a cascade message passed on by the twin: a standby acts on what its owner mirrors, and the owner on what its
standby forwards once its own chain is lost.  The frame is a 16-byte header and its body. -/
def execTwinCascade (h : FrameHdr) (typ : Nat) (frame : Bytes) (s : State) : Out :=
  twinFrame s h (fun s =>
    let up := 0x0B = typ || typ = 1
    let origin := fieldLE frame 2 1 % 8
    let ltkn := fieldLE frame 14 2
    let stale := !up && 32768 ≤ (ltkn + 65536 - s.csc.ltkn) % 65536
    if stale then s
    else if s.twinApplies || (s.owns && !(s.cscPort up).up) then
      (if up then s else { s with csc := { s.csc with ltkn := ltkn } }).cscBody up origin typ (frame.drop 16)
    else s)

end Sys2Proof.Machine
end

