-- ==== Sys2Proof/Machine/Lanes.lean ====
section
/-! DEFINITION. Serial lanes: the bring-up of links, retrains, link loss and the end of the LANES phase (R427, R431 to R439,
R515). -/

namespace Sys2Proof.Machine

namespace State

/-! ## Which links are in use (R434, R438) -/

/-- LNP_CTRL.DEEP: the class of a link. -/
def linkClass : LinkId → Nat
  | .head _ => 0
  | .job _ => 1
  | .twin => 2
  | .cup => 3
  | .cdn => 3

/-- R438: the link's function is used. -/
def linkNeeded (s : State) : LinkId → Bool
  | .head l => s.linkRate l != 0
  | .job l => (List.range 64).any (fun x => s.streamLink x = some l)
  | .twin => s.rbit Reg.TWN_CTRL 0
  | .cup => s.pins.cpos != 0
  | .cdn => (List.range 8).any (fun p => decide (s.pins.cpos < p) && s.rbit Reg.CSC_CTRL p)

/-- R434, R438: the link is used and not disabled in LNP_CTRL.DEEP. -/
def linkEnabled (s : State) (k : LinkId) : Bool := s.linkNeeded k && !s.rbit Reg.LNP_CTRL (28 + linkClass k)

/-- R235, R439: a head link that starts blind. -/
def blind (s : State) : LinkId → Bool
  | .head l => s.rbit (Reg.HLK_LINK l) 29
  | _ => false

/-- The receive lanes of a link, as LNP numbers them. -/
def rxLanes : LinkId → List Nat
  | .head l => [32 + l]
  | .job l => [52 + l]
  | .twin => (List.range 8).map (· + 64)
  | .cup => (List.range 4).map (· + 76)
  | .cdn => (List.range 4).map (· + 84)

/-- The transmit lanes of a link. -/
def txLanes (s : State) : LinkId → List Nat
  | .head l => if s.rbit Reg.HLK_CTRL 0 then [2 * l, 2 * l + 1] else if l < 4 then (List.range 8).map (· + 8 * l) else []
  | .job l => [48 + l]
  | .twin => (List.range 8).map (· + 56)
  | .cup => (List.range 4).map (· + 72)
  | .cdn => (List.range 4).map (· + 80)

/-- R504, R516: links run from LANES on, and not in the FAILED state. -/
def lanesRun (s : State) : Bool := 9 ≤ s.boot.phase && !s.boot.failed

/-! ## Going down (R435) -/

/-- R435: the link fault of the link's function. -/
def linkFault (s : State) : LinkId → State
  | .head _ => s.raise Src.HLK_LINK_DOWN
  | .job _ => (s.event Reg.JOB_EVENT 0).raise Src.JOB_JOB_DOWN
  | .twin => (s.event Reg.TWN_EVENT 2).raise Src.TWN_TWIN_LINK
  | .cup => (s.event Reg.CSC_EVENT 1).raise Src.CSC_CSC_LINK
  | .cdn => (s.event Reg.CSC_EVENT 1).raise Src.CSC_CSC_LINK

/-- R315, R322, R435, R443: a link that was ACTIVE is down. -/
def goesDown (s : State) (k : LinkId) : State :=
  if (s.link k).lostAt then
    let s := (s.updLink k (fun l => { l with lostAt := false })).event Reg.LNP_EVENT 1
    match k with
    | .head _ => s.linkFault k
    | .job l => s.jobDown l
    | .twin => s.twinLost
    | .cup => s.portLost false
    | .cdn => s.portLost true
  else s

/-- A link leaves ACTIVE. -/
def leavesActive (s : State) (k : LinkId) (st : Nat) : State :=
  let s := s.updLink k (fun l => { l with st := st, lostAt := true, lowEyes := [], frozen := [] })
  match k with
  | .head _ => s.event Reg.HLK_EVENT 0
  | _ => s

/-- R556: the lanes of a link take the leg counts that were measured for them. -/
def applyLegs (s : State) (k : LinkId) : State :=
  (rxLanes k ++ s.txLanes k).foldl (fun s n =>
    let p := s.rfld (Reg.CAL_TRM n) 8 6
    let s := { s with cal := { s.cal with negLegs := s.cal.negLegs.map (fun z => if z.1 = n then (z.1, z.2.2, z.2.2) else z) } }
    if p = 0 then s else (s.setRfld (Reg.CAL_TRM n) 0 6 p).setRfld (Reg.CAL_TRM n) 14 1 0) s

/-- R433, R427, R434: an ACTIVE link retrains; a blind link starts again. -/
def retrain (s : State) (k : LinkId) : State :=
  if s.linkActive k then
    let s := (s.leavesActive k (if s.blind k then 7 else 2)).applyLegs k
    ((s.event Reg.LNP_EVENT 0).count Reg.LNP_RETRAINS 1).raise Src.LNP_RETRAIN
  else s

/-! ## Becoming ACTIVE (R236, R434, R437, R443) -/

/-- The pulse of a row has left. -/
def placed : RowPulse → Bool
  | .fired => true
  | .skipped _ => true
  | _ => false

/-- R221, R236: the lines a link held go out, but for those whose first pulse has been placed. -/
def sendHeld (s : State) (k : Nat) : State :=
  let held := (s.headlink k).held
  let s := s.updHead k (fun h => { h with held := [] })
  held.foldl (fun s n =>
    match s.crn.window.find? (fun (l : CLine) => l.lseq = some n && l.unsent.contains k && !l.rows.any placed) with
    | some l => (s.updLine l.ord (fun l => { l with unsent := l.unsent.filter (· != k) })).sendFrames k l
    | none => s) s

/-- R437: a link that returns within 200 µs sends again from its first unacknowledged frame. -/
def sendAgain (s : State) : LinkId → State
  | .head l => s.sendHeld l
  | .job l =>
    pumpJob 64 (s.jobAgain l) l
  | .twin => s.twinAgain
  | .cup => s.cscAgain false
  | .cdn => s.cscAgain true

/-- A link enters ACTIVE for the first time, or after it was down. -/
def comesUp (s : State) : LinkId → State
  | .head l => s.sendHeld l
  | .job l => s.jobGreets l
  | .twin =>
    let s := { s with twn := { s.twn with linkUp := true, txNext := 0, rxNext := 0, peerAck := 0, unacked := [], waiting := [] } }
    s.twinSend 1 s.roleBody
  | .cup => s.portUp false
  | .cdn => s.portUp true

/-- R434: ACTIVE. -/
def becomesActive (s : State) (k : LinkId) (caps : Bytes) : State :=
  let quick := (s.link k).lostAt
  let s := s.updLink k (fun l => { l with st := 5, wasActive := true, lostAt := false, caps := caps, lowEyes := [], frozen := [] })
  if quick then s.sendAgain k else s.comesUp k

/-- R434: a link goes back to DETECT; what follows is a bring-up and no retrain (log entry 42). -/
def toDetect (s : State) (k : LinkId) : State :=
  let t := (s.updLink k (fun l => { l with st := if s.blind k then 7 else 1, wasActive := false })).goesDown k
  if s.blind k then t.applyLegs k else t

/-- R431: the peaking chosen from a free value `x`: any in the first TRAIN after reset or DEEP, later the kept one or a
neighbour of it. -/
def peaking (trained : Bool) (kept x : Nat) : Nat := if trained then min 15 (kept + x % 3 - 1) else x % 16

/-- R431: the peaking that each receive lane keeps: LNP_LCFG.CTLE, or with AUTO the widest eye, a free value. -/
def equalise (s : State) (k : LinkId) : State :=
  let u := (rxLanes k).foldl (fun s n =>
    if s.rbit (Reg.LNP_LCFG n) 12 && !s.blind k then
      let (v, s) := s.draw
      s.setRfld (Reg.LNP_LSTAT n) 4 4 (peaking (s.link k).trained (s.rfld (Reg.LNP_LSTAT n) 4 4) v.toNat)
    else s.setRfld (Reg.LNP_LSTAT n) 4 4 (s.rfld (Reg.LNP_LCFG n) 8 4)) s
  u.updLink k (fun l => { l with trained := true })

/-- R234, R436: whether the capabilities received suit the link. -/
def compatible (s : State) (k : LinkId) (data : Bytes) : Bool :=
  let b := fun i => fieldLE data i 1
  match k with
  | .head l => b 0 = 1 && 9 ≤ b 1 && s.linkRate l != 0 && bit (BitVec.ofNat 8 (b 2)) (s.linkRate l - 1)
  | .job _ => b 0 = 1 && b 1 = 1 && b 2 = 1
  | .twin => b 0 = 2 && b 1 = 1 && b 2 = 8
  | .cup => b 0 = 3 && b 1 = 1 && b 2 = 4
  | .cdn => b 0 = 3 && b 1 = 1 && b 2 = 4

/-- R434: CAPX ends. -/
def capabilities (s : State) (k : LinkId) (data : Bytes) : State :=
  if s.compatible k data then s.becomesActive k data
  else
    let s := (s.updLink k (fun l => { l with st := 6 })).event Reg.LNP_EVENT 4
    match k with
    | .head _ => (s.event Reg.HLK_EVENT 8).raise Src.HLK_CAPX_FAIL
    | _ => s

/-- R234, R436: the 16 bytes that this side sends in CAPX. -/
def ownCaps (s : State) (k : LinkId) : Bytes :=
  let other := fun (func lanes : Nat) =>
    leBytes 1 func ++ [1] ++ leBytes 1 lanes ++ leBytes 1 s.die.variant ++ leBytes 1 s.screeSource ++ List.replicate 11 0
  match k with
  | .head l => leBytes 1 l ++ leBytes 1 (s.linkRate l) ++ leBytes 2 (s.linkCol0 l) ++ leBytes 2 (s.linkWidth l) ++ List.replicate 10 0
  | .job _ => other 1 1
  | .twin => other 2 8
  | .cup => other 3 4
  | .cdn => other 3 4

/-- R434: training sets: 16 error-free ones, or 8 with a STATE. -/
def training (s : State) (k : LinkId) (state : Nat) : State :=
  let l := s.link k
  if l.st = 5 then (if s.blind k then s else s.retrain k)
  else if l.st = 2 then (s.equalise k).updLink k (fun l => { l with st := 3 })
  else if l.st = 3 && state = 1 then (s.updLink k (fun l => { l with st := 4 })).emit (.capx k (s.ownCaps k))
  else if l.st = 3 && state = 2 && l.wasActive then s.becomesActive k l.caps
  else s

/-- R423, R432, R433: an eye window of one receive lane ends. -/
def eyeWindow (s : State) (k : LinkId) (lane opening : Nat) (e : EyeWindow) : State :=
  let s := (s.setRfld (Reg.LNP_LSTAT lane) 16 8 opening).count Reg.LNP_CODEERRS e.codeErrs
  let low := opening < s.rfld (Reg.LNP_LCFG lane) 16 8
  let runs := match (s.link k).lowEyes.find? (fun z => z.1 = lane) with
    | some z => z.2
    | none => 0
  let s := s.updLink k (fun l =>
    { l with lowEyes := l.lowEyes.filter (fun z => z.1 != lane) ++ (if low then [(lane, runs + 1)] else []),
             frozen := l.frozen.filter (· != lane) ++ (if 1024 ≤ e.idle then [lane] else []) })
  let noisy := s.rfld Reg.LNP_CTRL 8 8 < e.codeErrs
  let s := if noisy then s.event Reg.LNP_EVENT 3 else s
  if noisy || (low && 1 ≤ runs) then s.retrain k else s

/-! ## The end of LANES (R515) -/

/-- The links in use that are not ACTIVE. -/
def lateLinks (s : State) : List LinkId := allLinks.filter (fun k => s.linkEnabled k && !s.linkActive k)

end State

/-! ## The commands -/

/-- R434, R439. -/
def execLinkEnable (k : LinkId) (s : State) : Out :=
  if s.lanesRun && s.linkEnabled k && (s.link k).st = 0 then
    .next ((s.updLink k (fun l => { l with st := if s.blind k then 7 else 1 })).applyLegs k)
  else .next s

/-- R434: a function disabled in LNP_CTRL.DEEP. -/
def execLinkDisable (k : LinkId) (s : State) : Out :=
  if s.lanesRun && s.rbit Reg.LNP_CTRL (28 + State.linkClass k) && (s.link k).st != 0 then
    let s := if s.linkActive k then s.leavesActive k 0 else s
    done ((s.updLink k (fun l => { l with st := 0, wasActive := false, trained := false })).goesDown k)
  else .next s

/-- R434. -/
def execDetectRetry (k : LinkId) (sensed : Bool) (s : State) : Out :=
  if s.lanesRun && (s.link k).st = 1 && sensed then .next ((s.updLink k (fun l => { l with st := 2 })).applyLegs k) else .next s

/-- R434. -/
def execTrnReceived (k : LinkId) (stateField : Nat) (s : State) : Out :=
  if s.lanesRun then done (s.training k stateField) else .next s

/-- R434. -/
def execTrainTimeout (k : LinkId) (s : State) : Out :=
  if s.lanesRun && (s.link k).st = 2 then done ((s.count Reg.LNP_RETRAINS 1).toDetect k) else .next s

/-- R434, R436. -/
def execCapxReceived (k : LinkId) (data : Bytes) (s : State) : Out :=
  if s.lanesRun && (s.link k).st = 4 then done (s.capabilities k (slicePad data 0 16)) else .next s

/-- R432, R433. -/
def execEyeWindow (k : LinkId) (lane opening : Nat) (e : EyeWindow) (s : State) : Out :=
  if s.lanesRun && s.linkActive k && (State.rxLanes k).contains lane then done (s.eyeWindow k lane opening e) else .next s

/-- R427. -/
def execDeskewError (k : LinkId) (s : State) : Out :=
  if s.lanesRun && s.linkActive k then done (((s.event Reg.LNP_EVENT 2).raise Src.LNP_DESKEW).retrain k) else .next s

/-- R434, R439. -/
def execLossOfSignal (k : LinkId) (s : State) : Out :=
  if s.lanesRun && s.linkActive k then done ((s.leavesActive k 1).toDetect k) else .next s

/-- R434. -/
def execFailedRetry (k : LinkId) (s : State) : Out :=
  if s.lanesRun && (s.link k).st = 6 then done (s.toDetect k) else .next s

/-- R435. -/
def execLinkDown (k : LinkId) (s : State) : Out :=
  if s.lanesRun && !s.linkActive k then done (s.goesDown k) else .next s

/-- R439. -/
def execBlindStartActive (k : LinkId) (s : State) : Out :=
  if s.lanesRun && (s.link k).st = 7 then done ((s.equalise k).becomesActive k []) else .next s

/-- R515. -/
def execLanesDone (s : State) : Out :=
  if s.boot.phase = 9 && !s.boot.failed && s.lateLinks.isEmpty then done s.seqPhase else .next s

/-- R435, R515. -/
def execLanesTimeout (s : State) : Out :=
  if s.boot.phase = 9 && !s.boot.failed then
    let late := s.lateLinks
    let s := late.foldl (fun s k => s.linkFault k) s
    done (if late.isEmpty then s else s.bootFlag 6).seqPhase
  else .next s

end Sys2Proof.Machine
end

