-- ==== Sys2Proof/Machine/Calibrate.lean ====
section
/-! DEFINITION. The calibration engine: converters, delay lines and terminations, measured against REFV and PCLK
(R549 to R558).  A converter kind is named by a Bool: true for BEMF. -/

namespace Sys2Proof.Machine

/-! ## Selections (R553, R554, R556) -/

/-- The choices of `k` segments of a list from segment `i` on: the summed deviation and the mask of each. -/
def segmentChoices : Nat → Nat → List Int → List (Int × Nat)
  | 0, _, _ => [(0, 0)]
  | _ + 1, _, [] => []
  | k + 1, i, d :: ds => (segmentChoices k (i + 1) ds).map (fun z => (z.1 + d, z.2 + 2 ^ i)) ++ segmentChoices (k + 1) (i + 1) ds

/-- R553 step 2: the 16 segments whose summed deviation is closest to 0, the lowest mask among equals. -/
def bestSegments (d : List Int) : Nat :=
  match segmentChoices 16 0 d with
  | [] => 0
  | z :: zs => (zs.foldl (fun (b : Int × Nat) y =>
      if y.1.natAbs < b.1.natAbs || (y.1.natAbs = b.1.natAbs && y.2 < b.2) then y else b) z).2

/-- The first position of the smallest value. -/
def firstLeast (l : List Nat) : Nat :=
  (l.zipIdx.foldl (fun (b : Nat × Nat) z => if z.1 < b.1 then z else b) (nth l 0 0, 0)).2

/-- R553 step 3: the cell with the smallest offset. -/
def bestCell (cells : List Int) : Nat := firstLeast (cells.map Int.natAbs)

/-- R553: gain error within ±0.2 % and offset within ±4 LSB. -/
def ConvMeas.passes (m : ConvMeas) : Bool := m.gainErr.natAbs ≤ 20 && m.offset.natAbs ≤ 4

/-- R554: 8 × │D − 78.125k│. -/
def tapError (d k : Nat) : Nat := (8 * d - 625 * k) + (625 * k - 8 * d)

/-- R554: D(j) in ps, from the measurements of raw taps 1 to 79. -/
def tapDelay (d : List Nat) (j : Nat) : Nat := if j = 0 then 0 else nth d (j - 1) 0

/-- R554: the taps t_k to t_63 above the last one, lower taps first among equals. -/
def tapsFrom : Nat → List Nat → Nat → Nat → List Nat
  | 0, _, _, _ => []
  | n + 1, d, k, last =>
    let js := (List.range 79).filterMap (fun i => if last < i + 1 then some (i + 1) else none)
    match js with
    | [] => []
    | j :: _ =>
      let t := nth js (firstLeast (js.map (fun i => tapError (tapDelay d i) k))) j
      t :: tapsFrom n d (k + 1) t

/-- R554: t_0 to t_63. -/
def lineTaps (d : List Nat) : List Nat := 0 :: tapsFrom 63 d 1 0

/-- R554: whether the line passes. -/
def linePasses (d ts : List Nat) : Bool :=
  d.length = 79 && ts.length = 64 && 4922 ≤ tapDelay d 79 &&
    (List.range 63).all (fun k =>
      let a := tapDelay d (nth ts k 0)
      let b := tapDelay d (nth ts (k + 1) 0)
      decide (a + 1 ≤ b) && decide (b ≤ a + 156)) &&
    (List.range 64).all (fun k => decide (tapError (tapDelay d (nth ts k 0)) k ≤ 480))

/-- R554: MAXINL in whole ps, rounded down (log entry 50). -/
def maxInl (d ts : List Nat) : Nat := ((List.range 64).map (fun k => tapError (tapDelay d (nth ts k 0)) k)).foldl max 0 / 8

/-- R556: the legs of one side nearest 50 Ω, the fewer among equals; none when no count reaches ±5 %. -/
def bestLegs (z : List Nat) : Option Nat :=
  let off := (z.take 40).map (fun v => (v - 50000) + (50000 - v))
  let n := firstLeast off
  if off.isEmpty || 2500 < nth off n 2501 then none else some (n + 1)

namespace State

/-! ## Elements of the variant (R549) -/

def convPresent (s : State) (bemf : Bool) (v : Nat) : Bool :=
  if bemf then v < 5 && s.hasAxis else if s.hasAxis then v < 9 else v = 0 || v = 1 || v = 8

def convChannels (s : State) (bemf : Bool) : Nat := if bemf then (if s.hasAxis then 4 else 0) else if s.hasAxis then 8 else 2

/-- The spare's number in the kind's full set. -/
def convLast (bemf : Bool) : Nat := if bemf then 4 else 8

def convReg (bemf : Bool) (v : Nat) : Nat := if bemf then Reg.CAL_BEM v else Reg.CAL_ENC v

def delayLines (s : State) : Nat := if s.isX then 18 else 16

/-- Lane indices 0 to 87 that the variant has. -/
def lanePresent (s : State) (n : Nat) : Bool :=
  n < 88 && (s.hasAxis || !((16 ≤ n && n < 32) || (40 ≤ n && n < 48)))

/-- TCAL: the die temperature in whole °C, rounded down (log entry 50). -/
def tcal (s : State) : Nat := uNat 8 (sInt 16 (s.rfld Reg.CRU_TEMP 0 16) / 10)

/-! ## REFV (R550) -/

def refvFits (refv : Nat) : Bool := 12125 ≤ refv && refv ≤ 12875

/-- R550: REFV is measured before every calibration. -/
def measureRefv (s : State) (refv : Nat) : State :=
  let s := s.setReg Reg.CAL_REFV (BitVec.ofNat 32 (refv % 65536))
  let ok := refvFits refv
  let s := { s with cal := { s.cal with refvOk := ok } }
  if ok then s else (s.event Reg.CAL_EVENT 3).raise Src.CAL_CAL_FAIL

/-- A calibration has failed. -/
def calFailed (s : State) : State := ((s.count Reg.CAL_FAILS 1).event Reg.CAL_EVENT 0).raise Src.CAL_CAL_FAIL

/-- R557: an element is due and cannot be calibrated at once. -/
def calStale (s : State) : State := (s.event Reg.CAL_EVENT 1).raise Src.CAL_CAL_STALE

/-! ## Converters (R551 to R553) -/

def convs (s : State) (bemf : Bool) : List Converter := if bemf then s.cal.bemf else s.cal.enc

def updConv (s : State) (bemf : Bool) (v : Nat) (f : Converter → Converter) : State :=
  if bemf then { s with cal := { s.cal with bemf := upd s.cal.bemf v f } } else { s with cal := { s.cal with enc := upd s.cal.enc v f } }

def convSpare (s : State) (bemf : Bool) : Option Nat := if bemf then s.cal.bemSpare else s.cal.encSpare

def setSpare (s : State) (bemf : Bool) (v : Option Nat) : State :=
  if bemf then { s with cal := { s.cal with bemSpare := v } } else { s with cal := { s.cal with encSpare := v } }

def setReady (s : State) (bemf b : Bool) : State :=
  if bemf then { s with cal := { s.cal with bemReady := b } } else { s with cal := { s.cal with encReady := b } }

/-- R553: a converter that passes takes the new selection. -/
def convKeep (s : State) (bemf : Bool) (v : Nat) (m : ConvMeas) : State :=
  let s := s.updConv bemf v (fun c => { c with mask := bestSegments m.ladder, cell := bestCell m.cells })
  let a := convReg bemf v
  ((s.setRfld a 4 1 0).setRfld a 8 8 (uNat 8 m.gainErr)).setRfld a 16 8 (uNat 8 m.offset) |>.setRfld a 24 8 s.tcal

/-- R558: a converter that fails is retired. -/
def convRetire (s : State) (bemf : Bool) (v : Nat) : State :=
  let s := s.updConv bemf v (fun c => { c with retired := true })
  let s := s.setRfld (convReg bemf v) 0 4 15
  (s.event Reg.CAL_RETIRED (if bemf then 16 + v else v)).event Reg.CAL_EVENT 2

/-- R551, R553: the spare is calibrated. -/
def rotate_ (s : State) (bemf : Bool) (refv : Nat) (m : ConvMeas) : State :=
  let s := s.measureRefv refv
  match s.convSpare bemf with
  | none => s
  | some v =>
    if !refvFits refv then s
    else
      let s := s.count Reg.CAL_RUNS 1
      if ConvMeas.passes m then (s.convKeep bemf v m).setReady bemf true
      else (((s.convRetire bemf v).setSpare bemf none).setReady bemf false).calFailed

/-- R551, R557: the channel that the spare takes next. -/
def nextChannel (s : State) (bemf : Bool) : Nat :=
  match s.cal.front.find? (fun z => z.1 = bemf) with
  | some z => z.2
  | none => if bemf then s.cal.bemNext else s.cal.encNext

/-- The converter that serves a channel. -/
def serving (s : State) (bemf : Bool) (ch : Nat) : Option Nat :=
  (List.range 9).find? (fun v => s.convPresent bemf v && !(nth (s.convs bemf) v ⟨0, 0, false⟩).retired && s.rfld (convReg bemf v) 0 4 = ch)

/-- The rotation goes on behind a channel. -/
def passChannel (s : State) (bemf : Bool) (ch : Nat) : State :=
  let s := { s with cal := { s.cal with aborts := s.cal.aborts.filter (fun z => !(z.1 = bemf && z.2.1 = ch)) } }
  if s.cal.front.contains (bemf, ch) then { s with cal := { s.cal with front := s.cal.front.filter (· != (bemf, ch)) } }
  else
    let n := (ch + 1) % s.convChannels bemf
    if bemf then { s with cal := { s.cal with bemNext := n } } else { s with cal := { s.cal with encNext := n } }

/-- R552: the means have been compared. -/
def swapConverter (s : State) (bemf : Bool) (diff : Int) : State :=
  let ch := s.nextChannel bemf
  let ready := if bemf then s.cal.bemReady else s.cal.encReady
  match s.convSpare bemf, s.serving bemf ch with
  | some v, some old =>
    if !ready then s
    else
      let s := s.setReady bemf false
      if diff.natAbs ≤ s.rfld Reg.CAL_CTRL 16 4 then
        let s := (s.setRfld (convReg bemf v) 0 4 ch).setRfld (convReg bemf old) 0 4 8
        (s.setSpare bemf (some old)).passChannel bemf ch
      else
        let s := s.event Reg.CAL_EVENT 4
        let n := match s.cal.aborts.find? (fun z => z.1 = bemf && z.2.1 = ch) with
          | some z => z.2.2 + 1
          | none => 1
        if n < 3 then
          { s with cal := { s.cal with aborts := (bemf, ch, n) :: s.cal.aborts.filter (fun z => !(z.1 = bemf && z.2.1 = ch)) } }
        else (((s.setRfld (convReg bemf old) 4 1 1).event Reg.CAL_EVENT 0).raise Src.CAL_CAL_FAIL).passChannel bemf ch
  | _, _ => s

/-! ## Delay lines (R554) -/

/-- R554, R558: a delay line's calibration completes. -/
def lineResult (s : State) (l : Nat) (d : List Nat) : State :=
  let ts := lineTaps d
  let a := Reg.CAL_DLY l
  let s := s.count Reg.CAL_RUNS 1
  if linePasses d ts then
    let s := { s with cal := { s.cal with taps := upd s.cal.taps l (fun _ => ts) } }
    s.setReg a (setFld (setFld (setFld 0 0 7 (nth ts 63 0)) 8 8 (maxInl d ts)) 24 8 s.tcal)
  else (s.setRfld a 16 1 1).calFailed

/-- R555: a line is calibrated in a col, or while its trigger channel is not armed. -/
def lineFree (s : State) (l : Nat) : Bool := if l < 16 then s.mot.inCol else !(s.trigger (l - 14)).armed

/-! ## Terminations (R556) -/

/-- R556, R557: a lane's termination is measured; the count of its positive side stands in CAL_TRM (log entry 49). -/
def termResult (s : State) (n : Nat) (m : TermMeas) : State :=
  let a := Reg.CAL_TRM n
  let s := s.count Reg.CAL_RUNS 1
  match bestLegs m.pos, bestLegs m.neg with
  | some p, some q =>
    let used := s.rfld a 0 6
    let old := match s.cal.negLegs.find? (fun z => z.1 = n) with
      | some z => z.2.1
      | none => 0
    let s := { s with cal := { s.cal with negLegs := (n, old, q) :: s.cal.negLegs.filter (fun z => z.1 != n) } }
    let far := used != 0 && 1 < (used - p) + (p - used)
    let s := s.setReg a (setFld (setFld (setFld (setFld 0 0 6 used) 8 6 p) 14 1 (if far then 1 else 0)) 24 8 s.tcal)
    if far then s.calStale else s
  | _, _ => (s.setRfld a 15 1 1).calFailed

/-! ## Due elements (R557) -/

/-- R557: the die temperature has moved: an element becomes due.  `kind`: 0 ENC, 1 BEMF, 2 delay line, 3 termination. -/
def becomesDue (s : State) (kind idx : Nat) : State :=
  if kind < 2 then
    let bemf := kind = 1
    let a := convReg bemf idx
    let ch := s.rfld a 0 4
    let s := s.setRfld a 4 1 1
    if (s.convSpare bemf).isNone then s.calStale
    else if ch < 8 && !s.cal.front.contains (decide bemf, ch) then { s with cal := { s.cal with front := s.cal.front ++ [(decide bemf, ch)] } }
    else s
  else if kind = 2 then
    let s := s.setRfld (Reg.CAL_DLY idx) 7 1 1
    if idx < 16 && s.mot.current.isSome && !s.mot.inCol then s.calStale else s
  else s.setRfld (Reg.CAL_TRM idx) 14 1 1

/-- The register of an element and the place of its TCAL, for an element that the variant has. -/
def elementReg (s : State) (kind idx : Nat) : Option Nat :=
  if kind = 0 then (if s.convPresent false idx then some (Reg.CAL_ENC idx) else none)
  else if kind = 1 then (if s.convPresent true idx then some (Reg.CAL_BEM idx) else none)
  else if kind = 2 then (if idx < s.delayLines then some (Reg.CAL_DLY idx) else none)
  else if kind = 3 then (if s.lanePresent idx then some (Reg.CAL_TRM idx) else none)
  else none

/-- R557. -/
def temperatureMoves (s : State) (kind idx : Nat) (temp : Int) : State :=
  let s := s.setReg Reg.CRU_TEMP (BitVec.ofNat 32 (uNat 16 temp))
  match s.elementReg kind idx with
  | none => s
  | some a =>
    let t0 := sInt 8 (s.rfld a 24 8)
    if s.rfld Reg.CAL_CTRL 8 8 < (temp - 10 * t0).natAbs then s.becomesDue kind idx else s

/-! ## The first calibration (R558) -/

/-- The converters of a kind that pass. -/
def passing (s : State) (bemf : Bool) (ms : List ConvMeas) : List Nat :=
  (List.range 9).filter (fun v => s.convPresent bemf v && decide (v < ms.length) && ConvMeas.passes (nth ms v ⟨[], [], 0, 0⟩))

/-- Lanes of the links in use. -/
def lanesUsed (s : State) : List Nat :=
  (allLinks.filter (fun k => s.linkEnabled k)).flatMap (fun k => rxLanes k ++ s.txLanes k)

/-- R558: whether the first calibration fails. -/
def firstFails (s : State) (m : CalMeas) : Bool :=
  let lineBad := fun l => let d := nth m.delay l []
    !linePasses d (lineTaps d)
  let termBad := fun n => let t := nth m.term n ⟨[], []⟩
    (bestLegs t.pos).isNone || (bestLegs t.neg).isNone
  !refvFits m.refv || (List.range s.delayLines).any lineBad || (s.passing false m.enc).length < s.convChannels false ||
    (s.passing true m.bemf).length < s.convChannels true || s.lanesUsed.any termBad

/-- R549, R558: converters take the channels in order: each its own, the spare that of a converter that fails. -/
def firstConverters (s : State) (bemf : Bool) (ms : List ConvMeas) : State :=
  let good := s.passing bemf ms
  let all := (List.range 9).filter (fun v => s.convPresent bemf v)
  let nch := s.convChannels bemf
  let s := all.foldl (fun s v =>
    let s := s.count Reg.CAL_RUNS 1
    if good.contains v then s.convKeep bemf v (nth ms v ⟨[], [], 0, 0⟩) else (s.convRetire bemf v).calFailed) s
  let spareIn := (List.range nch).find? (fun v => !good.contains v)
  let s := (List.range nch).foldl (fun s v => if good.contains v then s.setRfld (convReg bemf v) 0 4 v else s) s
  let last := convLast bemf
  match spareIn with
  | some ch => if good.contains last then (s.setRfld (convReg bemf last) 0 4 ch).setSpare bemf none else s.setSpare bemf none
  | none => if good.contains last then (s.setRfld (convReg bemf last) 0 4 8).setSpare bemf (some last) else s.setSpare bemf none

/-- R503, R558: CAL ends. -/
def firstCal (s : State) (m : CalMeas) : State :=
  let fails := s.firstFails m
  let s := s.measureRefv m.refv
  if fails then (s.event Reg.CAL_EVENT 0).phaseFails 9
  else
    let s := s.firstConverters false m.enc
    let s := if s.hasAxis then s.firstConverters true m.bemf else s
    let s := (List.range s.delayLines).foldl (fun s l => s.lineResult l (nth m.delay l [])) s
    let s := ((List.range 88).filter s.lanePresent).foldl (fun s n => s.termResult n (nth m.term n ⟨[], []⟩)) s
    s.enterPhase 9

end State

/-! ## The commands -/

/-- R503, R558. -/
def execCalDone (m : CalMeas) (s : State) : Out := if s.boot.phase = 8 && !s.boot.failed then done (s.firstCal m) else .next s

/-- R550, R551, R553. -/
def execConverterRotation (bemf : Bool) (refv : Nat) (m : ConvMeas) (s : State) : Out :=
  if 9 ≤ s.boot.phase && !s.boot.failed && (!bemf || s.hasAxis) then done (s.rotate_ bemf refv m) else .next s

/-- R552. -/
def execConverterHandover (bemf : Bool) (meanDiff : Int) (s : State) : Out :=
  if 9 ≤ s.boot.phase && !s.boot.failed && (!bemf || s.hasAxis) then done (s.swapConverter bemf meanDiff) else .next s

/-- R550, R554, R555. -/
def execDelayLineCal (line refv : Nat) (d : List Nat) (s : State) : Out :=
  if 9 ≤ s.boot.phase && !s.boot.failed && decide (line < s.delayLines) && s.lineFree line then
    let s := s.measureRefv refv
    done (if State.refvFits refv then s.lineResult line d else s)
  else .next s

/-- R550, R556. -/
def execTerminationCal (lane refv : Nat) (m : TermMeas) (s : State) : Out :=
  if 9 ≤ s.boot.phase && !s.boot.failed && s.lanePresent lane then
    let s := s.measureRefv refv
    done (if State.refvFits refv then s.termResult lane m else s)
  else .next s

/-- R557. -/
def execTdeltaExceeded (kind idx : Nat) (temp : Int) (s : State) : Out :=
  if 9 ≤ s.boot.phase && !s.boot.failed then done (s.temperatureMoves kind idx temp) else .next s

end Sys2Proof.Machine
end

