-- ==== Sys2Proof/Machine/Camera.lean ====
section
/-! DEFINITION. The drop-watch camera pipelines: CSI-2 packets, matched frames, the image steps, the outputs and the
statistics record (R461 to R473). -/

namespace Sys2Proof.Machine

/-! ## Pixels (R462, R469) -/

abbrev Image := List (List Nat)

/-- R461: the data type that FORMAT names. -/
def csiType (format : Nat) : Nat := 0x2A + format

/-- Bytes of one line of `w` pixels. -/
def lineBytes (format w : Nat) : Nat := if format = 0 then w else if format = 1 then w * 5 / 4 else w * 3 / 2

/-- R469 step 1: pixel `x` of a line as 12 bits, with the byte packing of CSI-2 (log entry 48). -/
def unpackPixel (format : Nat) (d : Bytes) (x : Nat) : Nat :=
  let b := fun i => fieldLE d i 1
  if format = 0 then b x * 16
  else if format = 1 then
    let g := x / 4 * 5
    (b (g + x % 4) * 4 + b (g + 4) / 4 ^ (x % 4) % 4) * 4
  else
    let g := x / 2 * 3
    b (g + x % 2) * 16 + b (g + 2) / 16 ^ (x % 2) % 16

/-- R469: a coordinate beyond an edge is mirrored across it (log entry 47). -/
def mirrorAt (n : Nat) (x : Int) : Nat := if x < 0 then (-x - 1).toNat else if (n : Int) ≤ x then (2 * n - 1 - x).toNat else x.toNat

def pixel (img : Image) (w h : Nat) (x y : Int) : Nat := nth (nth img (mirrorAt h y) []) (mirrorAt w x) 0

/-- One step over every pixel. -/
def mapPixels (w h : Nat) (f : Int → Int → Nat) : Image :=
  (List.range h).map (fun (y : Nat) => (List.range w).map (fun (x : Nat) => f (x : Int) (y : Int)))

/-- R469 step 2. -/
def crossTalk (xh xv : Nat) (img : Image) (w h : Nat) : Image :=
  mapPixels w h (fun x y =>
    let p := pixel img w h
    let loss := (xh * (p (x - 1) y + p (x + 1) y) + xv * (p x (y - 1) + p x (y + 1))) / 1024
    min 4095 (p x y - loss))

/-- R469 step 3. -/
def greenBalance (cfa thr : Nat) (img : Image) (w h : Nat) : Image :=
  mapPixels w h (fun x y =>
    let p := pixel img w h
    let g := p x y
    if cfa = 0 || ((x + y) % 2 = 0) != (cfa = 1) then g
    else
      let m := (p (x - 1) (y - 1) + p (x + 1) (y - 1) + p (x - 1) (y + 1) + p (x + 1) (y + 1)) / 4
      if (g - m) + (m - g) ≤ thr then (g + m + 1) / 2 else g)

/-- R469 step 4. -/
def levelled (black gain : Nat) (img : Image) : Image := img.map (fun l => l.map (fun p => min 4095 ((p - black) * gain / 256)))

/-! ## Settings of an edge (R466) -/

/-- Order of the processing settings: XT, GI, LEVEL, CROP_A, CROP_B, SCALE, STATS, EXP_A, EXP_B, EXP_C, then WIN_A and WIN_B of
each window. -/
def settingRegs (p : Nat) : List Nat :=
  [Reg.CAM_XT p, Reg.CAM_GI p, Reg.CAM_LEVEL p, Reg.CAM_CROP_A p, Reg.CAM_CROP_B p, Reg.CAM_SCALE p, Reg.CAM_STATS p,
   Reg.CAM_EXP_A p, Reg.CAM_EXP_B p, Reg.CAM_EXP_C p] ++ (List.range 16).flatMap (fun w => [Reg.CAM_WIN_A p w, Reg.CAM_WIN_B p w])

def setting (l : List (BitVec 32)) (i lo n : Nat) : Nat := fld (nth l i 0) lo n

/-- R469: the image of a matched frame with its edge's settings. -/
def processed (l : List (BitVec 32)) (cfa w h : Nat) (img : Image) : Image :=
  let a := crossTalk (setting l 0 0 8) (setting l 0 16 8) img w h
  let b := greenBalance cfa (setting l 1 0 12) a w h
  levelled (setting l 2 0 12) (setting l 2 16 12) b

/-! ## Outputs (R470) -/

/-- R470: the scaled output; `w` and `h` are those of the frame. -/
def scaledBytes (l : List (BitVec 32)) (w h : Nat) (img : Image) : Bytes :=
  if setting l 5 2 1 = 0 then []
  else
    let k := setting l 5 0 2
    let n := 2 ^ k
    ((List.range (h / n)).flatMap (fun y => (List.range (w / n)).map (fun x =>
      ((List.range n).map (fun dy => ((List.range n).map (fun dx => nth (nth img (n * y + dy) []) (n * x + dx) 0)).sum)).sum / 4 ^ k))).flatMap
      (fun v => if setting l 5 3 1 = 0 then leBytes 1 (v / 16 % 256) else leBytes 2 v)

/-- R470: the crop output; a pixel outside the frame is 0. -/
def cropBytes (l : List (BitVec 32)) (img : Image) : Bytes :=
  let cw := setting l 4 0 13
  if cw = 0 then []
  else (List.range (setting l 4 16 13)).flatMap (fun y => (List.range cw).flatMap (fun x =>
    leBytes 2 (nth (nth img (setting l 3 16 12 + y) []) (setting l 3 0 12 + x) 0)))

/-! ## Windows (R471) -/

/-- R471: the 24 bytes of one window. -/
def windowBytes (l : List (BitVec 32)) (w h : Nat) (img : Image) (i : Nat) : Bytes :=
  let x0 := setting l (10 + 2 * i) 0 12
  let y0 := setting l (10 + 2 * i) 16 12
  let ww := setting l (11 + 2 * i) 0 13
  let thr := setting l 6 0 12
  let shadow := setting l 6 12 1 = 1
  if ww = 0 then List.replicate 24 0
  else
    let pts := (List.range (setting l (11 + 2 * i) 16 13)).flatMap (fun y => (List.range ww).filterMap (fun x =>
      if x0 + x < w && y0 + y < h then
        let p := nth (nth img (y0 + y) []) (x0 + x) 0
        some (x, y, if shadow then thr - p else p - thr)
      else none))
    let mass := (pts.map (fun z => z.2.2)).sum
    let cen := fun (f : Nat × Nat × Nat → Nat) => if mass = 0 then 0xFFFFFFFF else 256 * (pts.map (fun z => z.2.2 * f z)).sum / mass
    leBytes 8 mass ++ leBytes 4 (cen (fun z => z.1)) ++ leBytes 4 (cen (fun z => z.2.1)) ++
      leBytes 2 (pts.foldl (fun m z => max m z.2.2) 0) ++ leBytes 2 0 ++ leBytes 4 ((pts.filter (fun z => decide (0 < z.2.2))).length)

namespace State

/-! ## Pipelines -/

/-- R463: the enabled pipeline of a port. -/
def portPipe (s : State) (q : Nat) : Option Nat :=
  (List.range 2).find? (fun p => s.pipeOn p && s.rfld (Reg.CAM_CFG p) 1 1 = q)

def camWidth (s : State) (p : Nat) : Nat := s.rfld (Reg.CAM_SIZE p) 0 13
def camHeight (s : State) (p : Nat) : Nat := s.rfld (Reg.CAM_SIZE p) 16 12
def camFormat (s : State) (p : Nat) : Nat := s.rfld (Reg.CAM_CFG p) 4 2

/-- Who may write a pipeline's registers. -/
def mayCamera (s : State) (w p : Nat) : Bool := w != 0 && (w = s.super || w = s.rfld (Reg.CAM_CFG p) 8 6)

/-- R462: a packet error. -/
def csiError (s : State) : State := (s.event Reg.CAM_EVENT 0).raise Src.CAM_CSI_ERR

/-- The frame's image as processed, with the number of lines it has. -/
def frameImage (s : State) (p : Nat) (f : CamFrame) : Image :=
  processed f.entry.settings (s.rfld (Reg.CAM_CFG p) 6 2) (s.camWidth p) f.lines.length f.lines

/-- R470: bytes of an output that fit its slot are written; whether any did not. -/
def writeOutput (s : State) (base room off : Nat) (bs : Bytes) : State × Bool :=
  let fit := bs.take (room - off)
  ((s.wr (base + off) fit).movedLines 2 (base + off) fit.length, fit.length != bs.length)

/-- R470: the outputs of a frame go into its image slot. -/
def writeOutputs (s : State) (p : Nat) (f : CamFrame) : State × Bool :=
  let l := f.entry.settings
  let img := s.frameImage p f
  let room := s.rfld (Reg.CAM_IMG_HI p) 8 8 * 0x100000
  let base := (s.reg (Reg.CAM_IMG_LO p)).toNat + 2 ^ 32 * s.rfld (Reg.CAM_IMG_HI p) 0 8 +
    f.entry.fseq % s.rfld (Reg.CAM_IMG_HI p) 16 8 * room
  let a := scaledBytes l (s.camWidth p) f.lines.length img
  let (s, t1) := s.writeOutput base room 0 a
  let (s, t2) := s.writeOutput base room ((a.length + 4095) / 4096 * 4096) (cropBytes l img)
  (s, t1 || t2)

/-- R472: the record of the frame that has ended; one that is BAD counts and raises FRAME_BAD. -/
def statsRecord (s : State) (p : Nat) : State :=
  match (s.pipe p).closed with
  | none => s
  | some f =>
    let l := f.entry.settings
    let img := s.frameImage p f
    let valid := f.flags = 0
    let flags := (setBit (setBit f.flags 0 valid) 4 f.trunc).toNat
    let head := leBytes 4 f.entry.fseq ++ leBytes 2 f.entry.gen ++ leBytes 1 p ++ leBytes 1 flags ++ leBytes 8 f.entry.at_ ++
      leBytes 8 f.fsAt ++ leBytes 2 (f.entry.fseq % s.rfld (Reg.CAM_IMG_HI p) 16 8) ++ leBytes 2 f.lines.length ++ leBytes 4 0
    let body := head ++ (List.range 16).flatMap (windowBytes l (s.camWidth p) f.lines.length img)
    let s := (s.writeMem (Config.seqPool + s.rfld (Reg.CAM_STATBASE p) 0 23 + 512 * (f.entry.fseq % 16)) (slicePad body 0 512)).1
    let s := (s.updPipe p (fun k => { k with closed := none })).count (Reg.CAM_FRAMES p) 1
    let s := if valid then s else ((s.count (Reg.CAM_BAD p) 1).event Reg.CAM_EVENT 1).raise Src.CAM_FRAME_BAD
    s.raiseEvent (s.rfld (Reg.CAM_CFG p) 8 6) 11

/-- The open frame ends, with the flags it has then; a frame still waiting for its record gets it first. -/
def closeFrame (s : State) (p : Nat) (f : CamFrame) : State :=
  let s := s.statsRecord p
  let (s, trunc) := s.writeOutputs p f
  s.updPipe p (fun k => { k with open_ := none, closed := some { f with trunc := trunc } })

/-- R468: the entries older than FRAME_TMO are dropped. -/
def dropStaleEdges (s : State) (p : Nat) : State :=
  let lim := s.rfld (Reg.CAM_STATBASE p) 24 8 * 1000000
  let old := (s.pipe p).queue.filter (fun e => decide (lim < s.now - e.at_))
  let s := s.updPipe p (fun k => { k with queue := k.queue.filter (fun e => !old.contains e) })
  old.foldl (fun s _ => ((s.count (Reg.CAM_MISSED p) 1).event Reg.CAM_EVENT 2).raise Src.CAM_FRAME_MISSED) s

/-- R462, R464, R468: a frame start on a port. -/
def frameStart (s : State) (q : Nat) : State :=
  match s.portPipe q with
  | none => ((s.count (Reg.CAM_UNOWNED q) 1).event Reg.CAM_EVENT 4).raise Src.CAM_UNOWNED
  | some p =>
    let s := match (s.pipe p).open_ with
      | some f => s.closeFrame p { f with flags := setBit f.flags 1 true }
      | none => s
    let s := s.dropStaleEdges p
    match (s.pipe p).queue with
    | [] => ((s.updPipe p (fun k => { k with untrig := true })).count (Reg.CAM_UNTRIG p) 1).event Reg.CAM_EVENT 3
    | e :: rest =>
      let now := s.now
      s.updPipe p (fun k =>
        let f : CamFrame := { entry := e, fsAt := now, lines := [], flags := 0, trunc := false }
        { k with queue := rest, open_ := some f, untrig := false })

/-- A flag of the open frame. -/
def flagFrame (s : State) (p i : Nat) : State :=
  s.updPipe p (fun k => { k with open_ := k.open_.map (fun f => { f with flags := setBit f.flags i true }) })

/-- R461, R462: a long packet on the port of a pipeline. -/
def longPacket (s : State) (p : Nat) (k : CsiPacket) : State :=
  if k.header = 2 then s.csiError.flagFrame p 3
  else
    let s := if k.header = 1 then s.csiError else s
    let w := s.camWidth p
    let fm := s.camFormat p
    if k.vc = 0 && k.dataType = 0x12 then s
    else if k.vc != 0 || k.dataType != csiType fm then s.csiError
    else if !k.crcGood then s.csiError.flagFrame p 2
    else if k.wordCount != lineBytes fm w then s.csiError.flagFrame p 1
    else
      let line := (List.range w).map (unpackPixel fm k.data)
      let h := s.camHeight p
      s.updPipe p (fun z => { z with open_ := z.open_.map (fun f =>
        if f.lines.length < h then { f with lines := f.lines ++ [line] } else { f with flags := setBit f.flags 1 true }) })

/-- R462: a frame end. -/
def frameEnd (s : State) (p : Nat) : State :=
  match (s.pipe p).open_ with
  | some f => s.closeFrame p (if f.lines.length = s.camHeight p then f else { f with flags := setBit f.flags 1 true })
  | none => s.updPipe p (fun k => { k with untrig := false })

/-- R466: a write of CAM_COMMIT. -/
def commitSettings (s : State) (w p : Nat) : State × RegResult :=
  let c := s.reg (Reg.CAM_EXP_C p)
  let width := max 1 (fld c 0 12)
  if !s.mayCamera w p then (s, .perm)
  else if fld c 12 2 = 2 && fld c 16 16 < width + 32 then (s.event Reg.CAM_EVENT 5, .ok)
  else
    let regs := (settingRegs p).map (fun a => s.reg a)
    (s.updPipe p (fun k => { k with gen := (k.gen + 1) % 65536, inForce := regs }), .ok)

end State

/-! ## The commands -/

/-- R464, R468. -/
def execCsiFrameStart (port t : Nat) (s : State) : Out :=
  whenClocked s (fun s => if s.unitPresent 0x28 then (s.at_ t).frameStart port else s)

/-- R462. -/
def execCsiLongPacket (port : Nat) (p : CsiPacket) (s : State) : Out :=
  whenClocked s (fun s => match s.portPipe port with
    | some i => s.longPacket i p
    | none => s)

/-- R462. -/
def execCsiFrameEnd (port : Nat) (s : State) : Out :=
  whenClocked s (fun s => match s.portPipe port with
    | some i => s.frameEnd i
    | none => s)

/-- R472. -/
def execCamStatsRecord (p : Nat) (s : State) : Out := whenClocked s (fun s => s.statsRecord p)

/-- R466; without CAM the writer takes ABSENT (R6). -/
def execCamCommit (w p : Nat) (s : State) : Out :=
  whenClocked s (fun s => State.wrote (if s.unitPresent 0x28 then s.commitSettings w p else (s, .absent)) w (Reg.CAM_COMMIT p))

end Sys2Proof.Machine
end

