-- ==== Sys2Proof/Machine/Ether.lean ====
section
/-! DEFINITION. The Ethernet port: negotiation, received PTP frames and transmit descriptors (R448 to R453). -/

namespace Sys2Proof.Machine

/-! ## Frames -/

/-- A field of a frame as it travels: most significant byte first. -/
def fieldBE (bs : Bytes) (off n : Nat) : Nat := leNat (slicePad bs off n).reverse

/-- Byte 14 of a PTP frame: messageType. -/
def ptpType (f : Bytes) : Nat := fieldLE f 14 1 % 16

/-- R449: destination, Ethertype and FCS of an accepted frame; one that a buffer of 2 KiB cannot hold is a jumbo frame (R448). -/
def acceptable (mac : Bytes) (f : Bytes) : Bool :=
  let d := f.take 6
  f.length ≤ 2032 && 14 ≤ f.length && fieldBE f 12 2 = 0x88F7 &&
    (d = mac || fieldBE f 0 6 = 0x011B19000000 || fieldBE f 0 6 = 0x0180C200000E)

/-- `bs` with `new` at `off`. -/
def patch (bs : Bytes) (off : Nat) (new : Bytes) : Bytes := bs.take off ++ new ++ bs.drop (off + new.length)

/-- R452: a one-step frame as it leaves at `t3`; none for any other message. -/
def oneStep (f : Bytes) (t3 : Nat) : Option Bytes :=
  if fieldBE f 12 2 != 0x88F7 then none
  else if ptpType f = 0 then
    some (patch f 48 ((leBytes 6 (t3 / 1000000000)).reverse ++ (leBytes 4 (t3 % 1000000000)).reverse))
  else if ptpType f = 3 then some (patch f 22 (leBytes 8 ((fieldBE f 22 8 + t3 * 65536) % 2 ^ 64)).reverse)
  else none

namespace State

def etherMac (s : State) : Bytes := leBytes 4 (s.reg Reg.ETH_MAC_LO).toNat ++ leBytes 2 (s.rfld Reg.ETH_MAC_HI 0 16)

def etherUp (s : State) : Bool := s.unitPresent 0x24 && s.rbit Reg.ETH_STAT 0

/-! ## Receive (R449, R450) -/

/-- The buffer at ETH_RXHEAD is still owned by the program: bit 31 of the stored index says that every buffer is. -/
def rxFull (s : State) : Bool := s.rbit Reg.ETH_RXHEAD 31

/-- R449, R450: a frame arrives; its stamp is the timebase less RXLAT, rounded down to ns (log entry 44). -/
def etherIn (s : State) (f : Bytes) (good : Bool) : State :=
  let s := if good then s else s.count Reg.ETH_FCSERR 1
  if !good || !acceptable s.etherMac f then s.count Reg.ETH_RXDROP 1
  else if s.rxFull then (s.count Reg.ETH_RXDROP 1).event Reg.ETH_EVENT 2
  else
    let h := s.rfld Reg.ETH_RXHEAD 0 6
    let stamp := (s.now * 8 - s.rfld Reg.ETH_LAT 0 16) / 8
    let ev := if ptpType f ≤ 3 then 1 else 0
    let b := leBytes 2 f.length ++ leBytes 2 ev ++ leBytes 4 0 ++ leBytes 8 stamp ++ f
    let s := (s.writeMem (Config.seqPool + s.rfld Reg.ETH_RXBASE 0 23 + 2048 * h) b).1
    let h2 := (h + 1) % 64
    let full := h2 = s.rfld Reg.ETH_RXTAIL 0 6
    let s := s.setReg Reg.ETH_RXHEAD (setBit (setFld 0 0 6 h2) 31 full)
    let owner := s.rfld Reg.ETH_CTRL 8 6
    (s.count Reg.ETH_RXFRAMES 1).raiseEvent (if owner = 0 then s.super else owner) 12

/-- R450: a write of ETH_RXTAIL by the owner or the supervisor. -/
def rxTail (s : State) (w v : Nat) : State × RegResult :=
  let owner := s.rfld Reg.ETH_CTRL 8 6
  if w != 0 && (w = s.super || w = owner) then
    let moved := v % 64 != s.rfld Reg.ETH_RXTAIL 0 6
    let s := s.setReg Reg.ETH_RXTAIL (setFld 0 0 6 v)
    (if moved then s.setRfld Reg.ETH_RXHEAD 31 1 0 else s, .ok)
  else (s, .perm)

/-! ## Transmit (R451, R452) -/

/-- R451: the doorbell names the last descriptor queued; bit 31 of the stored word says that descriptors wait. -/
def txDoorbell (s : State) (idx : Nat) : State := s.setReg Reg.ETH_TXDB (setBit (setFld 0 0 4 idx) 31 true)

/-- R451: the descriptor at ETH_TXDONE ends with a status; TXTIME is written when STAMP asks for it. -/
def txEnds (s : State) (d : Bytes) (a status : Nat) (time : Option Nat) : State :=
  let flags := fieldLE d 6 1 % 128 + 128
  let s := (s.writeMem (a + 6) (leBytes 1 flags ++ leBytes 1 status)).1
  let s := match time with
    | some t => (s.writeMem (a + 8) (leBytes 8 t)).1
    | none => s
  let k := s.rfld Reg.ETH_TXDONE 0 4
  let s := if k = s.rfld Reg.ETH_TXDB 0 4 then s.setReg Reg.ETH_TXDB 0 else s
  s.setReg Reg.ETH_TXDONE (setFld 0 0 4 (k + 1))

/-- R451, R452: the next descriptor's frame is refused, is malformed, or leaves; TXTIME is the timebase plus TXLAT, rounded
down to ns (log entry 44).  A descriptor outside its ranges, or a frame with a byte that reads uncorrectable, ends with FORMAT
(log entry 45). -/
def etherOut (s : State) : State :=
  let a := Config.seqPool + s.rfld Reg.ETH_TXBASE 0 23 + 16 * s.rfld Reg.ETH_TXDONE 0 4
  let d := s.rd a 16
  let off := fieldLE d 0 4
  let n := fieldLE d 4 2
  let f := s.rd (Config.seqPool + off) n
  let t3 := (s.now * 8 + s.rfld Reg.ETH_LAT 16 16) / 8
  let typ := fieldBE f 12 2
  let bad := n < 60 || 1514 < n || off % 8 != 0 || Config.poolEnd < Config.seqPool + off + n ||
    (List.range n).any (fun i => s.badAt (Config.seqPool + off + i))
  if bad then s.txEnds d a 2 none
  else if slicePad f 6 6 != s.etherMac || (typ != 0x88F7 && typ != 0x88B5) then (s.txEnds d a 1 none).event Reg.ETH_EVENT 1
  else
    let out := if fieldLE d 6 1 % 2 = 1 then oneStep f t3 else some f
    match out with
    | none => s.txEnds d a 2 none
    | some g =>
      let stamp := if fieldLE d 6 1 / 2 % 2 = 1 then some t3 else none
      ((s.txEnds d a 0 stamp).count Reg.ETH_TXFRAMES 1).emit (.eth g)

end State

/-! ## The commands -/

/-- R448, R504. -/
def execEthAnDone (fullDuplex : Bool) (s : State) : Out :=
  whenClocked s (fun s =>
    if s.unitPresent 0x24 && s.rbit Reg.ETH_CTRL 0 && 8 ≤ s.boot.phase then
      s.setReg Reg.ETH_STAT (setBit (setBit (setBit 0 0 fullDuplex) 1 true) 2 fullDuplex)
    else s)

/-- R448. -/
def execEthLinkLoss (s : State) : Out :=
  whenClocked s (fun s =>
    if s.etherUp then ((s.setReg Reg.ETH_STAT 0).event Reg.ETH_EVENT 0).raise Src.ETH_ETH_LINK else s)

/-- R449, R450, R504: frames are accepted from SEQ onward. -/
def execEthRxFrame (frame : Bytes) (fcsGood : Bool) (t : Nat) (s : State) : Out :=
  whenClocked s (fun s =>
    let s := s.at_ t
    if s.etherUp && 10 ≤ s.boot.phase then s.etherIn frame fcsGood else s)

/-- R451. -/
def execEthTxdb (w idx : Nat) (s : State) : Out :=
  whenClocked s (fun s =>
    if !s.unitPresent 0x24 then s.absentTrap w Reg.ETH_TXDB
    else if w != 0 then s.txDoorbell idx else s)

/-- R451, R452. -/
def execEthTxDone (t : Nat) (s : State) : Out :=
  whenClocked s (fun s =>
    let s := s.at_ t
    if s.etherUp && s.rbit Reg.ETH_TXDB 31 then s.etherOut else s)

end Sys2Proof.Machine
end

