-- ==== Sys2Proof/Machine/Memory.lean ====
section
/-! DEFINITION. Invalidation (R367), the scrubber (R383 to R386) and the DRAM channels (R387 to R394). -/

namespace Sys2Proof.Machine

namespace State

/-! ## Invalidation (R367) -/

/-- R367: a write of XLT_INVAL by context `w`: a job context names only itself, and ALL is the supervisor's. -/
def xltInval (s : State) (w : Nat) (v : BitVec 32) : State × RegResult :=
  let c := fld v 0 6
  if bit v 10 then
    if w != s.super then (s, .perm) else (({ s with tlb := [] }).count Reg.XLT_INVALS 1, .ok)
  else if w != c && w != s.super then (s, .perm)
  else ((s.invalidate c (fld v 8 2) (s.rfld Reg.XLT_INV_VA 0 27 * 4096)).count Reg.XLT_INVALS 1, .ok)

/-! ## The scrubber (R383 to R386) -/

/-- R384: whether a range of 64-byte lines may be scrubbed: aligned, not empty, inside one pool or present DRAM. -/
def scrubRange (s : State) (a lines : Nat) : Bool :=
  let last := a + 64 * lines - 1
  a % 64 = 0 && 1 ≤ lines && s.inMemory a && s.inMemory last && decide (poolOf a = poolOf last)

/-- R384: GO in MEM_SCRUB_CTRL. -/
def startScrub (s : State) : State :=
  let a := (s.reg Reg.MEM_SCRUB_LO).toNat + 2 ^ 32 * s.rfld Reg.MEM_SCRUB_HI 0 8
  let lines := (s.reg Reg.MEM_SCRUB_LEN).toNat
  if s.mu.scrub.isSome || !s.scrubRange a lines then s.event Reg.MEM_EVENT 6
  else
    let run : ScrubRun := { next := a, left := lines, lines := 0, ce := 0, ue := 0, first := none }
    { s with mu := { s.mu with scrub := some run } }

/-- One line read by the scrubber: what can be corrected is; a line with an uncorrectable byte is reported once (R386).
The answer also holds the correctable errors found, and whether a byte was uncorrectable. -/
def scrubAt (s : State) (a : Nat) : State × Nat × Bool :=
  let s := s.movedLines 3 a 64
  let ce := (s.mu.ces.filter (fun e => decide (a ≤ e) && decide (e < a + 64))).length
  let bad := (List.range 64).find? (fun i => s.badAt (a + i))
  let s := s.repairRange 0 a 64
  match bad with
  | some i => (s.reportUE .scrubber 0 (a + i), ce, true)
  | none => (s, ce, false)

/-- R385: a range scrub that has read its last line. -/
def scrubEnds (s : State) (r : ScrubRun) : State :=
  let first := r.first.getD 0
  let s := { s with mu := { s.mu with scrub := none } }
  let s := (s.setReg Reg.MEM_SC_LINES (BitVec.ofNat 32 r.lines)).setReg Reg.MEM_SC_CE (BitVec.ofNat 32 r.ce)
  let s := (s.setReg Reg.MEM_SC_UE (BitVec.ofNat 32 r.ue)).setReg Reg.MEM_SC_FIRST_LO (BitVec.ofNat 32 first)
  let s := s.setReg Reg.MEM_SC_FIRST_HI (BitVec.ofNat 32 (first >>> 32))
  ((s.event Reg.MEM_EVENT 4).raiseEvent s.super 15).keepersGoOn

/-- The next line of the range scrub. -/
def rangeLine (s : State) : State :=
  match s.mu.scrub with
  | none => s
  | some r =>
    match s.sleeping r.next with
    | some ch => s.postReq ch 3 52
    | none =>
      let (s, ce, bad) := s.scrubAt r.next
      let r : ScrubRun := { next := r.next + 64, left := r.left - 1, lines := r.lines + 1, ce := r.ce + ce,
                            ue := r.ue + (if bad then 1 else 0),
                            first := if bad && r.first.isNone then some r.next else r.first }
      if r.left = 0 then s.scrubEnds r else { s with mu := { s.mu with scrub := some r } }

/-- R383: the next line of the background pass, over SRAM or over DRAM: how the two take turns is a free value (log entry
31). -/
def backgroundLine (s : State) : State :=
  if s.mu.scrub.isSome then s
  else
    let (v, s) := s.draw
    if bit v 0 then
      let a := s.mu.bgPos
      let (s, _, _) := s.scrubAt a
      { s with mu := { s.mu with bgPos := if a + 64 < Config.poolEnd then a + 64 else Config.dosePool } }
    else
      let a := s.mu.dramPos
      match s.sleeping a with
      | some ch => s.postReq ch 3 52
      | none =>
        let (s, _, _) := s.scrubAt a
        { s with mu := { s.mu with dramPos := if a + 64 < Config.dramBytes s.die.variant then a + 64 else 0 } }

/-! ## DRAM channels (R388 to R394) -/

/-- R392: a refresh falls due: it may be postponed while a C0 request waits, up to four times; otherwise all that are owed
are made. -/
def refreshDue (s : State) (ch : Nat) : State :=
  let owed := nth s.dmc.postponed ch 0
  let c0 := s.dmc.reqs.any (fun r => r.chan = ch && r.cls = 0)
  { s with dmc := { s.dmc with postponed := upd s.dmc.postponed ch (fun _ => if c0 && owed < 4 then owed + 1 else 0) } }

/-- R392: a temperature: above 85 °C the channel is hot and refreshes twice as often; the messages come with the reading
that passes a limit (log entry 32). -/
def dramTemp (s : State) (ch : Nat) (temp : Int) : State :=
  let was := nth s.dmc.temps ch 0
  let s := { s with dmc := { s.dmc with temps := upd s.dmc.temps ch (fun _ => temp), hot := setBit s.dmc.hot ch (85 < temp) } }
  let top := s.dmc.temps.foldl max (nth s.dmc.temps 0 0)
  let s := s.setReg Reg.DMC_TEMP (BitVec.ofNat 32 (uNat 8 top))
  let s := if 85 < temp && was ≤ 85 then (s.event Reg.DMC_EVENT 2).raise Src.DMC_DRAM_HOT else s
  if 95 < temp && was ≤ 95 then (s.event Reg.DMC_EVENT 3).raise Src.DMC_DRAM_TEMP else s

/-- R393: no request waits and no refresh is owed. -/
def enterSelfRefresh (s : State) (ch : Nat) : State :=
  if s.dmc.reqs.any (fun r => r.chan = ch) || nth s.dmc.postponed ch 0 != 0 || bit s.dmc.selfRef ch then s
  else ({ s with dmc := { s.dmc with selfRef := setBit s.dmc.selfRef ch true } }).count Reg.DMC_SR_ENTRIES 1

/-- R393: the channel serves the requests that waited. -/
def leaveSelfRefresh (s : State) (ch : Nat) : State :=
  { s with dmc := { s.dmc with selfRef := setBit s.dmc.selfRef ch false,
                               reqs := s.dmc.reqs.filter (fun r => r.chan != ch) } }

/-- R388: the oldest C2 or C3 request of a channel is promoted one class. -/
def promoteReq (s : State) (ch : Nat) : State :=
  match s.dmc.reqs.findIdx? (fun r => r.chan = ch && 2 ≤ r.cls) with
  | none => s
  | some i =>
    ({ s with dmc := { s.dmc with reqs := upd s.dmc.reqs i (fun r => { r with cls := r.cls - 1 }) } }).count
      Reg.DMC_PROMOTED 1

/-- R394. -/
def failChannel (s : State) (ch : Nat) : State :=
  if bit s.dmc.failed ch then s
  else
    (({ s with dmc := { s.dmc with failed := setBit s.dmc.failed ch true } }).event Reg.DMC_EVENT 4).raise
      Src.DMC_CHANNEL_FAIL

end State

/-- The memories are initialised: start-up is past DRAM (R376, R503). -/
def whenMemory (s : State) (o : State → State) : Out := whenClocked s (fun s => if s.boot.phase ≤ 4 then s else o s)

/-! ## Commands -/

/-- R367: XLT_INVAL for one context. -/
def execXltInval (w : Nat) (v : Word) (s : State) : Out :=
  whenMemory s (fun s => State.wrote (s.xltInval w v) w Reg.XLT_INVAL)

/-- R367: XLT_INVAL with ALL. -/
def execXltInvalAll (w : Nat) (s : State) : Out :=
  whenMemory s (fun s => State.wrote (s.xltInval w (BitVec.ofNat 32 0x400)) w Reg.XLT_INVAL)

/-- R384. -/
def execScrubGo (s : State) : Out := whenMemory s (fun s => s.startScrub)

/-- R383, R385. -/
def execScrubLine (range : Bool) (s : State) : Out :=
  whenMemory s (fun s => if range then s.rangeLine else s.backgroundLine)

/-- R392. -/
def execRefresh (ch : Nat) (s : State) : Out := whenMemory s (fun s => s.refreshDue ch)

/-- R392. -/
def execDramTempRead (ch : Nat) (temp : Int) (s : State) : Out :=
  whenMemory s (fun s => if ch < 4 then s.dramTemp ch temp else s)

/-- R393. -/
def execSelfRefreshEntry (ch : Nat) (s : State) : Out :=
  whenMemory s (fun s => if ch < 4 then s.enterSelfRefresh ch else s)

/-- R393. -/
def execSelfRefreshExit (ch : Nat) (s : State) : Out := whenMemory s (fun s => s.leaveSelfRefresh ch)

/-- R388. -/
def execRequestPromotion (ch : Nat) (s : State) : Out := whenMemory s (fun s => s.promoteReq ch)

/-- R394. -/
def execChannelFail (ch : Nat) (s : State) : Out := whenMemory s (fun s => if ch < 4 then s.failChannel ch else s)

end Sys2Proof.Machine
end

