-- ==== Sys2Proof/Machine/MoverOps.lean ====
section
/-! DEFINITION. The DMA channels' shared work: ownership, engine reads and writes, halts, staging, completion (R396 to R406,
R421). -/

namespace Sys2Proof.Machine

/-! DMA_STAT.STATE. -/
namespace ChanSt

def IDLE : Nat := 0
def RUN : Nat := 1
def ENGINE_WAIT : Nat := 2
def FAULT : Nat := 3
def HALTED : Nat := 4

end ChanSt

/-- What an engine access found. -/
inductive Moved where
  | ok (bs : Bytes)
  | fault (va : Nat) (f : XltFault) (k : AccessKind)
  | uncorr
  | bus
  | waits (ch : Nat)
  deriving DecidableEq, Repr

namespace State

/-! ## Ownership and class (R396, R397) -/

/-- R396: the context whose DMAMASK names the channel; 0 when none does. -/
def chanOwner (s : State) (ch : Nat) : Nat :=
  ((List.range 64).find? (fun c => c != 0 && bit (s.ctx c).dmamask ch)).getD 0

/-- R397: the DRAM class of the channel's requests. -/
def chanClass (s : State) (ch : Nat) : Nat := if s.rbit (Reg.DMA_CFG ch) 0 then 1 else 2

/-! ## Engine accesses (R360, R370) -/

/-- R360: what a DMA channel or a check-value unit reaches. -/
def engineReach (s : State) (a n : Nat) : Bool :=
  (s.inDram a && s.inDram (a + n - 1)) || (Config.seqPool ≤ a && a + n ≤ Config.poolEnd)

/-- Bytes left before the next 4 KiB boundary. -/
def pageLeft (va : Nat) : Nat := 4096 - va % 4096

/-- A read of `n` bytes inside one page for context `c`. -/
def engineRead (s : State) (r : Reader) (c cls va n : Nat) : State × Moved :=
  match s.translate c va .read r with
  | (s, .error f) => (s, .fault va f .read)
  | (s, .ok pa) =>
    if !s.engineReach pa n then (s, .bus)
    else
      match s.sleeping pa with
      | some ch => (s, .waits ch)
      | none =>
        match (s.movedLines cls pa n).readMem r c pa n with
        | (s, .ok bs) => (s, .ok bs)
        | (s, .uncorr) => (s, .uncorr)
        | (s, .busErr) => (s, .bus)

/-- A read of `n` bytes that may cross pages, piece by piece; `fuel` bounds the pieces. -/
def engineReadAll : Nat → State → Reader → Nat → Nat → Nat → Nat → State × Moved
  | 0, s, _, _, _, _, _ => (s, .ok [])
  | fuel + 1, s, r, c, cls, va, n =>
    if n = 0 then (s, .ok [])
    else
      let m := min n (pageLeft va)
      match s.engineRead r c cls va m with
      | (s, .ok bs) =>
        match engineReadAll fuel s r c cls (va + m) (n - m) with
        | (s, .ok rest) => (s, .ok (bs ++ rest))
        | (s, other) => (s, other)
      | (s, other) => (s, other)

/-- A write inside one page for context `c`. -/
def engineWrite (s : State) (c cls va : Nat) (bs : Bytes) : State × Moved :=
  match s.translate c va .write .dma with
  | (s, .error f) => (s, .fault va f .write)
  | (s, .ok pa) =>
    if !s.engineReach pa bs.length then (s, .bus)
    else
      match s.sleeping pa with
      | some ch => (s, .waits ch)
      | none =>
        match (s.movedLines cls pa bs.length).writeMem pa bs with
        | (s, true) => (s, .ok [])
        | (s, false) => (s, .bus)

/-! ## Events and halts (R401, R404 to R406) -/

/-- DMA_DONE (event 0) or DMA_ERR (event 1) for the channel's owner. -/
def dmaEvent (s : State) (ch e : Nat) : State := s.raiseEvent (s.chanOwner ch) e

/-- The next owner of an engine that is released: by channel priority, and then in order of arrival. -/
def nextOwner (s : State) (l : List Nat) : Option Nat := (l.find? (fun c => s.rbit (Reg.DMA_CFG c) 0)).or l.head?

/-- The channel leaves the inflater and the deflater, which it owned or waited for; the next in line takes them. -/
def releaseEngines (s : State) (ch : Nat) : State :=
  let m := s.mv
  let iw := m.infWait.filter (· != ch)
  let dw := m.defWait.filter (· != ch)
  let io := if m.infOwner = some ch then s.nextOwner iw else m.infOwner
  let dO := if m.defOwner = some ch then s.nextOwner dw else m.defOwner
  let s := { s with mv := { m with infOwner := io, infWait := iw.filter (fun c => some c != io), defOwner := dO,
                                   defWait := dw.filter (fun c => some c != dO) } }
  let wake := fun (s : State) (o : Option Nat) => match o with
    | some c => if c != ch && (s.chan c).st = ChanSt.ENGINE_WAIT then s.updChan c (fun k => { k with st := ChanSt.RUN }) else s
    | none => s
  wake (wake s io) dO

/-- R406: the channel halts with a cause; its transform state is discarded. -/
def haltChan (s : State) (ch cause : Nat) : State :=
  (s.updChan ch (fun k => { k with st := ChanSt.HALTED, cause := cause, desc := none, started := false, input := [], out := [],
                                   xf := .plain, status := none, stop := false, faultAt := none })).releaseEngines ch

/-- A STOP, or a HALT reaction, at a beat boundary: the descriptor in progress gets STOPPED; with none, the channel halts
at once.  One that holds a fault stops when its slot is cleared (R369). -/
def stopChan (s : State) (ch : Nat) : State :=
  let k := s.chan ch
  if k.st = ChanSt.IDLE || k.st = ChanSt.HALTED then s
  else if k.st = ChanSt.FAULT || k.status.isSome then s.updChan ch (fun k => { k with stop := true })
  else if k.desc.isNone then s.haltChan ch 4
  else s.updChan ch (fun k => { k with st := ChanSt.RUN, stop := true, status := some DmaSt.STOPPED })

/-- A DMA message with the channel as its detail and the completion status as its kind (R474), and the HALT reaction on
the channel (R476). -/
def dmaFault (s : State) (ch src status : Nat) : State :=
  let s := s.raiseMsg { src := src, kind := status, ctx := s.chanOwner ch, detail := BitVec.ofNat 42 ch }
  if s.rbit (Reg.FCO_SEV src) 14 then s.stopChan ch else s

/-- R369: a channel stops at a translation fault. -/
def chanFault (s : State) (ch va : Nat) (f : XltFault) (k : AccessKind) : State :=
  let t := s.clk.pclk
  (s.updChan ch (fun c => { c with st := ChanSt.FAULT, faultAt := some t })).slotFault ch (s.chanOwner ch) va f k

/-- The status of the descriptor in progress is decided. -/
def chanStatus (s : State) (ch status : Nat) : State := s.updChan ch (fun k => { k with status := some status })

/-- What an access other than a good one makes of the descriptor in progress (R370, R377, R403). -/
def chanMiss (s : State) (ch : Nat) (m : Moved) : State :=
  match m with
  | .ok _ => s
  | .fault va f k => s.chanFault ch va f k
  | .uncorr => s.chanStatus ch DmaSt.UNCORR
  | .bus => s.chanStatus ch DmaSt.BUS
  | .waits c => s.postReq c (s.chanClass ch) ch

/-! ## GO and the descriptor (R398, R400, R404 to R406) -/

/-- R396, R406: GO and STOP of DMA_CMD.  A channel that no context names stays IDLE. -/
def dmaCmd (s : State) (w ch : Nat) (go stop : Bool) : State × RegResult :=
  if w != s.super && (w = 0 || w != s.chanOwner ch) then (s, .perm)
  else
    let st := (s.chan ch).st
    let s := if !go || s.chanOwner ch = 0 then s
      else if st != ChanSt.IDLE && st != ChanSt.HALTED then s.event Reg.DMA_EVENT 0
      else
        let head := (s.reg (Reg.DMA_HEAD_LO ch)).toNat / 64 * 64 + 2 ^ 32 * (s.reg (Reg.DMA_HEAD_HI ch)).toNat
        s.updChan ch (fun k => { Chan.reset with st := ChanSt.RUN, last := k.last, nextVa := head })
    (if stop then s.stopChan ch else s, .ok)

def parseDesc (va : Nat) (bs : Bytes) : Desc :=
  { va := va, op := fieldLE bs 0 1, flags := BitVec.ofNat 8 (fieldLE bs 1 1), count := fieldLE bs 4 4,
    src := fieldLE bs 8 8, dst := fieldLE bs 16 8, next := fieldLE bs 24 8, param0 := BitVec.ofNat 64 (fieldLE bs 32 8) }

/-- R400: a field out of range, or a COUNT that the operation does not admit. -/
def descBad (d : Desc) (bs : Bytes) : Bool :=
  d.op = 0 || 6 < d.op || fld d.flags 4 4 != 0 || fieldLE bs 2 2 != 0 || fieldLE bs 40 8 != 0 ||
  (bit d.flags 0 && d.next % 64 != 0) ||
  ((d.op = 1 || d.op = 3) && d.param0 != 0) || (d.op = 2 && d.src != 0) ||
  (4 ≤ d.op && d.count = 0) ||
  (d.op = 5 && (fld d.param0 0 32 = 0 || 67108864 < fld d.param0 0 32 || 64 < fld d.param0 32 8 || fld d.param0 41 23 != 0)) ||
  (d.op = 6 && (67108864 < d.count || fld d.param0 33 31 != 0 ||
    fld d.param0 0 32 < deflateBound (bit d.param0 32) d.count))

/-- R404: HOPLIMIT. -/
def hopLimit (s : State) (ch : Nat) : Nat :=
  let h := s.rfld (Reg.DMA_CFG ch) 8 20
  if h = 0 then 65536 else h

/-- R404, R405: the next descriptor is fetched, or the channel halts. -/
def fetchDesc (s : State) (ch : Nat) : State :=
  let k := s.chan ch
  if k.st != ChanSt.RUN || k.desc.isSome then s
  else if s.hopLimit ch ≤ k.hops then
    (((s.haltChan ch 2).event Reg.DMA_EVENT 1).dmaEvent ch 1).dmaFault ch Src.DMA_CHAIN_LIMIT 0
  else
    let va := k.nextVa
    let s := (s.setReg (Reg.DMA_CUR_LO ch) (BitVec.ofNat 32 va)).setReg (Reg.DMA_CUR_HI ch) (BitVec.ofNat 32 (va >>> 32))
    match s.engineRead .dma (s.chanOwner ch) (s.chanClass ch) va 64 with
    | (s, .ok bs) =>
      let d := parseDesc va bs
      let st : Option Nat := if descBad d bs then some DmaSt.FORMAT else if d.count = 0 then some DmaSt.OK else none
      s.updChan ch (fun k => { k with desc := some d, hops := k.hops + 1, started := false, inDone := 0, outDone := 0,
                                      input := [], out := [], xf := .plain,
                                      result := if d.op = 3 then BitVec.ofNat 64 (2 ^ 64 - 1) else 0, status := st })
    | (s, .bus) =>
      (((s.haltChan ch 1).event Reg.DMA_EVENT 2).dmaEvent ch 1).dmaFault ch Src.DMA_DESC_FETCH DmaSt.BUS
    | (s, .uncorr) =>
      (((s.haltChan ch 3).event Reg.DMA_EVENT 3).dmaEvent ch 1).dmaFault ch Src.DMA_UNCORR DmaSt.UNCORR
    | (s, m) => s.chanMiss ch m

/-! ## Starts (R399, R400, R407 to R410, R419) -/

/-- Whether an operation may start on the channel: the descriptor of that operation, not yet started. -/
def mayStart (s : State) (ch op : Nat) : Option Desc :=
  let k := s.chan ch
  match k.desc with
  | some d => if (k.st = ChanSt.RUN || k.st = ChanSt.ENGINE_WAIT) && k.status.isNone && !k.started && d.op = op then some d else none
  | none => none

/-- R400: the destination's first page is looked up: FORMAT when it lies in DRAM and is misaligned.  `true`: it may start. -/
def destination (s : State) (ch : Nat) (d : Desc) : State × Bool :=
  match s.translate (s.chanOwner ch) d.dst .write .dma with
  | (s, .error f) => (s.chanFault ch d.dst f .write, false)
  | (s, .ok pa) =>
    if s.inDram pa && d.dst % 4 != 0 then (s.chanStatus ch DmaSt.FORMAT, false) else (s, true)

/-- COPY and FILL start; COMPARE writes nothing and looks up no destination. -/
def startPlain (s : State) (ch op : Nat) : State :=
  match s.mayStart ch op with
  | none => s
  | some d =>
    if op = 3 then s.updChan ch (fun k => { k with started := true })
    else
      match s.destination ch d with
      | (s, true) => s.updChan ch (fun k => { k with started := true })
      | (s, false) => s

/-- R419: DECRYPT reads its header, checks it and takes its key.  A second NEWKEY decryption for a slot waits. -/
def startDecrypt (s : State) (ch : Nat) : State :=
  match s.mayStart ch 4 with
  | none => s
  | some d =>
    let x := s.chanOwner ch
    match s.destination ch d with
    | (s, false) => s
    | (s, true) =>
      match engineReadAll 3 s .dma x (s.chanClass ch) d.param0.toNat 112 with
      | (s, .ok h) =>
        let held := (nth s.mv.pend (s.ctx x).keyslot none).isSome
        if fieldLE h 6 2 / 2 % 2 = 1 && held && (s.ctx x).keyslot < 16 then
          s.updChan ch (fun k => { k with st := ChanSt.ENGINE_WAIT })
        else
          match s.decryptKey x d.count h with
          | (s, .error e) => (s.updChan ch (fun k => { k with st := ChanSt.RUN })).chanStatus ch e
          | (s, .ok (key, newKey)) =>
            s.updChan ch (fun k => { k with st := ChanSt.RUN, started := true, xf := .gcm key h newKey })
      | (s, m) => s.chanMiss ch m

/-- R407, R408: INFLATE takes the inflater, or waits for it. -/
def startInflate (s : State) (ch : Nat) : State :=
  match s.mayStart ch 5 with
  | none => s
  | some d =>
    if s.mv.infOwner.any (· != ch) then
      let s := s.updChan ch (fun k => { k with st := ChanSt.ENGINE_WAIT })
      if s.mv.infWait.contains ch then s else { s with mv := { s.mv with infWait := s.mv.infWait ++ [ch] } }
    else
      match s.destination ch d with
      | (s, false) => s
      | (s, true) =>
        let declared := fld d.param0 0 32
        let ratio := if fld d.param0 32 8 = 0 then 16 else fld d.param0 32 8
        let limit := min declared (min 67108864 (ratio * d.count))
        let s := { s with mv := { s.mv with infOwner := some ch } }
        s.updChan ch (fun k => { k with st := ChanSt.RUN, started := true, xf := .inflate limit declared (bit d.param0 40) })

/-- R410: DEFLATE takes the deflater, or waits for it. -/
def startDeflate (s : State) (ch : Nat) : State :=
  match s.mayStart ch 6 with
  | none => s
  | some d =>
    if s.mv.defOwner.any (· != ch) then
      let s := s.updChan ch (fun k => { k with st := ChanSt.ENGINE_WAIT })
      if s.mv.defWait.contains ch then s else { s with mv := { s.mv with defWait := s.mv.defWait ++ [ch] } }
    else
      match s.destination ch d with
      | (s, false) => s
      | (s, true) =>
        let s := { s with mv := { s.mv with defOwner := some ch } }
        s.updChan ch (fun k => { k with st := ChanSt.RUN, started := true, xf := .deflate (fld d.param0 0 32) (bit d.param0 32) })

/-! ## Beats (R370, R397, R399, R400) -/

/-- Whether a destination address lies in DRAM, as far as it translates. -/
def dstInDram (s : State) (c va : Nat) : State × Except XltFault Bool :=
  match s.translate c va .write .dma with
  | (s, .error f) => (s, .error f)
  | (s, .ok pa) => (s, .ok (s.inDram pa))

/-- Writes the head of the staging buffer as one beat: to DRAM whole words only, the last one of the output filled up
with 0 (`last`: nothing follows the buffer). -/
def writeBeat (s : State) (ch : Nat) (d : Desc) (last : Bool) : State :=
  let k := s.chan ch
  let c := s.chanOwner ch
  let va := d.dst + k.outDone
  match s.dstInDram c va with
  | (s, .error f) => s.chanFault ch va f .write
  | (s, .ok dram) =>
    let m := min (min 64 (pageLeft va)) k.out.length
    let m := if dram && !(last && m = k.out.length) then m / 4 * 4 else m
    let bs := k.out.take m
    let padded := if dram then bs ++ List.replicate ((4 - m % 4) % 4) 0 else bs
    if m = 0 then s
    else
      match s.engineWrite c (s.chanClass ch) va padded with
      | (s, .ok _) =>
        (s.updChan ch (fun k => { k with out := k.out.drop m, outDone := k.outDone + m })).count Reg.DMA_BEATS 1
      | (s, r) => s.chanMiss ch r

/-- A read beat of the source into `f`. -/
def readBeat (s : State) (ch : Nat) (d : Desc) (f : Bytes → Chan → Chan) : State :=
  let k := s.chan ch
  let va := d.src + k.inDone
  let n := min (min 64 (d.count - k.inDone)) (pageLeft va)
  match s.engineRead .dma (s.chanOwner ch) (s.chanClass ch) va n with
  | (s, .ok bs) => (s.updChan ch (fun k => f bs { k with inDone := k.inDone + n })).count Reg.DMA_BEATS 1
  | (s, m) => s.chanMiss ch m

/-- Ends the descriptor with OK once all of it is in and all of the output is out. -/
def plainEnds (s : State) (ch : Nat) (d : Desc) : State :=
  let k := s.chan ch
  if k.status.isNone && k.inDone = d.count && k.out.isEmpty then s.chanStatus ch DmaSt.OK else s

/-- COPY: one beat moves up to 64 bytes, both addresses translated before any byte moves. -/
def copyBeat (s : State) (ch : Nat) (d : Desc) : State :=
  let k := s.chan ch
  let c := s.chanOwner ch
  let src := d.src + k.inDone
  let dst := d.dst + k.outDone
  let n := min (min 64 (d.count - k.inDone)) (min (pageLeft src) (pageLeft dst - k.out.length))
  match s.dstInDram c dst with
  | (s, .error f) => s.chanFault ch dst f .write
  | (s, .ok dram) =>
    match s.engineRead .dma c (s.chanClass ch) src n with
    | (s, .ok bs) =>
      let all := k.out ++ bs
      let last := k.inDone + n = d.count
      let m := if dram && !last then all.length / 4 * 4 else all.length
      let put := all.take m
      let padded := if dram then put ++ List.replicate ((4 - m % 4) % 4) 0 else put
      let r := if m = 0 then (s, Moved.ok []) else s.engineWrite c (s.chanClass ch) dst padded
      match r with
      | (s, .ok _) =>
        ((s.updChan ch (fun k => { k with inDone := k.inDone + n, outDone := k.outDone + m, out := all.drop m })).count
          Reg.DMA_BEATS 1).plainEnds ch d
      | (s, e) => s.chanMiss ch e
    | (s, e) => s.chanMiss ch e

/-- FILL: the byte at address a takes byte a mod 8 of the pattern. -/
def fillBeat (s : State) (ch : Nat) (d : Desc) : State :=
  let k := s.chan ch
  let va := d.dst + k.inDone
  let n := min (min 64 (d.count - k.inDone)) (pageLeft va)
  let bs := (List.range n).map (fun i => BitVec.ofNat 8 (fld d.param0 (8 * ((va + i) % 8)) 8))
  match s.dstInDram (s.chanOwner ch) va with
  | (s, .error f) => s.chanFault ch va f .write
  | (s, .ok dram) =>
    let padded := if dram then bs ++ List.replicate ((4 - n % 4) % 4) 0 else bs
    match s.engineWrite (s.chanOwner ch) (s.chanClass ch) va padded with
    | (s, .ok _) =>
      ((s.updChan ch (fun k => { k with inDone := k.inDone + n, outDone := k.outDone + n })).count Reg.DMA_BEATS 1).plainEnds ch d
    | (s, m) => s.chanMiss ch m

/-- The offset of the first difference of two byte strings of one length. -/
def firstDiff (a b : Bytes) : Option Nat := (List.zip a b).findIdx? (fun p => p.1 != p.2)

/-- COMPARE: one beat of each operand; stops at the first difference. -/
def compareBeat (s : State) (ch : Nat) (d : Desc) : State :=
  let k := s.chan ch
  let c := s.chanOwner ch
  let a := d.src + k.inDone
  let b := d.dst + k.inDone
  let n := min (min 64 (d.count - k.inDone)) (min (pageLeft a) (pageLeft b))
  match s.engineRead .dma c (s.chanClass ch) a n with
  | (s, .ok x) =>
    match s.engineRead .dma c (s.chanClass ch) b n with
    | (s, .ok y) =>
      let s := s.count Reg.DMA_BEATS 1
      match firstDiff x y with
      | some i =>
        (s.updChan ch (fun k => { k with inDone := k.inDone + i, result := BitVec.ofNat 64 (k.inDone + i) })).chanStatus ch DmaSt.DIFFER
      | none => (s.updChan ch (fun k => { k with inDone := k.inDone + n })).plainEnds ch d
    | (s, m) => s.chanMiss ch m
  | (s, m) => s.chanMiss ch m

/-- DECRYPT: a write beat while plaintext waits, else a read beat; after the last write, the tag (R419 steps 3 and 4). -/
def decryptBeat (s : State) (ch : Nat) (d : Desc) (key : BitVec 256) (h : Bytes) : State :=
  let k := s.chan ch
  let s := if !k.out.isEmpty && (64 ≤ k.out.length || k.inDone = d.count) then s.writeBeat ch d (k.inDone = d.count)
    else
      s.readBeat ch d (fun bs k =>
        let all := k.input ++ bs
        { k with input := all, out := k.out ++ (segmentOpen h key all).1.drop k.input.length })
  let k := s.chan ch
  if k.status.isNone && k.st = ChanSt.RUN && k.inDone = d.count && k.out.isEmpty then
    if (segmentOpen h key k.input).2 = slicePad h 48 16 then s.chanStatus ch DmaSt.OK
    else (s.chanStatus ch DmaSt.AUTH).cryFail (s.chanOwner ch) DmaSt.AUTH
  else s

/-- INFLATE: a write beat while output waits, else a read beat; an end other than "more input" decides the status once what
precedes it is written (R407 to R409). -/
def inflateBeat (s : State) (ch : Nat) (d : Desc) (limit declared : Nat) (raw : Bool) : State :=
  let k := s.chan ch
  let r := inflate raw limit declared k.input
  let past := k.inDone = d.count || (r.1 != .short && r.1 != .ok)
  let s := if !k.out.isEmpty && (64 ≤ k.out.length || past) then s.writeBeat ch d past
    else if past then s
    else
      s.readBeat ch d (fun bs k =>
        let all := k.input ++ bs
        { k with input := all, out := k.out ++ (inflate raw limit declared all).2.1.drop (k.outDone + k.out.length) })
  let k := s.chan ch
  let r := inflate raw limit declared k.input
  let past := k.inDone = d.count || (r.1 != .short && r.1 != .ok)
  if k.status.isNone && k.st = ChanSt.RUN && past && k.out.isEmpty then
    (s.updChan ch (fun k => { k with inDone := r.2.2 })).chanStatus ch (infStatus r.1)
  else s

/-- DEFLATE: the input is read, then the output written. -/
def deflateBeat (s : State) (ch : Nat) (d : Desc) (raw : Bool) : State :=
  let k := s.chan ch
  if k.inDone < d.count then
    s.readBeat ch d (fun bs k =>
      let all := k.input ++ bs
      { k with input := all, out := if all.length = d.count then deflate raw all else [] })
  else
    let s := s.writeBeat ch d true
    let k := s.chan ch
    if k.status.isNone && k.st = ChanSt.RUN && k.out.isEmpty then s.chanStatus ch DmaSt.OK else s

/-- R397: one beat of the descriptor in progress. -/
def chanBeat (s : State) (ch : Nat) : State :=
  let k := s.chan ch
  match k.desc with
  | none => s
  | some d =>
    if k.st != ChanSt.RUN || !k.started || k.status.isSome then s
    else
      match k.xf with
      | .plain => if d.op = 1 then s.copyBeat ch d else if d.op = 2 then s.fillBeat ch d else s.compareBeat ch d
      | .gcm key h _ => s.decryptBeat ch d key h
      | .inflate limit declared raw => s.inflateBeat ch d limit declared raw
      | .deflate _ raw => s.deflateBeat ch d raw

/-! ## Completion (R401, R402, R406, R420, R421) -/

/-- R421: zeros over every byte written at DST; false when a beat cannot be written. -/
def wipe : Nat → State → Nat → Nat → Nat → State × Bool
  | 0, s, _, _, _ => (s, true)
  | fuel + 1, s, ch, va, n =>
    if n = 0 then (s, true)
    else
      let m := min (min 64 n) (pageLeft va)
      match s.dstInDram (s.chanOwner ch) va with
      | (s, .error _) => (s, false)
      | (s, .ok dram) =>
        match s.engineWrite (s.chanOwner ch) (s.chanClass ch) va (List.replicate (if dram then (m + 3) / 4 * 4 else m) 0) with
        | (s, .ok _) => wipe fuel (s.count Reg.DMA_BEATS 1) ch (va + m) (n - m)
        | (s, _) => (s, false)

/-- Bytes 48 to 63 of the descriptor (R401); a write that fails is recorded (R402). -/
def writeStatus (s : State) (ch : Nat) (d : Desc) (st done_ : Nat) (result : BitVec 64) : State :=
  match s.engineWrite (s.chanOwner ch) (s.chanClass ch) (d.va + 48) (leBytes 4 st ++ leBytes 4 done_ ++ leBytes 8 result.toNat) with
  | (s, .ok _) => s
  | (s, _) => (s.event Reg.DMA_EVENT 4).dmaEvent ch 1

/-- The counts of the inflater and the deflater (DFL). -/
def engineCounts (s : State) (k : Chan) (st : Nat) : State :=
  match k.xf with
  | .inflate _ _ _ =>
    let s := (s.count Reg.DFL_INF_IN k.inDone).count Reg.DFL_INF_OUT k.outDone
    if st = DmaSt.INF_LIMIT then s.event Reg.DFL_EVENT 1
    else if st = DmaSt.INF_FORMAT || st = DmaSt.INF_ADLER || st = DmaSt.INF_SHORT then s.event Reg.DFL_EVENT 0
    else s
  | .deflate _ _ => (s.count Reg.DFL_DEF_IN k.inDone).count Reg.DFL_DEF_OUT k.outDone
  | _ => s

/-- R420, R421: what a DECRYPT's end does to its keys and its output; false: the channel halts with cause WIPE. -/
def decryptEnds (s : State) (ch : Nat) (k : Chan) (d : Desc) (st : Nat) : State × Bool :=
  let x := s.chanOwner ch
  match k.xf with
  | .gcm key h newKey =>
    if st = DmaSt.OK then (s.decryptDone x h key newKey, true)
    else
      let s := if newKey then s.dropPending x else s
      wipe (k.outDone + 1) s ch d.dst k.outDone
  | _ => (s, true)

/-- After a completion: a stop, an uncorrectable read, the chain's next descriptor, or IDLE. -/
def chanGoesOn (s : State) (ch : Nat) (k : Chan) (d : Desc) (st : Nat) : State :=
  let s := s.releaseEngines ch
  let fresh := fun (k : Chan) => { k with desc := none, started := false, input := [], out := [], xf := .plain, status := none,
                                          last := st, hops := if bit d.flags 1 then 0 else k.hops }
  let s := s.updChan ch fresh
  if st = DmaSt.UNCORR then ((s.haltChan ch 3).event Reg.DMA_EVENT 3).dmaFault ch Src.DMA_UNCORR st
  else if k.stop then s.haltChan ch 4
  else if bit d.flags 0 then s.updChan ch (fun k => { k with st := ChanSt.RUN, nextVa := d.next })
  else s.updChan ch (fun k => { k with st := ChanSt.IDLE })

/-- R401: a descriptor whose status is decided completes. -/
def completeDesc (s : State) (ch : Nat) : State :=
  let k := s.chan ch
  match k.desc, k.status with
  | some d, some st =>
    match s.decryptEnds ch k d st with
    | (s, false) => (((s.haltChan ch 5).event Reg.DMA_EVENT 6).dmaEvent ch 1).dmaFault ch Src.DMA_WIPE st
    | (s, true) =>
      let result : BitVec 64 := if 5 ≤ d.op then BitVec.ofNat 64 k.outDone else k.result
      let s := (s.engineCounts k st).writeStatus ch d st k.inDone result
      let s := s.count (Reg.DMA_DONES ch) 1
      let bad := st != DmaSt.OK && st != DmaSt.DIFFER
      let s := if bit d.flags 3 then (s.dmaEvent ch 0).keepersGoOn else s
      let s := if bad then (s.count Reg.DMA_BADDESC 1).dmaEvent ch 1 else s
      s.chanGoesOn ch k d st
  | _, _ => s

/-- R371, R412: a channel's fault is given up: the descriptor ends with XLT; a fetch that is given up has no descriptor to
mark, and halts the channel as DESC_FETCH (log entry 33). -/
def abandonChan (s : State) (ch : Nat) : State :=
  let s := s.clearSlot ch
  let s := s.updChan ch (fun k => { k with st := ChanSt.RUN, faultAt := none })
  if (s.chan ch).desc.isSome then s.chanStatus ch DmaSt.XLT
  else (((s.haltChan ch 1).event Reg.DMA_EVENT 2).dmaEvent ch 1).dmaFault ch Src.DMA_DESC_FETCH DmaSt.XLT

/-- R371: a channel's slot is cleared, and it repeats its stop point; a STOP that has waited takes effect. -/
def resumeChan (s : State) (ch : Nat) : State :=
  let s := (s.clearSlot ch).updChan ch (fun k => { k with st := ChanSt.RUN, faultAt := none })
  if (s.chan ch).stop then s.stopChan ch else s

end State

end Sys2Proof.Machine
end

