-- ==== Sys2Proof/Machine/Movers.lean ====
section
/-! DEFINITION. The check-value units (R413 to R415), the restart of faulted engines (R371, R412), and the commands of the data
movers. -/

namespace Sys2Proof.Machine

/-! STATUS of a pass record (R413). -/
namespace CvuSt

def OK : Nat := 0
def MISMATCH : Nat := 1
def BUS : Nat := 0x10
def XLT : Nat := 0x11
def UNCORR : Nat := 0x12
def FORMAT : Nat := 0x13

end CvuSt

namespace State

/-! ## Check-value units (R413 to R415) -/

/-- R413: the ranges of a pass record. -/
def passRanges (bs : Bytes) : List (Nat × Nat) :=
  (List.range (fieldLE bs 2 1)).map (fun i => (fieldLE bs (32 + 16 * i) 8, fieldLE bs (40 + 16 * i) 4))

/-- R415: a field of the record out of range; SEED and EXPECT of a 32-bit function have 32 bits (log entry 178). -/
def passBad (bs : Bytes) : Bool :=
  let n := fieldLE bs 2 1
  3 < fieldLE bs 0 1 || 3 < fieldLE bs 1 1 || n = 0 || 16 < n || fieldLE bs 4 4 != 0 ||
    (fieldLE bs 0 1 != 2 && (fieldLE bs 12 4 != 0 || fieldLE bs 20 4 != 0)) ||
    (List.range n).any (fun i => fieldLE bs (44 + 16 * i) 4 != 0)

/-- The ranges past the first `n` bytes. -/
def dropBytes : List (Nat × Nat) → Nat → List (Nat × Nat)
  | [], _ => []
  | (va, len) :: l, n => if len ≤ n then dropBytes l (n - len) else (va + n, len - n) :: l

/-- A BIST slice occupies the unit (R499). -/
def cvuInSlice (s : State) (u : Nat) : Bool := s.bist.slices.any (fun x => x.kind = 2 && x.idx = u && x.st = 2)

/-- R414: the next queued pass: by context priority, and then in order of arrival. -/
def cvuNext (s : State) (l : List CvuPass) : Option CvuPass :=
  l.foldl (fun (b : Option CvuPass) p => match b with
    | none => some p
    | some q => if (s.ctx q.ctx).prio < (s.ctx p.ctx).prio then some p else b) none

/-- The unit takes a pass. -/
def cvuTake (s : State) (u : Nat) (p : CvuPass) : State :=
  s.updCvu u (fun k => { k with cur := some p, queue := k.queue.filter (fun q => q.ctx != p.ctx), done := 0, value := 0, faultAt := none })

/-- An idle unit: a BIST slice that waits for it begins, or the next queued pass does. -/
def cvuIdle (s : State) (u : Nat) : State :=
  let k := s.cvu u
  if k.cur.isSome || s.cvuInSlice u then s
  else
    match s.cvuNext k.queue with
    | some p => s.cvuTake u p
    | none => { s with bist := { s.bist with slices := s.bist.slices.map (fun (x : Slice) =>
        if x.kind = 2 && x.idx = u then { x with st := 2 } else x) } }

/-- R415: STATUS and RESULT go into the record, and the event is raised. -/
def passDone (s : State) (p : CvuPass) (st result : Nat) : State :=
  let a := Config.seqPool + p.off
  let s := (s.wr (a + 3) [BitVec.ofNat 8 st]).wr (a + 24) (leBytes 8 result)
  (s.count Reg.CVU_PASSES 1).raiseEvent p.ctx (if st = CvuSt.OK then 2 else 3)

/-- A pass that fails writes no value the spec gives: a free one (log entry 34). -/
def passFails (s : State) (p : CvuPass) (st : Nat) : State :=
  let (v, s) := s.draw
  s.passDone p st v.toNat

/-- The pass in progress ends. -/
def cvuEnds (s : State) (u : Nat) (p : CvuPass) (st : Nat) (result : Option Nat) : State :=
  let s := s.updCvu u (fun k => { k with cur := none, done := 0, value := 0, faultAt := none })
  let s := match result with
    | some r => s.passDone p st r
    | none => s.passFails p st
  s.cvuIdle u

/-- The lines of the ranges in turn, from the partial value kept in the unit; `fuel` bounds the lines.  The answer is what
stopped it, if anything did. -/
def cvuLines : Nat → State → Nat → Nat → Nat → List (Nat × Nat) → State × Option Moved
  | 0, s, _, _, _, _ => (s, none)
  | _ + 1, s, _, _, _, [] => (s, none)
  | fuel + 1, s, u, c, func, (va, len) :: l =>
    if len = 0 then cvuLines fuel s u c func l
    else
      let m := min len (64 - va % 64)
      match s.engineRead .cvu c 2 va m with
      | (s, .ok bs) =>
        cvuLines fuel (s.updCvu u (fun k => { k with done := k.done + m, value := checkValue func (some k.value) bs })) u c func
          ((va + m, len - m) :: l)
      | (s, e) => (s, some e)

/-- R370, R413, R415: the unit works on its pass until it completes or meets a translation fault. -/
def cvuRun (s : State) (u : Nat) : State :=
  match (s.cvu u).cur with
  | none => s
  | some p =>
    if s.slotHolds (32 + u) then s
    else
      match s.readMem .cvu p.ctx (Config.seqPool + p.off) 32 with
      | (s, .uncorr) => s.cvuEnds u p CvuSt.UNCORR none
      | (s, .busErr) => s.cvuEnds u p CvuSt.BUS none
      | (s, .ok head) =>
        match s.readMem .cvu p.ctx (Config.seqPool + p.off) (32 + 16 * min 16 (fieldLE head 2 1)) with
        | (s, .uncorr) => s.cvuEnds u p CvuSt.UNCORR none
        | (s, .busErr) => s.cvuEnds u p CvuSt.BUS none
        | (s, .ok bs) =>
          if passBad bs then s.cvuEnds u p CvuSt.FORMAT none
          else
            let func := fieldLE bs 0 1
            let ranges := passRanges bs
            let k := s.cvu u
            let s := if k.done = 0 then
                let seed := fieldLE bs 8 8
                let first := if 2 ≤ fieldLE bs 1 1 then seed else checkValue func none []
                s.updCvu u (fun k => { k with value := first })
              else s
            let fuel := (ranges.map (fun r => r.2 / 64 + 3)).sum + 1
            match cvuLines fuel s u p.ctx func (dropBytes ranges k.done) with
            | (s, none) =>
              let r := (s.cvu u).value
              let st := if fieldLE bs 1 1 % 2 = 1 && r != fieldLE bs 16 8 then CvuSt.MISMATCH else CvuSt.OK
              s.cvuEnds u p st (some r)
            | (s, some (.fault va f k)) =>
              let t := s.clk.pclk
              (s.updCvu u (fun c => { c with faultAt := some t })).slotFault (32 + u) p.ctx va f k
            | (s, some (.waits ch)) => s.postReq ch 2 (32 + u)
            | (s, some .uncorr) => s.cvuEnds u p CvuSt.UNCORR none
            | (s, some _) => s.cvuEnds u p CvuSt.BUS none

/-- R414, R502: a context starts or queues a pass.  The low bits of the offset name no byte (log entry 35). -/
def cvuGo (s : State) (w u : Nat) (off : BitVec 32) : State :=
  let p : CvuPass := { ctx := w, off := fld off 6 17 * 64 }
  let k := s.cvu u
  if s.rbit Reg.BST_OUT u then s.passFails p CvuSt.BUS
  else if k.cur.isNone && k.queue.isEmpty && !s.cvuInSlice u then s.cvuTake u p
  else if k.queue.any (fun q => q.ctx = w) then s.event Reg.CVU_EVENT 0
  else s.updCvu u (fun k => { k with queue := k.queue ++ [p] })

/-- R371, R415: a unit's fault is given up. -/
def abandonPass (s : State) (u : Nat) : State :=
  let s := s.clearSlot (32 + u)
  match (s.cvu u).cur with
  | none => s
  | some p => s.cvuEnds u p CvuSt.XLT none

/-! ## Fault slots (R371) -/

/-- R371: a write of XLT_RESUME by context `w`. -/
def xltResume (s : State) (w slot : Nat) (abandon : Bool) : State × RegResult :=
  if 36 ≤ slot || !s.slotHolds slot then (s, .ok)
  else if w != s.super && w != s.rfld (Reg.XLT_FS_INFO slot) 0 6 then (s, .perm)
  else if slot < 32 then (if abandon then s.abandonChan slot else s.resumeChan slot, .ok)
  else
    let u := slot - 32
    (if abandon then s.abandonPass u else (s.clearSlot slot).updCvu u (fun k => { k with faultAt := none }), .ok)

/-- R417: a write of CRY_CLEAR. -/
def cryClear (s : State) (v : BitVec 32) : State := if bit v 8 then s.clearKey (fld v 0 4) else s

/-- PCLK in a number of milliseconds. -/
def msPclk (n : Nat) : Nat := 200000 * n

end State

/-! ## Commands -/

/-- R371. -/
def execXltResume (w slot : Nat) (s : State) : Out :=
  whenMemory s (fun s => State.wrote (s.xltResume w slot false) w Reg.XLT_RESUME)

/-- R371: with ABANDON. -/
def execXltResumeAbandon (w slot : Nat) (s : State) : Out :=
  whenMemory s (fun s => State.wrote (s.xltResume w slot true) w Reg.XLT_RESUME)

/-- R396, R406. -/
def execDmaGo (w ch : Nat) (s : State) : Out :=
  whenMemory s (fun s => if 32 ≤ ch then s else State.wrote (s.dmaCmd w ch true false) w (Reg.DMA_CMD ch))

/-- R406. -/
def execDmaStop (w ch : Nat) (s : State) : Out :=
  whenMemory s (fun s => if 32 ≤ ch then s else State.wrote (s.dmaCmd w ch false true) w (Reg.DMA_CMD ch))

/-- R404, R405. -/
def execDescriptorFetch (ch : Nat) (s : State) : Out := whenMemory s (fun s => s.fetchDesc ch)

/-- R399: COPY. -/
def execDmaCopy (ch : Nat) (s : State) : Out := whenMemory s (fun s => s.startPlain ch 1)

/-- R399: FILL. -/
def execDmaFill (ch : Nat) (s : State) : Out := whenMemory s (fun s => s.startPlain ch 2)

/-- R399: COMPARE. -/
def execDmaCompare (ch : Nat) (s : State) : Out := whenMemory s (fun s => s.startPlain ch 3)

/-- R419: DECRYPT. -/
def execDmaDecrypt (ch : Nat) (s : State) : Out := whenMemory s (fun s => s.startDecrypt ch)

/-- R407, R408: INFLATE. -/
def execDmaInflate (ch : Nat) (s : State) : Out := whenMemory s (fun s => s.startInflate ch)

/-- R410: DEFLATE. -/
def execDmaDeflate (ch : Nat) (s : State) : Out := whenMemory s (fun s => s.startDeflate ch)

/-- R397. -/
def execDmaBeat (ch : Nat) (s : State) : Out := whenMemory s (fun s => s.chanBeat ch)

/-- R401. -/
def execDescriptorComplete (ch : Nat) (s : State) : Out := whenMemory s (fun s => s.completeDesc ch)

/-- R412: a channel that owns the inflater or the deflater has held its fault longer than XF_HOLD. -/
def execDmaXfHoldExpiry (ch : Nat) (s : State) : Out :=
  whenMemory s (fun s =>
    let k := s.chan ch
    if k.st = ChanSt.FAULT && (s.mv.infOwner = some ch || s.mv.defOwner = some ch) then
      let s := s.at_ (k.faultAt.getD 0 + State.msPclk (s.rfld Reg.DMA_CTRL 0 8) + 1)
      ((s.abandonChan ch).event Reg.DMA_EVENT 5).dmaFault ch Src.DMA_XF_TIMEOUT DmaSt.XLT
    else s)

/-- R414. -/
def execCvuGo (w u : Nat) (off : Word) (s : State) : Out := whenMemory s (fun s => if u < 4 then s.cvuGo w u off else s)

/-- R415: the unit has covered its pass, or stops at a fault. -/
def execCvuPassDone (u : Nat) (s : State) : Out := whenMemory s (fun s => s.cvuRun u)

/-- R415: a pass has held its fault longer than XF_HOLD. -/
def execCvuXfHoldExpiry (u : Nat) (s : State) : Out :=
  whenMemory s (fun s => match (s.cvu u).cur, (s.cvu u).faultAt with
    | some p, some t =>
      if s.slotHolds (32 + u) then
        let s := s.at_ (t + State.msPclk (s.rfld Reg.CVU_CTRL 0 8) + 1)
        ((s.abandonPass u).event Reg.CVU_EVENT 1).raiseFor Src.CVU_XF_TIMEOUT p.ctx
      else s
    | _, _ => s)

/-- R417. -/
def execCryClear (v : Word) (s : State) : Out := whenMemory s (fun s => s.cryClear v)

end Sys2Proof.Machine
end

