-- ==== Sys2Proof/Machine/Guarding.lean ====
section
/-! DEFINITION. The fault collector's and the safety manager's commands (R474 to R491), the monitors of clock, supply and
temperature, and the BIST slices (R497 to R502). -/

namespace Sys2Proof.Machine

namespace State

/-! ## The collector -/

/-- R480: FCO_ERRCLR. -/
def errClear (s : State) (v : BitVec 32) : State := if bit v 0 then { s with fco := { s.fco with errLatch := false } } else s

/-- R479: FCO_LOG_TAIL frees the entries it passes. -/
def logTail (s : State) (v : BitVec 32) : State :=
  let old := s.rfld Reg.FCO_LOG_TAIL 0 8
  let freed := (fld v 0 8 + 256 - old) % 256
  { s with fco := { s.fco with fill := s.fco.fill - freed } }.setReg Reg.FCO_LOG_TAIL (BitVec.ofNat 32 (fld v 0 8))

/-! ## Interlocks (R485 to R488) -/

/-- R486: since when the channels of a pair disagree, and whether both have counted demand since the latch. -/
def pairLevels (s : State) (k : Nat) : State :=
  let a := bit s.saf.levA k
  let b := bit s.saf.levB k
  let t := s.clk.pclk
  let since := if a = b then none else ((nth s.saf.disagreeAt k none).or (some t))
  let cyc := bit s.saf.cycle k || (a && b && bit s.saf.dlatch k)
  let clears := bit s.saf.dlatch k && cyc && !a && !b
  { s with saf := { s.saf with
      disagreeAt := upd s.saf.disagreeAt k (fun _ => since),
      cycle := setBit s.saf.cycle k (cyc && !clears),
      dlatch := setBit s.saf.dlatch k (bit s.saf.dlatch k && !clears) } }

def setLevel (s : State) (k : Nat) (chanB demand : Bool) : State :=
  { s with saf := if chanB then { s.saf with levB := setBit s.saf.levB k demand }
                           else { s.saf with levA := setBit s.saf.levA k demand } }

/-- R485, R487: a channel has counted its demand level. -/
def demand (s : State) (k : Nat) (chanB : Bool) : State :=
  let before := bit s.saf.levA k || bit s.saf.levB k
  let s := (s.setLevel k chanB true).pairLevels k
  if before then s
  else
    let s := ((s.count Reg.SAF_DEMANDS 1).event Reg.SAF_EVENT 0).setInterlock
    let s := s.raise Src.SAF_INTERLOCK
    if s.rbit Reg.SAF_CTRL k then s.stopAll else s

/-- R486: the channels of a pair have disagreed for 1 ms. -/
def discrepant (s : State) (k : Nat) : State :=
  match nth s.saf.disagreeAt k none with
  | none => s
  | some t =>
    if s.clk.pclk < t + msPclk 1 || bit s.saf.dlatch k then s
    else
      let s := { s with saf := { s.saf with dlatch := setBit s.saf.dlatch k true, cycle := setBit s.saf.cycle k false } }
      let kd := s.closureKind true
      let s := { s with saf := { s.saf with discrep := true, closedIlk := kd } }.settleGate
      (s.event Reg.SAF_EVENT 1).raise Src.SAF_DISCREPANCY

/-- R488: GO in SAF_REARM. -/
def rearm (s : State) (v : BitVec 32) : State :=
  let b := s.mot.bstate
  if !bit v 0 then s
  else if s.saf.levA != 0 || s.saf.levB != 0 || s.saf.dlatch != 0 || s.fco.sev3Gate || !s.running ||
      b = Build.HOMING || b = Build.LAYER || b = Build.CLOSING then s.event Reg.SAF_EVENT 7
  else
    (s.setReg Reg.SAF_CAUSE 0).setCauses
      (fun f => { f with startup := false, interlock := false, fault := false, discrep := false })

/-! ## BIST slices (R499 to R502) -/

/-- The slice of a kind that runs. -/
def runningSlice (s : State) (kind : Nat) : Option Slice := s.bist.slices.find? (fun x => x.kind = kind && x.st = 2)

/-- The target of a slice that ends without a failure returns to service. -/
def targetBack (s : State) (kind idx : Nat) : State :=
  if kind = 1 then s.pairBack idx else if kind = 2 then s.cvuIdle idx else s

/-- R154, R502: a physical ridge is retired; a logical ridge that runs on it moves to the spare, and no spare is left. -/
def retireRidge (s : State) (p : Nat) : State :=
  let q := s.rdg.spare.getD p
  let s := { s with rdg := { s.rdg with
      ridges := s.rdg.ridges.map (fun (g : Ridge) => if g.phys = p then { g with phys := q } else g), leaving := none,
      retired := setBit s.rdg.retired p true, spare := none, rotHalt := true } }
  ((s.event Reg.RDG_EVENT 5).raise Src.RDG_ROTATION_HALTED).shadowCheck

/-- R502: the passes queued on a unit that is retired complete with BUS. -/
def retireCvu (s : State) (u : Nat) : State :=
  let q := (s.cvu u).queue
  let s := s.setReg Reg.BST_OUT (setBit (s.reg Reg.BST_OUT) u true)
  q.foldl (fun s p => s.passFails p CvuSt.BUS) (s.updCvu u (fun _ => Cvu.reset))

/-- R500, R502: a slice has run its patterns and its signature is compared. -/
def sliceDone (s : State) (kind : Nat) (good : Bool) : State :=
  match s.runningSlice kind with
  | none => s
  | some x =>
    let s := (s.sliceEnds kind x.idx (if good then 1 else 2)).count Reg.BST_SLICES 1
    let s := { s with bist := { s.bist with cutRuns := s.bist.cutRuns.filter (fun z => !(z.1 = kind && z.2.1 = x.idx)),
                                            nextPair := if kind = 1 then (x.idx + 1) % 4 else s.bist.nextPair,
                                            nextCvu := if kind = 2 then (x.idx + 1) % 4 else s.bist.nextCvu } }
    if good then (s.event Reg.BST_EVENT 0).targetBack kind x.idx
    else
      let s := (s.event Reg.BST_EVENT 1).count Reg.BST_FAILS 1
      if kind = 0 then (s.raise Src.BST_RIDGE_FAIL).retireRidge x.idx
      else if kind = 1 then ((s.pairLeaves x.idx).raise Src.BST_PAIR_FAIL).lastPair
      else (s.raise Src.BST_CVU_FAIL).retireCvu x.idx

/-- R501: a pair or CVU slice has used up BUDGET; it reruns at the next col on the same target. -/
def budgetCut (s : State) (kind : Nat) : State :=
  if kind = 0 then s
  else
    match s.bist.slices.find? (fun x => x.kind = kind) with
    | none => s
    | some x => (s.sliceCut kind x.idx).targetBack kind x.idx

/-- R501: a CLK_MON or VMON message cuts every slice that runs; a ridge slice reruns at once. -/
def monitorCuts (s : State) : State :=
  (s.bist.slices.filter (fun x => x.st = 2)).foldl (fun s x =>
    let s := (s.sliceCut x.kind x.idx).targetBack x.kind x.idx
    if x.kind = 0 then { s with rdg := { s.rdg with inBist := some x.idx } }.addSlice 0 x.idx 2 else s) s

/-! ## Messages from units -/

/-- R474, R476: a message that a unit sends: SAF records CEIL_XCHK (R489), and HALT from a DMA channel halts the channel
that the detail names (log entry 36); a CLK_MON or VMON message cuts the slices (R501). -/
def unitMessage (s : State) (m : FaultMsg) : State :=
  let s := if m.src = Src.SAF_CEIL_XCHK then s.event Reg.SAF_EVENT 6 else s
  let s := if m.src = Src.CRU_CLK_MON || m.src = Src.CRU_VMON then s.monitorCuts else s
  let s := s.raiseMsg m
  if m.src / 16 = 0x0B && s.rbit (Reg.FCO_SEV m.src) 14 then s.stopChan (m.detail.toNat % 32) else s

/-- FCO_INJECT: a message of KIND 0x3F with every reaction of the source but CRST, when the build state admits it. -/
def inject (s : State) (v : BitVec 32) : State :=
  let src := fld v 0 10
  if !bit v 16 then s
  else if !(s.mot.bstate = Build.UNHOMED || s.mot.bstate = Build.READY) || !faultSources.contains src then s.event Reg.FCO_EVENT 3
  else
    let cfg := s.reg (Reg.FCO_SEV src)
    let s := (s.setReg (Reg.FCO_SEV src) (setBit cfg 11 false)).unitMessage
      { src := src, kind := 0x3F, ctx := fld v 10 6, detail := 0 }
    s.setReg (Reg.FCO_SEV src) cfg

/-! ## Monitors -/

/-- A monitor's event and message. -/
def monitor (s : State) (i src : Nat) : State := (s.event Reg.CRU_EVENT i).raise src

/-- CRU_TEMP and DIE_HOT: raised when the die exceeds TLIM, and again only after it has fallen 5.0 °C below. -/
def dieTemp (s : State) (temp : Int) : State :=
  let s := s.setReg Reg.CRU_TEMP (BitVec.ofNat 32 (uNat 16 temp))
  let lim : Int := s.rfld Reg.CRU_TLIM 0 12
  if lim < temp && !s.boot.hot then
    (({ s with boot := { s.boot with hot := true } }).event Reg.CRU_EVENT 3).raise Src.CRU_DIE_HOT
  else if temp ≤ lim - 50 then { s with boot := { s.boot with hot := false } }
  else s

end State

/-! ## Commands -/

/-- The supply window is left (R501, R517), from CLOCKS on. -/
def execVmonEvent (s : State) : Out :=
  if s.boot.phase = 0 || s.boot.failed then .next s else done (s.monitorCuts.monitor 2 Src.CRU_VMON)

/-- PCLK leaves the clock monitor's window (R501, R517). -/
def execClkMonEvent (s : State) : Out := whenClocked s (fun s => (s.monitorCuts).monitor 1 Src.CRU_CLK_MON)

/-- The RPLL loses lock. -/
def execRpllUnlock (s : State) : Out := whenClocked s (fun s => (s.setRfld Reg.CRU_STATE 0 1 0).monitor 0 Src.CRU_RPLL_UNLOCK)

/-- A die temperature (CRU registers). -/
def execDieHot (temp : Int) (s : State) : Out := whenClocked s (fun s => s.dieTemp temp)

/-- R474 to R479. -/
def execFaultMessage (src kind ctx : Nat) (detail : BitVec 42) (s : State) : Out :=
  whenClocked s (fun s => s.unitMessage { src := src % 1024, kind := kind % 64, ctx := ctx % 64, detail := detail })

/-- R480. -/
def execFcoErrclr (v : Word) (s : State) : Out := whenClocked s (fun s => s.errClear v)

/-- R482: an injected message. -/
def execFcoInject (v : Word) (s : State) : Out := whenClocked s (fun s => s.inject v)

/-- R479. -/
def execFcoLogTail (v : Word) (s : State) : Out := whenClocked s (fun s => s.logTail v)

/-- R485, R487. -/
def execInterlockDemand (pair : Nat) (chanB : Bool) (t : Nat) (s : State) : Out :=
  whenClocked s (fun s => if pair < 4 then (s.at_ t).demand pair chanB else s)

/-- R485, R486: a channel has counted its permit level. -/
def execInterlockPermit (pair : Nat) (chanB : Bool) (t : Nat) (s : State) : Out :=
  whenClocked s (fun s => if pair < 4 then ((s.at_ t).setLevel pair chanB false).pairLevels pair else s)

/-- R486. -/
def execDiscrepancy (pair : Nat) (t : Nat) (s : State) : Out :=
  whenClocked s (fun s => if pair < 4 then (s.at_ t).discrepant pair else s)

/-- R484: an output has contradicted the permission for 20 µs. -/
def execGateRb (s : State) : Out := whenClocked s (fun s => (s.event Reg.SAF_EVENT 2).raise Src.SAF_GATE_RB)

/-- R484: the channels have held different causes for 10 µs. -/
def execSafXchk (s : State) : Out := whenClocked s (fun s => (s.event Reg.SAF_EVENT 3).raise Src.SAF_SAF_XCHK)

/-- R488. -/
def execSafRearm (v : Word) (t : Nat) (s : State) : Out := whenClocked s (fun s => (s.at_ t).rearm v)

/-- R500, R502. -/
def execBistSliceDone (kind : Nat) (signatureMatches : Bool) (s : State) : Out :=
  whenReady s (fun s => s.sliceDone kind signatureMatches)

/-- R501. -/
def execBistBudgetCut (kind : Nat) (s : State) : Out := whenReady s (fun s => s.budgetCut kind)

end Sys2Proof.Machine
end

