-- ==== Sys2Proof/Machine/LoadRules.lean ====
section
/-! DEFINITION. What the configuration loader judges: the ranges of the fields that REGS entries write, and the rules of the
other chapters that name the configuration-load failure (R513). -/

namespace Sys2Proof.Machine

/-! ## Ranges of CFG fields -/

/-- The `n`-bit field at `lo` of registers `base`, `base + stride`, … (`count` of them) holds a value from `least` to
`most`. -/
structure FieldRange where
  base : Nat
  stride : Nat
  count : Nat
  lo : Nat
  n : Nat
  least : Nat
  most : Nat
  deriving DecidableEq, Repr

def rangesPrint : List FieldRange :=
  [⟨Reg.ACT_CTRL, 4, 1, 4, 4, 1, 15⟩, ⟨Reg.ACT_CTRL, 4, 1, 8, 4, 1, 15⟩, ⟨Reg.ACT_CTRL, 4, 1, 12, 4, 1, 15⟩,
   ⟨Reg.ACT_CTRL, 4, 1, 16, 5, 0, 16⟩, ⟨Reg.ACT_CTRL, 4, 1, 24, 5, 1, 16⟩,
   ⟨Reg.ACT_SHOTS, 4, 1, 0, 12, 40, 2000⟩, ⟨Reg.ACT_SHOTS, 4, 1, 12, 10, 5, 1000⟩, ⟨Reg.ACT_SHOTS, 4, 1, 22, 10, 0, 999⟩,
   ⟨Reg.ACT_LIMITS, 4, 1, 0, 9, 0, 256⟩, ⟨Reg.ACT_MASS, 4, 1, 0, 13, 1, 4096⟩, ⟨Reg.ACT_HOLD, 4, 1, 0, 16, 1000, 60000⟩,
   ⟨Reg.ACT_FLIGHT 0, 4, 16, 0, 18, 0, 200000⟩,
   ⟨Reg.HLK_CTRL, 4, 1, 8, 8, 1, 255⟩, ⟨Reg.HLK_LINK 0, 4, 16, 16, 11, 1, 1024⟩,
   ⟨Reg.STB_CTRL, 4, 1, 0, 3, 1, 6⟩, ⟨Reg.STB_CTRL, 4, 1, 8, 8, 1, 255⟩]

def rangesMotion : List FieldRange :=
  [⟨Reg.PLN_CTRL, 4, 1, 0, 2, 0, 2⟩, ⟨Reg.PLN_CTRL, 4, 1, 8, 8, 128, 255⟩, ⟨Reg.PLN_SCALE, 4, 1, 0, 32, 1000, 0xFFFFFFFF⟩,
   ⟨Reg.PLN_HOME 0, 32, 4, 0, 2, 0, 2⟩, ⟨Reg.PLN_AXP 0, 16, 2, 8, 8, 1, 255⟩,
   ⟨Reg.STP_CFG 0, 32, 2, 16, 8, 1, 255⟩, ⟨Reg.STP_STALL 0, 32, 2, 0, 10, 1, 511⟩, ⟨Reg.STP_STALL 0, 32, 2, 16, 8, 1, 255⟩,
   ⟨Reg.SWI_CTRL, 4, 1, 0, 16, 20, 65535⟩, ⟨Reg.SWI_CTRL, 4, 1, 16, 16, 1, 65535⟩,
   ⟨Reg.SWI_CFG 0, 4, 8, 0, 3, 0, 4⟩, ⟨Reg.SWI_CFG 0, 4, 8, 8, 8, 1, 255⟩, ⟨Reg.SWI_CFG 0, 4, 8, 16, 8, 1, 255⟩,
   ⟨Reg.TWN_CTRL, 4, 1, 8, 8, 10, 255⟩, ⟨Reg.TWN_CTRL, 4, 1, 16, 8, 1, 255⟩, ⟨Reg.TWN_CTRL, 4, 1, 24, 8, 1, 255⟩,
   ⟨Reg.TWN_LIMITS, 4, 1, 0, 8, 1, 255⟩, ⟨Reg.TWN_LIMITS, 4, 1, 8, 4, 1, 15⟩, ⟨Reg.TWN_LIMITS, 4, 1, 16, 16, 1, 65535⟩,
   ⟨Reg.CSC_CTRL, 4, 1, 8, 4, 2, 15⟩]

/-- R513 with R330, R395, R421 and the field tables of the system units. -/
def rangesSystem : List FieldRange :=
  [⟨Reg.SEQ_CTRL, 4, 1, 0, 6, 1, 63⟩, ⟨Reg.SEQ_CTRL, 4, 1, 8, 8, 1, 255⟩, ⟨Reg.SEQ_SUPWD, 4, 1, 0, 16, 10, 60000⟩,
   ⟨Reg.MEM_CTRL, 4, 1, 0, 16, 1, 65535⟩, ⟨Reg.MEM_CTRL, 4, 1, 16, 8, 2, 255⟩, ⟨Reg.MEM_DRAM_BG, 4, 1, 0, 16, 1, 65535⟩,
   ⟨Reg.DMC_CTRL, 4, 1, 0, 2, 0, 2⟩, ⟨Reg.DMC_CTRL, 4, 1, 2, 2, 0, 2⟩, ⟨Reg.DMC_CTRL, 4, 1, 4, 2, 0, 2⟩,
   ⟨Reg.DMC_CTRL, 4, 1, 6, 2, 0, 2⟩, ⟨Reg.DMC_CTRL, 4, 1, 16, 8, 10, 255⟩,
   ⟨Reg.DMC_AGE, 4, 1, 0, 8, 1, 255⟩, ⟨Reg.DMC_AGE, 4, 1, 8, 8, 1, 255⟩,
   ⟨Reg.DMA_CTRL, 4, 1, 0, 8, 1, 255⟩, ⟨Reg.CVU_CTRL, 4, 1, 0, 8, 1, 255⟩,
   ⟨Reg.LNP_CTRL, 4, 1, 0, 6, 16, 48⟩, ⟨Reg.LNP_CTRL, 4, 1, 8, 8, 1, 255⟩, ⟨Reg.LNP_CTRL, 4, 1, 16, 8, 1, 255⟩,
   ⟨Reg.LNP_CTRL, 4, 1, 24, 3, 0, 5⟩,
   ⟨Reg.TIM_CTRL, 4, 1, 0, 2, 0, 2⟩, ⟨Reg.TIM_CTRL, 4, 1, 8, 8, 10, 255⟩,
   ⟨Reg.CAM_CFG 0, 128, 2, 4, 2, 0, 2⟩, ⟨Reg.CAM_CFG 0, 128, 2, 6, 2, 0, 2⟩,
   ⟨Reg.CAM_SIZE 0, 128, 2, 0, 13, 1, 4096⟩, ⟨Reg.CAM_SIZE 0, 128, 2, 16, 12, 1, 3072⟩,
   ⟨Reg.CAM_IMG_HI 0, 128, 2, 8, 8, 1, 64⟩, ⟨Reg.CAM_IMG_HI 0, 128, 2, 16, 8, 1, 64⟩,
   ⟨Reg.CAM_STATBASE 0, 128, 2, 24, 8, 1, 255⟩,
   ⟨Reg.BST_CTRL, 4, 1, 0, 16, 500, 60000⟩, ⟨Reg.BST_CTRL, 4, 1, 16, 4, 1, 15⟩, ⟨Reg.CRU_TLIM, 4, 1, 0, 12, 700, 1250⟩,
   ⟨Reg.OBS_CTRL, 4, 1, 0, 16, 1, 65535⟩, ⟨Reg.CAL_CTRL, 4, 1, 0, 8, 1, 255⟩, ⟨Reg.CAL_CTRL, 4, 1, 8, 8, 10, 255⟩,
   ⟨Reg.CAL_CTRL, 4, 1, 16, 4, 1, 15⟩]

/-- Fields whose low bits are 0 by alignment: the register, and the alignment. -/
def alignments : List (Nat × Nat) :=
  [(Reg.ACT_PLAN_BASE, 64), (Reg.SEQ_NVEC_LO, 4), (Reg.ETH_RXBASE, 2048), (Reg.ETH_TXBASE, 64),
   (Reg.CAM_IMG_LO 0, 0x100000), (Reg.CAM_IMG_LO 1, 0x100000)]

/-- Whether register `a` is entry of a range. -/
def FieldRange.covers (r : FieldRange) (a : Nat) : Bool :=
  r.base ≤ a && (a - r.base) % r.stride = 0 && (a - r.base) / r.stride < r.count

/-- R513: every field of a register that a REGS entry writes is in range. -/
def valueFits (a : Nat) (v : BitVec 32) : Bool :=
  let rs := rangesPrint ++ rangesMotion ++ rangesSystem
  rs.all (fun r => !r.covers a || (decide (r.least ≤ fld v r.lo r.n) && decide (fld v r.lo r.n ≤ r.most))) &&
    alignments.all (fun p => p.1 != a || v.toNat % p.2 = 0) &&
    (!((List.range 2).any (fun p => a = Reg.CAM_STATBASE p)) || fld v 0 9 = 0) &&
    (!((List.range 16).any (fun l => a = Reg.HLK_TLIM l)) || decide (fld v 0 12 < fld v 16 12))

/-- The row of the register map that lists an address. -/
def findReg (u a : Nat) : Option RegDesc :=
  (regMap u).find? (fun d => d.base ≤ a && (a - d.base) % d.stride = 0 && decide (d.first ≤ (a - d.base) / d.stride) &&
    decide ((a - d.base) / d.stride < d.count))

/-! ## An actuator entry (R184, R185, R187, R211) -/

/-- Whether an entry keeps R184, R185 and R187. -/
def entryValid (idx : Nat) (bs : Bytes) : Bool :=
  let b := fun i => fieldLE bs i 1
  let hide := b 0 % 4
  let partner := b 0 / 16
  let l := b 1
  let r := b 2
  let cls := b 4
  let dg := fieldLEs bs 3 1
  let fd := fieldLEs bs 6 2
  b 0 / 4 % 4 = 0 && l ≤ 16 && r ≤ 16 && decide (-64 ≤ dg) && decide (dg ≤ 63) && cls ≤ 4 &&
  decide (-512 ≤ fd) && decide (fd ≤ 511) && b 8 ≤ 6 && b 9 = 0 &&
  (if hide = 0 then partner = 0 && l = 0 && r = 0
   else if hide = 1 then partner != idx / 65536 && l = 0 && r = 0
   else if hide = 2 then partner = 0 && 1 ≤ l + r
   else partner = 0 && l = 0 && r = 0) &&
  (decide (hide = 0) == decide (cls ≤ 1))

/-- R211: the entry as MASKED with HIDE OFF; the other fields stay where they are in range (log entry 38). -/
def entryMasked (bs : Bytes) : Bytes :=
  let dg := fieldLEs bs 3 1
  let fd := fieldLEs bs 6 2
  [3, 0, 0] ++ leBytes 1 (if -64 ≤ dg && dg ≤ 63 then fieldLE bs 3 1 else 0) ++ [4] ++ leBytes 1 (fieldLE bs 5 1) ++
    leBytes 2 (if -512 ≤ fd && fd ≤ 511 then fieldLE bs 6 2 else 0) ++ leBytes 1 (if fieldLE bs 8 1 ≤ 6 then fieldLE bs 8 1 else 0) ++
    [0] ++ leBytes 2 (fieldLE bs 10 2) ++ leBytes 4 (fieldLE bs 12 4)

namespace State

/-! ## The check pass: rules of the other chapters -/

/-- R35: the row group of a row at start. -/
def startGroup (s : State) (r : Nat) : Nat := fld s.dose.rowmap0 (4 * r) 3

def startRow (s : State) (g : Nat) : RowGroup := nth s.dose.groups g RowGroup.reset

def hasRows (s : State) (g : Nat) : Bool := (List.range 16).any (fun r => s.startGroup r = g)

/-- R37, R48: ROWMAP names groups that are used, and a group with rows starts with a bank that is not empty. -/
def gridRule (s : State) : Bool := (List.range 16).all (fun r => (s.startRow (s.startGroup r)).kind != 0)

def bankRule (s : State) : Bool :=
  (List.range 8).all (fun g => !s.hasRows g || (nth s.dose.banks (4 * g + (s.startRow g).bank) DoseBank.empty).highest != 0)

/-- R47: every bank that is not empty. -/
def banksRule (s : State) : Bool :=
  (List.range 32).all (fun k =>
    let b := nth s.dose.banks k DoseBank.empty
    b.highest = 0 || bankValid s.dose.waves (s.startRow (k / 4)).kind b)

/-- R51. -/
def wavesRule (s : State) : Bool :=
  s.dose.waves.all (fun w => waveValid s.dose.grid.minInterval s.dose.groups s.dose.banks w)

/-- R62: at most one CONTROL, none for the supervisor. -/
def streamsRule (s : State) : Bool :=
  ((List.range 64).filter (fun x => ((s.stream x).desc.map StreamDesc.control).getD false)).length ≤ 1 &&
    (s.stream s.super).desc.isNone

/-- R62, R513: buffers, header slots and bodies fit the stream region. -/
def regionRule (s : State) : Bool :=
  ((List.range 64).map (fun x => match (s.stream x).desc with
    | some d => d.credits * 0x1000000 + 0x10000 + d.plainMax * 0x100000
    | none => 0)).sum ≤ s.boot.plan.streamLen

/-- R331: SUPER names a context that starts. -/
def superRule (s : State) : Bool := s.super != 0 && (s.ctx s.super).start != 0

/-- R362: XROOT of a context that starts. -/
def rootOk (s : State) (k : Ctx) : Bool :=
  k.start = 0 || (fld k.xroot 0 12 = 0 && fld k.xroot 40 24 = 0 && s.tableAt k.xroot.toNat)

def rootRule (s : State) : Bool := s.seq.ctxs.all s.rootOk

/-- R396, R417: no channel and no key slot has two contexts. -/
def ownerRule (s : State) : Bool :=
  (List.range 32).all (fun c => (s.seq.ctxs.filter (fun k => bit k.dmamask c)).length ≤ 1) &&
    (List.range 16).all (fun n => (s.seq.ctxs.filter (fun k => k.keyslot = n)).length ≤ 1)

/-- R194. -/
def shotsRule (s : State) : Bool :=
  let v := s.reg Reg.ACT_SHOTS
  decide (2 * fld v 12 10 ≤ fld v 0 12) && decide (fld v 22 10 < fld v 12 10)

/-- R213: test waveforms, and partner lists. -/
def testRule (s : State) : Bool :=
  (List.range 8).all (fun g =>
    let id := s.rfld (Reg.ACT_TESTWAVE g) 0 8
    if id = 0 then !s.hasRows g
    else s.dose.waves.any (fun w => w.id = id && w.kind = (s.startRow g).kind)) &&
  (List.range 16).all (fun r =>
    let v := s.reg (Reg.ACT_PARTNER r)
    let l := (List.range (fld v 12 2)).map (fun k => fld v (4 * k) 4)
    !l.contains r && l.eraseDups.length = l.length)

/-- R216, R217: symbol times of a line on a link of `cols` columns and `lanes` lanes: a chunk is at most 2,048 columns of
one row. -/
def lineSymbols (cols lanes : Nat) : Nat :=
  let chunk := fun (n : Nat) => n / 2 / lanes + 24 / lanes + 2
  let whole := cols / 2048 * chunk 2048
  let rest := if cols % 2048 = 0 then 0 else chunk (cols % 2048)
  let base := 16 * (whole + rest) + 230
  base + (base + 4094) / 4095

/-- Columns of the module. -/
def barColumns (s : State) : Nat := if s.die.variant = 3 then 32768 else 65536

/-- R214, R215, R217, R235: one link in use; a blind link runs in the small configuration at 3.2 Gbaud. -/
def linkRule (s : State) (l : Nat) : Bool :=
  let small := s.rbit Reg.HLK_CTRL 0
  let half := s.die.variant = 3
  let rate := s.linkRate l
  let mbaud := if rate = 1 then 3200 else if rate = 2 then 6400 else 12800
  let links := if small then (if half then 8 else 16) else (if half then 2 else 4)
  let cols := s.linkWidth l
  decide (l < links) && decide (s.linkCol0 l + cols ≤ s.barColumns) &&
  (!s.rbit (Reg.HLK_LINK l) 29 || (small && rate = 1)) &&
  (if small then s.linkCol0 l % 16 = 0 && rate != 3 else rate = 3 && s.linkCol0 l = 16384 * l && cols = 16384) &&
  decide (lineSymbols cols (if small then 2 else 8) ≤ s.dose.grid.minInterval * mbaud / 2000)

/-- R215: every link in use, and no column on two links. -/
def linksRule (s : State) : Bool :=
  s.linksUsed.all (fun l => s.linkRule l && s.linksUsed.all (fun k => k = l ||
    decide (s.linkCol0 l + s.linkWidth l ≤ s.linkCol0 k) || decide (s.linkCol0 k + s.linkWidth k ≤ s.linkCol0 l)))

/-- R241. -/
def strobeRule (s : State) : Bool :=
  (List.range 16).all (fun r =>
    let v := s.reg (Reg.STB_ROW r)
    let room : Int := (256 * (s.rfld Reg.STB_CTRL 0 3 : Int) - sInt 8 v.toNat) * s.dose.grid.minInterval
    decide (256 * ((fld v 8 24 + 32768 + 514 * 64 : Nat) : Int) ≤ 64 * room))

/-- R562. -/
def scaleRule (s : State) : Bool := !s.hasAxis || 1000 ≤ (s.reg Reg.PLN_SCALE).toNat

/-- R288: no role twice, and a switch named by PLN_HOME has the HOME role of the axis; an axis whose PLN_HOME no record
writes is not judged (log entry 39). -/
def switchRule (s : State) (written : List Nat) : Bool :=
  let role := fun (k : Nat) => s.rfld (Reg.SWI_CFG k) 0 3
  let ax := fun (k : Nat) => s.rfld (Reg.SWI_CFG k) 3 2
  (List.range 8).all (fun i => (List.range 8).all (fun j => i = j || role i = 0 || 4 ≤ role i || role i != role j || ax i != ax j)) &&
  (List.range 4).all (fun a =>
    let v := s.reg (Reg.PLN_HOME a)
    !written.contains (Reg.PLN_HOME a) || fld v 0 2 != 0 || (role (fld v 4 3) = 1 && ax (fld v 4 3) = a))

/-- R327. -/
def cascadeRule (s : State) : Bool :=
  let v := s.reg Reg.CSC_CARRIAGE
  !(bit v 2 && (!s.hasAxis || fld v 0 2 = 0)) && (s.pins.cpos != 0 || s.rbit Reg.CSC_CTRL 0)

/-- R463, for the pipelines that run; the image ring begins in present DRAM. -/
def cameraRule (s : State) : Bool :=
  let on := fun (p : Nat) => s.rbit (Reg.CAM_CFG p) 0
  !(on 0 && on 1 && s.rfld (Reg.CAM_CFG 0) 1 1 = s.rfld (Reg.CAM_CFG 1) 1 1) &&
  (List.range 2).all (fun p => !on p ||
    let c := s.reg (Reg.CAM_CFG p)
    let w := s.rfld (Reg.CAM_SIZE p) 0 13
    let h := s.rfld (Reg.CAM_SIZE p) 16 12
    (s.ctx (fld c 8 6)).start != 0 &&
      decide ((s.reg (Reg.CAM_IMG_LO p)).toNat + 2 ^ 32 * s.rfld (Reg.CAM_IMG_HI p) 0 8 < Config.dramBytes s.die.variant) && 1 ≤ w && w ≤ 4096 && 1 ≤ h && h ≤ 3072 &&
      (fld c 4 2 != 1 || w % 4 = 0) && (fld c 4 2 != 2 || w % 2 = 0) && (fld c 6 2 = 0 || (w % 2 = 0 && h % 2 = 0)))

/-- R491, and the ranges that a position unit's MODE uses (log entry 37). -/
def posRule (s : State) (written : List Nat) : Bool :=
  let mode := fun (u : Nat) => s.rfld (Reg.POS_CFG u) 0 2
  let judged := fun (u a : Nat) => u = 0 || written.contains a
  (mode 0 = 1 || mode 0 = 2) &&
  (List.range 4).all (fun u =>
    (mode u != 1 || !judged u (Reg.POS_QERR u) || 1 ≤ s.rfld (Reg.POS_QERR u) 8 16) &&
    (mode u != 2 || !judged u (Reg.POS_AMP u) || decide (s.rfld (Reg.POS_AMP u) 0 12 < s.rfld (Reg.POS_AMP u) 16 12)) &&
    (mode u != 3 || !judged u (Reg.POS_CFG u) || (8 ≤ s.rfld (Reg.POS_CFG u) 16 6 && s.rfld (Reg.POS_CFG u) 16 6 ≤ 32)) &&
    (mode u != 3 || !judged u (Reg.POS_SSI u) || (9 ≤ s.rfld (Reg.POS_SSI u) 0 8 &&
      200 ≤ s.rfld (Reg.POS_SSI u) 8 16 && 1 ≤ s.rfld (Reg.POS_SSI u) 24 8)))

/-- R475: an override keeps GATE, ERRPIN and the severity of a fixed source. -/
def sourceRule (s : State) : Bool :=
  faultSources.all (fun n =>
    let d := State.reset.reg (Reg.FCO_SEV n)
    let v := s.reg (Reg.FCO_SEV n)
    !bit d 16 || (decide (fld d 0 2 ≤ fld v 0 2) && (!bit d 13 || bit v 13) && (!bit d 12 || bit v 12)))

/-- NVEC is not 0 once a record writes it. -/
def nmiRule (s : State) (written : List Nat) : Bool :=
  !(written.contains Reg.SEQ_NVEC_LO || written.contains Reg.SEQ_NVEC_HI) ||
    s.reg Reg.SEQ_NVEC_LO != 0 || s.reg Reg.SEQ_NVEC_HI != 0

/-- R513: two ranges of bytes that overlap. -/
def rangesMeet (a n b m : Nat) : Bool := n != 0 && m != 0 && a < b + m && b < a + n

end State

end Sys2Proof.Machine
end

