-- ==== Sys2Proof/Machine/Views.lean ====
section
/-! DEFINITION. What the read-only registers show of the state that has a home of its own: one list of views for each
unit, by the register maps of the spec's chapters.  A register without a view reads as stored. -/

namespace Sys2Proof.Machine

/-- A run of registers `stride` bytes apart that show a function of the state. -/
abbrev View := Nat × Nat × Nat × (State → Nat → BitVec 32)

def view1 (a : Nat) (f : State → BitVec 32) : View := (a, 4, 1, fun s _ => f s)

def viewN (a stride n : Nat) (f : State → Nat → BitVec 32) : View := (a, stride, n, f)

/-- Bits [32h+31:32h] of a two's complement number. -/
def half (z : Int) (h : Nat) : BitVec 32 := BitVec.ofNat 32 (uNat 64 z >>> (32 * h))

namespace State

/-! ## IDC, BCL, CRU (R4, R5, R503, R516, R517) -/

def viewsIDC : List View :=
  [view1 Reg.IDC_PART (fun s => fields [(0, 8, s.die.variant), (8, 8, s.die.step), (16, 16, 0x0471)]),
   view1 Reg.IDC_UNITS_LO (fun s => if s.die.variant = 3 then 0x001F7FFF else 0x0F1F7FFF),
   view1 Reg.IDC_UNITS_HI (fun s => if s.die.variant = 1 then 0x0001013F else 0x0001002F),
   view1 Reg.IDC_CAP (fun s => if s.die.variant = 1 then 0x01E80811 else if s.die.variant = 2 then 0x01840811 else 0x01040409)]

def viewsBCL : List View :=
  [view1 Reg.BCL_PHASE (fun s => fields [(0, 4, s.boot.phase), (4, 1, flag s.boot.failed), (8, 8, s.boot.code)])]

def viewsCRU : List View :=
  [view1 Reg.CRU_STATE (fun s => setFld (setFld (s.reg Reg.CRU_STATE) 2 3 s.boot.rstCause) 8 2 s.boot.failedStarts)]

/-! ## FCO, SAF, BST, CAL -/

/-- The highest severity among unread entries. -/
def maxSev (s : State) : Nat :=
  let tail := s.rfld Reg.FCO_LOG_TAIL 0 8
  s.fco.log.foldl (fun m e => if (e.idx + 256 - tail) % 256 < s.fco.fill then max m e.sev else m) 0

/-- R479: word `i` of the fault log. -/
def logWord (s : State) (i : Nat) : BitVec 32 :=
  match s.fco.log.find? (fun e => e.idx = i / 4) with
  | none => 0
  | some e => BitVec.ofNat 32 ((if i % 4 < 2 then e.msg.toNat else e.stamp.toNat) >>> (32 * (i % 2)))

def viewsFCO : List View :=
  [view1 Reg.FCO_STATE (fun s => fields [(0, 9, s.fco.fill), (9, 1, flag s.fco.errLatch), (10, 2, s.maxSev)]),
   view1 Reg.FCO_RST_LO (fun s => BitVec.ofNat 32 s.fco.rstMsg.toNat),
   view1 Reg.FCO_RST_HI (fun s => BitVec.ofNat 32 (s.fco.rstMsg.toNat >>> 32)),
   viewN (Reg.FCO_LOG 0) 4 1024 logWord]

/-- R490: the guard's speed monitor, in the direction of the swath that fires. -/
def guardSpeed (s : State) : Bool :=
  let max := (s.reg Reg.SAF_EDGEMAX).toNat
  let neg := match s.mot.current with
    | some w => w.plan.dir != 0
    | none => false
  match s.saf.guardEdges with
  | a :: b :: c :: _ => a.1 - b.1 ≤ max && b.1 - c.1 ≤ max && a.2 = neg && b.2 = neg
  | _ => false

def viewsSAF : List View :=
  [view1 Reg.SAF_STATE (fun s => fields [(0, 1, flag s.permitted), (1, 1, flag s.saf.startup), (2, 1, flag s.saf.interlock),
     (3, 1, flag s.saf.discrep), (4, 1, flag s.saf.fault), (5, 1, flag s.saf.swgate), (6, 1, flag s.saf.cascade),
     (8, 4, s.saf.levA.toNat), (12, 4, s.saf.levB.toNat), (16, 4, s.saf.dlatch.toNat)]),
   view1 Reg.SAF_GUARD (fun s => fields [(0, 1, flag s.mot.spanOn), (1, 1, flag s.guardSpeed),
     (2, 1, flag ((s.saf.guardEdges.head?.map Prod.snd).getD false))])]

def viewsBST : List View :=
  [view1 Reg.BST_STATE (fun s => match s.bist.slices.head? with
     | none => 0
     | some x => fields [(0, 3, x.st), (3, 2, x.kind), (8, 5, x.idx)])]

def viewsCAL : List View :=
  [view1 Reg.CAL_STATE (fun s => fields [(0, 4, s.cal.encSpare.getD 15), (4, 3, s.cal.bemSpare.getD 7), (8, 3, s.cal.encNext),
     (12, 2, s.cal.bemNext), (16, 1, flag s.cal.refvOk)])]

/-! ## SEQ (R328 to R335) -/

def stateBits (s : State) (st h : Nat) : BitVec 32 :=
  bitsWhere 32 (fun i => 32 * h + i != 0 && (s.ctx (32 * h + i)).rstate = st)

/-- R332: word `i` of the record in SEQ_CSEL as of the last switch-out, RSTATE (byte 0x89) as it is now. -/
def cwinWord (s : State) (i : Nat) : BitVec 32 :=
  let c := s.rfld Reg.SEQ_CSEL 0 6
  if c = 0 then 0
  else
    let v : BitVec 32 := BitVec.ofNat 32 (fieldLE (s.ctx c).saved (4 * i) 4)
    if i = 0x22 then setFld v 8 8 (s.ctx c).rstate else v

def viewsSEQ : List View :=
  [view1 Reg.SEQ_PAIRS (fun s => fields [(0, 4, (bitsWhere 4 (fun p => (s.seq.pairs[p]?.map Pair.inService).getD false)).toNat),
     (4, 4, s.seq.retired.toNat)]),
   view1 Reg.SEQ_RDY_LO (fun s => s.stateBits 1 0), view1 Reg.SEQ_RDY_HI (fun s => s.stateBits 1 1),
   view1 Reg.SEQ_WAIT_LO (fun s => s.stateBits 3 0), view1 Reg.SEQ_WAIT_HI (fun s => s.stateBits 3 1),
   view1 Reg.SEQ_HALT_LO (fun s => s.stateBits 4 0), view1 Reg.SEQ_HALT_HI (fun s => s.stateBits 4 1),
   viewN (Reg.SEQ_RUN 0) 4 4 (fun s p => BitVec.ofNat 32 ((s.seq.pairs[p]?.map Pair.running).getD 0)),
   viewN (Reg.SEQ_CWIN 0) 4 64 cwinWord]

/-! ## XLT, MEM, DMC (chapter 11) -/

def viewsXLT : List View :=
  [view1 Reg.XLT_FSUM_LO (fun s => bitsWhere 32 (fun i => s.slotHolds i)),
   view1 Reg.XLT_FSUM_HI (fun s => bitsWhere 20 (fun i => s.slotHolds (32 + i)))]

def viewsMEM : List View :=
  [view1 Reg.MEM_SCRUB_CTRL (fun s => fields [(8, 1, flag s.mu.scrub.isSome)]),
   viewN (Reg.MEM_REPAIR 0) 4 5 (fun s k =>
     let used := (s.die.field.filter (fun e => e.1 = k)).length
     fields [(0, 8, s.sparesUsed k false), (8, 8, s.sparesUsed k true), (16, 8, used), (24, 8, 32 - used)])]

def viewsDMC : List View :=
  [view1 Reg.DMC_STATE (fun s => fields [(0, 4, s.dmc.selfRef.toNat), (4, 4, s.dmc.hot.toNat), (8, 4, s.dmc.failed.toNat)])]

/-! ## DMA, CVU, DFL, CRY (chapter 12) -/

def viewsDMA : List View :=
  [view1 Reg.DMA_BUSY (fun s => bitsWhere 32 (fun c => (s.chan c).st != 0)),
   view1 Reg.DMA_HALTED (fun s => bitsWhere 32 (fun c => (s.chan c).st = 4)),
   viewN (Reg.DMA_STAT 0) 32 32 (fun s c => fields [(0, 3, (s.chan c).st), (8, 3, (s.chan c).cause), (16, 8, (s.chan c).last)])]

def viewsCVU : List View :=
  [viewN (Reg.CVU_STAT 0) 16 4 (fun s u =>
     let k := s.cvu u
     let st := if k.cur.isNone then 0 else if k.faultAt.isSome then 2 else 1
     fields [(0, 2, st), (8, 6, (k.cur.map CvuPass.ctx).getD 0), (16, 6, k.queue.length)])]

def viewsDFL : List View :=
  [view1 Reg.DFL_OWNER (fun s => fields [(0, 5, s.mv.infOwner.getD 0), (7, 1, flag s.mv.infOwner.isSome),
     (8, 5, s.mv.defOwner.getD 0), (15, 1, flag s.mv.defOwner.isSome)])]

def viewsCRY : List View :=
  [view1 Reg.CRY_DEVID_LO (fun s => BitVec.ofNat 32 s.die.devid.toNat),
   view1 Reg.CRY_DEVID_HI (fun s => BitVec.ofNat 32 (s.die.devid.toNat >>> 32)),
   viewN (Reg.CRY_OWNER 0) 8 16 (fun s k =>
     BitVec.ofNat 32 (((List.range 64).find? (fun c => c != 0 && (s.ctx c).keyslot = k)).getD 0))]

/-! ## RDG, CRN (chapters 04 and 05) -/

def physOf (s : State) (l : Nat) : Nat := (s.rdg.ridges[l]?.map Ridge.phys).getD 0

def viewMap (m n : Nat) (s : State) : BitVec 32 := fields ((List.range n).map (fun k => (5 * k, 5, s.physOf (6 * m + k))))

/-- R131: a ridge waits for a halo value. -/
def haloStalled (s : State) (i : Nat) : Bool :=
  match s.ridgeAt i with
  | some (w, q, n) => (s.ridge i).band = some (w.firstOrd, n / 64) && (s.ridge i).stops.isEmpty && s.haloWaits i q
  | none => false

def viewPstat (s : State) (p : Nat) : BitVec 32 :=
  if s.ridgeCount < p then 0
  else if bit s.rdg.retired p then 3
  else if s.rdg.inBist = some p then 2
  else
    match (List.range s.ridgeCount).find? (fun l => s.physOf l = p) with
    | some l => fields [(4, 4, l), (8, 1, flag !(s.ridge l).stops.isEmpty), (9, 1, flag (s.haloStalled l))]
    | none => 1

/-- The line index of an ordinal of a planned swath. -/
def lineOfOrd (s : State) (q : Nat) : Int :=
  match s.swathAt q with
  | some w => planLine w.plan (q - w.firstOrd)
  | none => 0

def viewsRDG : List View :=
  [view1 Reg.RDG_SPARE (fun s => fields [(0, 5, s.rdg.spare.getD (fld (Config.freeValue s.draws) 0 5)), (8, 5, s.rdg.nextLeave), (16, 1, flag s.rdg.rotHalt)]),
   view1 Reg.RDG_RETIRED (fun s => s.rdg.retired.setWidth 32),
   view1 Reg.RDG_MAP0 (viewMap 0 6), view1 Reg.RDG_MAP1 (viewMap 1 6), view1 Reg.RDG_MAP2 (viewMap 2 4),
   viewN (Reg.RDG_PSTAT 0) 4 17 viewPstat,
   viewN (Reg.RDG_XF_CTX 0) 8 16 (fun s i => match (s.ridge i).stops.head? with
     | some z => fields [(0, 6, z.ctx), (31, 1, 1)]
     | none => 0),
   viewN (Reg.RDG_XF_LINE 0) 8 16 (fun s i => match (s.ridge i).stops.head? with
     | some z => toWord (s.lineOfOrd z.ord)
     | none => 0)]

/-- The first ordinal that a ridge has not rendered: the first line that it holds EMPTY, or the one it renders next. -/
def renderedTo (s : State) (i : Nat) : Nat :=
  match s.crn.window.find? (fun (l : CLine) => l.ridges[i]?.any (fun k => k.st = 0)) with
  | some l => l.ord
  | none => (s.ridge i).nextOrd

/-- R183: the highest ordinal rendered by every ridge, and one more. -/
def rendered (s : State) : Nat :=
  match (List.range s.rdg.ridges.length).map s.renderedTo with
  | [] => 0
  | q :: qs => qs.foldl min q

/-- The states of ridges 10h to 10h + n − 1 for the line whose ordinal is `i` modulo 256; a line outside the window is
FREE. -/
def viewStates (h n : Nat) (s : State) (i : Nat) : BitVec 32 :=
  let l := s.crn.window.find? (fun l => l.ord % 256 = i)
  fields ((List.range n).map (fun k => (3 * k, 3,
    if s.ridgeCount ≤ 10 * h + k then 7 else (((l.bind (fun l => l.ridges[10 * h + k]?)).map RLine.st).getD 7))))

def viewsCRN : List View :=
  [view1 Reg.CRN_FIRST (fun s => BitVec.ofNat 32 s.firstUntx), view1 Reg.CRN_OPEN (fun s => BitVec.ofNat 32 s.oldestOpen),
   view1 Reg.CRN_HORIZON (fun s => if s.rendered = 0 then 0xFFFFFFFF else BitVec.ofNat 32 (s.rendered - 1)),
   view1 Reg.CRN_TXLINE (fun s => toWord (s.lineOfOrd s.firstUntx)),
   view1 Reg.CRN_TXLAYER (fun s => BitVec.ofNat 32 (((s.swathAt s.firstUntx).map (fun w => w.plan.layer)).getD 0)),
   view1 Reg.CRN_TXSWATH (fun s => BitVec.ofNat 32 (((s.swathAt s.firstUntx).map (fun w => w.plan.swath)).getD 0)),
   view1 Reg.CRN_SQUASH (fun s => fields [(0, 4, s.crn.squashSrc), (16, 16, s.crn.squashRidges.toNat)]),
   view1 Reg.CRN_SQ_LINE (fun s => toWord s.crn.squashAt.line),
   view1 Reg.CRN_SQ_LAYER (fun s => BitVec.ofNat 32 s.crn.squashAt.layer),
   view1 Reg.CRN_SQ_SWATH (fun s => BitVec.ofNat 32 s.crn.squashAt.swath),
   viewN (Reg.CRN_LST_LO 0) 8 256 (viewStates 0 10), viewN (Reg.CRN_LST_HI 0) 8 256 (viewStates 1 6)]

/-! ## ACT, HLK, STB (chapters 06 and 07) -/

def viewsACT : List View :=
  [view1 Reg.ACT_STATUS (fun s => fields [(0, 4, s.act.t % s.actBlocks), (4, 3, s.act.phase), (8, 1, flag s.act.pending)]),
   viewN (Reg.ACT_CLASS 0) 4 8 (fun s k =>
     let listed := s.actListed.filter (fun a => decide (a % 65536 < s.columns))
     let n := (listed.filter (fun a => s.actClass a = k)).length
     BitVec.ofNat 32 (if k = 0 then n + (16 * s.columns - listed.length) else n)),
   view1 Reg.ACT_EDIT_FREE (fun s => BitVec.ofNat 32 (1024 - s.act.edits.length))]

def viewsHLK : List View :=
  [view1 Reg.HLK_UP (fun s => bitsWhere 16 (fun l => s.linkActive (.head l))),
   view1 Reg.HLK_LSEQ (fun s => BitVec.ofNat 32 s.hlk.lseq),
   view1 Reg.HLK_PORT (fun s => fields [(0, 16, s.hlk.tkn), (16, 1, flag s.hlk.portB)]),
   view1 Reg.HLK_FMAP (fun s => fields [(0, 4, s.hlk.fgen),
     (16, 16, ((s.hlk.fmaps.find? (fun m => m.gen = s.hlk.fgen)).map (fun m => m.acked.toNat)).getD 0)])]

def viewsSTB : List View :=
  [view1 Reg.STB_STATE (fun s => fields [(0, 1, flag s.pins.fireGate), (1, 1, flag ((s.posu 0).speedValid && !s.tooSlow)),
     (2, 1, flag s.saf.swgate), (16, 8, min 255 s.stb.ovsRun)])]

/-! ## PLN, POS, STP, SWI (chapter 08) -/

def viewsPLN : List View :=
  [view1 Reg.PLN_STATE (fun s => s.plnState),
   viewN (Reg.PLN_PPOS 0) 16 4 (fun s a => toWord ((s.axis a).pos / 256)), viewN (Reg.PLN_PVEL 0) 16 4 (fun s a => toWord (s.axis a).vel)]

/-- R269, R271. -/
def signedSpeed (s : State) (u : Nat) : Int := if (s.posu u).neg then -(s.posSpeed u : Int) else s.posSpeed u

def viewsPOS : List View :=
  [viewN (Reg.POS_POS_LO 0) 64 4 (fun s u => half (s.posX u) 0),
   viewN (Reg.POS_SPEED 0) 64 4 (fun s u => toWord (s.signedSpeed u)),
   viewN (Reg.POS_STAT 0) 64 4 (fun s u =>
     let v := s.reg (Reg.POS_STAT u)
     fields [(0, 1, flag !(s.posu u).fault), (1, 1, flag (s.posu u).speedValid), (2, 1, flag (s.posu u).neg),
       (3, 1, flag (bit v 3)), (4, 1, flag (s.posu u).cmpArmed), (5, 1, flag (bit v 5))])]

def viewsSTP : List View :=
  [viewN (Reg.STP_POS 0) 32 2 (fun s m => toWord (s.stepAt m)),
   viewN (Reg.STP_ELEC 0) 32 2 (fun s m => fields [(0, 10, s.elecAt m), (16, 10, uNat 10 (s.stepper m).load)]),
   viewN (Reg.STP_STAT 0) 32 2 (fun s m => fields [(0, 1, flag (s.axis (m + 2)).moving), (1, 1, flag (s.stepper m).stalled),
     (2, 1, flag (s.stepper m).retained), (3, 1, flag (s.rbit (Reg.STP_CTRL m) 0))])]

def viewsSWI : List View :=
  [view1 Reg.SWI_STATE (fun s => fields [(0, 8, (bitsWhere 8 (fun i => (s.swi[i]?.map Switch.active).getD false)).toNat),
     (8, 8, (bitsWhere 8 (fun i => (s.swi[i]?.map Switch.faulty).getD false)).toNat)])]

/-! ## TWN, CSC (chapter 09) -/

/-- R301, R302: the ridge under full shadow: of a SOLO module's current swath, while it has a spare to run it on. -/
def shadowed (s : State) : Nat :=
  match s.mot.current with
  | some w => if s.twn.role = 1 && !s.rdg.rotHalt && s.rdg.spare.isSome then s.shadowRidge w.plan else 0
  | none => 0

def viewsTWN : List View :=
  [view1 Reg.TWN_STATE (fun s => fields [(0, 3, s.twn.role), (3, 1, flag s.pins.tws), (4, 3, s.twn.peerRole),
     (7, 1, flag s.twn.linkUp), (8, 1, flag s.pins.tpeer), (12, 4, s.shadowed)]),
   view1 Reg.TWN_SYNC (fun s => fields [(0, 3, s.twn.phase), (4, 3, s.twn.cause), (8, 4, s.twn.object), (12, 4, s.twn.retries),
     (16, 16, s.twn.done)]),
   view1 Reg.TWN_PEER (fun s => fields [(0, 8, s.twn.peerVariant), (8, 8, s.twn.peerStep), (16, 16, s.twn.peerCompat.toNat)])]

def viewsCSC : List View :=
  [view1 Reg.CSC_STATE (fun s => fields [(0, 3, s.pins.cpos), (3, 1, flag s.isLead), (4, 3, s.csc.jstate), (8, 8, s.csc.joined.toNat)])]

/-! ## LNP, JOB, ETH, TIM, CAM, OBS (chapters 13, 14 and 17) -/

/-- The state of the link that a lane serves; a lane of no link is DEEP. -/
def laneState (s : State) (n : Nat) : Nat :=
  ((s.links.find? (fun k => (rxLanes k.id).contains n || (s.txLanes k.id).contains n)).map Link.st).getD 0

/-- R432: the adaptation of a receive lane is frozen. -/
def laneFrozen (s : State) (n : Nat) : Bool := s.links.any (fun k => k.frozen.contains n)

/-- R1, R422: the dose and status lanes that the G1H-F lacks; their registers show 0. -/
def laneAbsent (s : State) (n : Nat) : Bool :=
  s.die.variant = 3 && ((decide (16 ≤ n) && decide (n < 32)) || (decide (40 ≤ n) && decide (n < 48)))

def viewsLNP : List View :=
  [viewN (Reg.LNP_LCFG 0) 4 89 (fun s n => if s.laneAbsent n then 0 else s.reg (Reg.LNP_LCFG n)),
   viewN (Reg.LNP_LSTAT 0) 4 89 (fun s n => if s.laneAbsent n then 0 else setBit (setFld (s.reg (Reg.LNP_LSTAT n)) 0 3 (s.laneState n)) 3 (s.laneFrozen n))]

def viewsJOB : List View :=
  [view1 Reg.JOB_UP (fun s => bitsWhere 4 (fun l => s.linkActive (.job l))),
   view1 Reg.JOB_OPENED_LO (fun s => bitsWhere 32 (fun x => x != 0 && (s.stream x).opened)),
   view1 Reg.JOB_OPENED_HI (fun s => bitsWhere 32 (fun x => (s.stream (32 + x)).opened))]

def viewsETH : List View := [view1 Reg.ETH_RXHEAD (fun s => setBit (s.reg Reg.ETH_RXHEAD) 31 false)]

/-- R457: the source in use. -/
def timeSource (s : State) : Nat := if s.follows then 3 else s.rfld Reg.TIM_CTRL 0 2

def viewsTIM : List View :=
  [view1 Reg.TIM_STAT (fun s => fields [(0, 2, s.timeSource), (2, 1, s.rfld Reg.TIM_STAT 2 1), (3, 1, flag (s.clk.slew != 0))]),
   view1 Reg.TIM_NOW_LO (fun s => BitVec.ofNat 32 s.now)]

def viewsCAM : List View :=
  [viewN (Reg.CAM_STAT 0) 128 2 (fun s p => fields [(0, 16, (s.pipe p).gen), (16, 4, (s.pipe p).queue.length),
     (20, 1, flag ((s.pipe p).open_.isSome || (s.pipe p).untrig))]),
   viewN (Reg.CAM_FSEQ 0) 128 2 (fun s p => BitVec.ofNat 32 (s.pipe p).fseq)]

def viewsOBS : List View := [viewN (Reg.OBS_CNT_LO 0) 8 64 (fun s i => BitVec.ofNat 32 (nth s.obs.counts i 0).toNat)]

/-- The views of a unit. -/
def viewsOf : Nat → List View
  | 0x00 => viewsIDC
  | 0x01 => viewsBCL
  | 0x02 => viewsCRU
  | 0x03 => viewsFCO
  | 0x04 => viewsSAF
  | 0x05 => viewsBST
  | 0x06 => viewsCAL
  | 0x07 => viewsSEQ
  | 0x08 => viewsXLT
  | 0x09 => viewsMEM
  | 0x0A => viewsDMC
  | 0x0B => viewsDMA
  | 0x0C => viewsCVU
  | 0x0D => viewsDFL
  | 0x0E => viewsCRY
  | 0x10 => viewsRDG
  | 0x11 => viewsCRN
  | 0x12 => viewsACT
  | 0x13 => viewsHLK
  | 0x14 => viewsSTB
  | 0x18 => viewsPLN
  | 0x19 => viewsPOS
  | 0x1A => viewsSTP
  | 0x1B => viewsSWI
  | 0x20 => viewsLNP
  | 0x21 => viewsJOB
  | 0x22 => viewsTWN
  | 0x23 => viewsCSC
  | 0x24 => viewsETH
  | 0x25 => viewsTIM
  | 0x28 => viewsCAM
  | 0x30 => viewsOBS
  | _ => []

/-- R269: the captured value that a pair of halves holds: the address of its HI half, and the value [63:32] now. -/
def captureOf (s : State) (a : Nat) : Option (Nat × BitVec 32) :=
  match (List.range 4).find? (fun u => a = Reg.POS_POS_LO u || a = Reg.POS_PRB_LO u || a = Reg.POS_PRB_TLO u) with
  | some u =>
    if a = Reg.POS_POS_LO u then some (Reg.POS_POS_HI u, half (s.posX u) 1)
    else if a = Reg.POS_PRB_LO u then some (Reg.POS_PRB_HI u, s.reg (Reg.POS_PRB_HI u))
    else some (Reg.POS_PRB_THI u, s.reg (Reg.POS_PRB_THI u))
  | none =>
    if a = Reg.TIM_NOW_LO then some (Reg.TIM_NOW_HI, BitVec.ofNat 32 (s.now >>> 32))
    else
      match (List.range 64).find? (fun i => a = Reg.OBS_CNT_LO i) with
      | some i => some (Reg.OBS_CNT_HI i, BitVec.ofNat 32 ((nth s.obs.counts i 0).toNat >>> 32))
      | none => none

/-- Registers that return a captured value. -/
def isHalf (a : Nat) : Bool :=
  a = Reg.TIM_NOW_HI || (List.range 4).any (fun u => a = Reg.POS_POS_HI u || a = Reg.POS_PRB_HI u || a = Reg.POS_PRB_THI u) ||
    (List.range 64).any (fun i => a = Reg.OBS_CNT_HI i)

/-- What the register at `a` shows; a write-only register and an offset that the map does not list show 0 (R7, R11). -/
def regView (s : State) (a : Nat) : BitVec 32 :=
  let u := (a - Config.controlBase) / 0x10000
  match (viewsOf u).find? (fun v => v.1 ≤ a && (a - v.1) % v.2.1 = 0 && decide ((a - v.1) / v.2.1 < v.2.2.1)) with
  | some v => v.2.2.2 s ((a - v.1) / v.2.1)
  | none =>
    match findReg u a with
    | none => 0
    | some d =>
      if d.access = .wo then 0
      else if isHalf a then (((s.captures.find? (fun z => z.1 = a)).map Prod.snd).getD 0)
      else s.reg a

/-- R269: a read of a LO half captures the whole value. -/
def capture (s : State) (a : Nat) : State :=
  match s.captureOf a with
  | none => s
  | some (hi, v) => { s with captures := (hi, v) :: s.captures.filter (fun z => z.1 != hi) }

end State

end Sys2Proof.Machine
end

