-- ==== Sys2Proof/Machine/RegFile.lean ====
section
/-! DEFINITION. Reads and writes of control space by a sequencer context (R6, R7, R10, R11, R269): what a write does in each
unit. -/

namespace Sys2Proof.Machine

namespace State

/-- The unit whose block an address lies in. -/
def unitOf (a : Nat) : Nat := (a - Config.controlBase) / 0x10000

/-! ## Write-only registers -/

/-- A write of a write-only register by context `w`; `i` is the entry. -/
def writeWO (s : State) (w base i : Nat) (v : BitVec 32) : State × RegResult :=
  if base = Reg.RDG_POST then s.rdgPost w v
  else if base = Reg.RDG_RETRY then s.rdgRetry w (fld v 0 6) (bit v 8)
  else if base = Reg.XLT_INV_VA then (s.setReg Reg.XLT_INV_VA (setFld 0 0 27 (fld v 0 27)), .ok)
  else if base = Reg.XLT_INVAL then s.xltInval w v
  else if base = Reg.XLT_RESUME then s.xltResume w (fld v 0 6) (bit v 8)
  else if base = Reg.DMA_CMD 0 then s.dmaCmd w i (bit v 0) (bit v 1)
  else if base = Reg.CVU_GO 0 then (s.cvuGo w i v, .ok)
  else if base = Reg.JOB_TXQ then s.jobTxq w v
  else if base = Reg.JOB_FREE then s.jobFree w (fld v 0 6) (fld v 8 6)
  else if base = Reg.JOB_HALT then s.jobHalt w (fld v 0 6)
  else if base = Reg.JOB_OPEN then s.jobOpen w (fld v 0 6) (bit v 8)
  else if base = Reg.ETH_TXDB then (s.txDoorbell (fld v 0 4), .ok)
  else if base = Reg.CAM_COMMIT 0 then (if bit v 0 then s.commitSettings w i else (s, .ok))
  else (s, .ok)

/-! ## Read-write registers, by their unit's ownership rules -/

/-- Stores `v` when `may` holds; PERM otherwise. -/
def storeIf (s : State) (may : Bool) (a : Nat) (v : BitVec 32) : State × RegResult :=
  if may then (s.setReg a v, .ok) else (s, .perm)

/-- A write of a read-write register; `v` holds the field bits only. -/
def writeRW (s : State) (w u base i a : Nat) (v : BitVec 32) : State × RegResult :=
  if u = 0x11 then (if base = Reg.CRN_LW_CTRL 0 then s.lwCtrl w i v else s.storeIf (w = i || w = s.super) a v)
  else if u = 0x0B then s.storeIf (w = s.super || w = s.chanOwner i) a v
  else if u = 0x21 then
    if !s.ownsStream w i then (s, .perm) else if (s.stream i).desc.isNone then (s, .ok) else (s.setReg a v, .ok)
  else if u = 0x24 then s.rxTail w v.toNat
  else if u = 0x25 then
    if base = Reg.TIM_INC_HI then s.incWrite w v
    else if base = Reg.TIM_ADJ_HI then s.adjWrite w v
    else if base = Reg.TIM_INC_LO || base = Reg.TIM_ADJ_LO then s.storeIf (s.mayTime w) a v
    else if base = Reg.TIM_TRG_CTL 0 then s.trgCtl w i v
    else s.storeIf (s.mayTrigger w i) a v
  else if base = Reg.CAM_WIN_A 0 0 || base = Reg.CAM_WIN_B 0 0 then s.storeIf (s.mayCamera w (i / 16)) a v
  else s.storeIf (s.mayCamera w i) a v

/-! ## The supervisor's registers -/

/-- R275: a write of POS_PRBCTRL; arming makes room for the next probe. -/
def probeCtrl (s : State) (u : Nat) (v : BitVec 32) : State :=
  let s := s.setReg (Reg.POS_PRBCTRL u) v
  if bit v 0 then s.setReg (Reg.POS_STAT u) (setBit (s.reg (Reg.POS_STAT u)) 5 false) else s

/-- R293, R306: a write of TWN_CMD. -/
def twinCmd (s : State) (w : Nat) (v : BitVec 32) : State × RegResult :=
  match if bit v 0 then s.retireWrite w else (s, .ok) with
  | (s, .ok) => if bit v 1 then s.handoverWrite w else (s, .ok)
  | z => z

/-- A supervisor's write that acts, or a plain store; R252, R295: a standby discards its own PLN and STB_VTRIM writes. -/
def writeSUP (s : State) (w u base i a : Nat) (v : BitVec 32) : State × RegResult :=
  if u = 0x18 then
    if s.follows then (s, .ok)
    else if base = Reg.PLN_EDIT then (s.editWrite v, .ok)
    else if base = Reg.PLN_VMAX 0 then (s.limitWrite i 0 v, .ok)
    else if base = Reg.PLN_AMAX 0 then (s.limitWrite i 1 v, .ok)
    else if base = Reg.PLN_JMAX 0 then (s.limitWrite i 2 v, .ok)
    else (s.setReg a v, .ok)
  else if base = Reg.STB_VTRIM 0 then (if s.follows then (s, .ok) else ((s.vtrimWrite i v).mirror 0xB (leBytes 8 a ++ leBytes 4 v.toNat ++ leBytes 4 0), .ok))
  else if base = Reg.ACT_EDIT_IDX then (s.editWriteIdx (fld v 24 3) (fld v 0 20) (BitVec.ofNat 16 (s.rfld Reg.ACT_EDIT_VAL 0 16)), .ok)
  else if base = Reg.POS_PRBCTRL 0 then (s.probeCtrl i v, .ok)
  else if base = Reg.POS_CMP_HI 0 then (s.compareArm i v, .ok)
  else if base = Reg.TWN_CMD then s.twinCmd w v
  else if base = Reg.SEQ_CCMD then (s.ccmd (fld v 0 6) (fld v 8 3) (fld v 16 3), .ok)
  else if base = Reg.MEM_SCRUB_CTRL then (if bit v 0 then s.startScrub else s, .ok)
  else if base = Reg.CRY_CLEAR then (s.cryClear v, .ok)
  else if base = Reg.FCO_LOG_TAIL then (s.logTail v, .ok)
  else if base = Reg.FCO_ERRCLR then (s.errClear v, .ok)
  else if base = Reg.FCO_INJECT then (s.inject v, .ok)
  else if base = Reg.SAF_REARM then (s.rearm v, .ok)
  else (s.setReg a v, .ok)

/-! ## Access -/

/-- R6, R7, R11: context `w` writes `v` to the register at `a`. -/
def regStore (s : State) (w a : Nat) (v : BitVec 32) : State × RegResult :=
  let u := unitOf a
  if !s.unitPresent u then (s, .absent)
  else
    match findReg u a with
    | none => (s, .ok)
    | some d =>
      let i := (a - d.base) / d.stride
      match d.access with
      | .ro | .cfg => (s, .perm)
      | .rc => (s, .ok)
      | .w1c => (s.setReg a (s.reg a &&& ~~~(v &&& d.mask)), .ok)
      | .wo => s.writeWO w d.base i v
      | .rw => s.writeRW w u d.base i a (v &&& d.mask)
      | .sup => if w = 0 || w != s.super then (s, .perm) else s.writeSUP w u d.base i a (v &&& d.mask)

/-- R6, R7, R11, R269: context `w` reads the register at `a`: a read-clears field is cleared, and a LO half captures. -/
def regLoad (s : State) (_w a : Nat) : State × RegResult × BitVec 32 :=
  let u := unitOf a
  if !s.unitPresent u then (s, .absent, 0)
  else
    let v := s.regView a
    match findReg u a with
    | none => (s, .ok, 0)
    | some d => (if d.access = .rc then s.setReg a 0 else s.capture a, .ok, v)

end State

/-- R6, R10, R11: a sequencer context writes a register. -/
def execRegWrite (w addr : Nat) (v : Word) (s : State) : Out :=
  whenMemory s (fun s =>
    if w = 0 || 64 ≤ w || addr % 4 != 0 || addr < Config.controlBase || Config.controlEnd ≤ addr then s
    else State.wrote (s.regStore w addr v) w addr)

end Sys2Proof.Machine
end

