-- ==== Sys2Proof/Machine/IsaOps.lean ====
section
/-! DEFINITION. What the sequencer's instructions are made of (R337 to R347): fetch, register access, loads, stores and
beats. -/

namespace Sys2Proof.Machine

namespace State

def getK (s : State) (c i : Nat) : BitVec 64 := nth (s.ctx c).k i 0

def setK (s : State) (c i : Nat) (v : BitVec 64) : State := s.updCtx c (fun k => { k with k := k.k.set i v })

/-- PC moves past the instruction, which has taken `n` CCLK. -/
def nextPc (s : State) (c n : Nat) : State := (s.updCtx c (fun k => { k with pc := k.pc + 4, beat := 0 })).spend c n

/-- R337, R348: the fetch at PC: it must translate, reach the SEQ pool and read clean; otherwise the context traps with
the address that could not be fetched. -/
def fetch (s : State) (c : Nat) : State × Bool :=
  let pc := (s.ctx c).pc
  if pc.toNat % 4 != 0 then (s.trap c Cause.ALIGN pc, false)
  else
    match s.translate c pc.toNat .fetch .sequencer with
    | (s, .error f) => ((s.seqFault c pc.toNat f .fetch).trap c Cause.XLT_FAULT pc, false)
    | (s, .ok pa) =>
      if !(Config.seqPool ≤ pa && pa < Config.poolEnd) then (s.trap c Cause.BUSERR pc, false)
      else
        match s.readMem .sequencer c pa 4 with
        | (s, .ok _) => (s, true)
        | (s, .uncorr) => (s.trap c Cause.UNCORR pc, false)
        | (s, .busErr) => (s.trap c Cause.BUSERR pc, false)

end State

/-- An instruction of context `c`: it acts only while the context runs; a fetch that fails traps instead. -/
def instruction (c : Nat) (s : State) (act : State → State) : Out :=
  whenClocked s (fun s =>
    if c != 0 && (s.ctx c).rstate = 2 then
      match s.fetch c with
      | (s, true) => act s
      | (s, false) => s
    else s)

namespace State

/-- R342: the trap of an instruction whose word is `w`. -/
def illegal (s : State) (c w : Nat) : State := s.trap c Cause.ILLEGAL (BitVec.ofNat 64 w)

/-- R344: an ALU result into `rd`. -/
def aluWrite (s : State) (c rd : Nat) (r : Alu) (n : Nat) : State :=
  ((s.setK c rd r.val).updCtx c r.setFlags).nextPc c n

/-- The flags alone. -/
def aluFlags (s : State) (c : Nat) (r : Alu) : State := (s.updCtx c r.setFlags).nextPc c 1

end State

/-- An ALU instruction over two registers. -/
def aluRR (c rd ra rb n : Nat) (f : BitVec 64 → BitVec 64 → Alu) (s : State) : Out :=
  instruction c s (fun s => s.aluWrite c rd (f (s.getK c ra) (s.getK c rb)) n)

/-- An ALU instruction with an immediate. -/
def aluRI (c rd ra : Nat) (imm : BitVec 64) (f : BitVec 64 → BitVec 64 → Alu) (s : State) : Out :=
  instruction c s (fun s => s.aluWrite c rd (f (s.getK c ra) imm) 1)

/-! ## Loads and stores (R337, R338, R344) -/

/-- Where a sequencer access goes. -/
inductive AccessPlace where
  | seqPool
  | otherPool
  | control
  | elsewhere
  deriving DecidableEq, Repr

def accessPlace (pa : Nat) : AccessPlace :=
  match poolOf pa with
  | some 4 => .seqPool
  | some _ => .otherPool
  | none => if inControl pa then .control else .elsewhere

namespace State

def trapUncorrLoad (s : State) (c : Nat) (va : BitVec 64) : State := s.trapAt c Cause.UNCORR (s.ctx c).pc va true

/-- R344: a load of `n` bytes at `va`; `word` marks LDW, the one load that control space takes (R338, log entry 14); `ext`
makes the register value. -/
def loadAt (s : State) (c rd n : Nat) (va : BitVec 64) (word : Bool) (ext : Nat → BitVec 64) : State :=
  if va.toNat % n != 0 then s.trap c Cause.ALIGN va
  else
    match s.translate c va.toNat .read .sequencer with
    | (s, .error f) => (s.seqFault c va.toNat f .read).trap c Cause.XLT_FAULT va
    | (s, .ok pa) =>
      match accessPlace pa with
      | .control =>
        if !word then s.trap c Cause.ALIGN va
        else
          match s.regLoad c pa with
          | (s, .absent, _) => s.trap c Cause.ABSENT va
          | (s, .perm, _) => s.trap c Cause.PERM va
          | (s, .ok, v) => (s.setK c rd (ext v.toNat)).nextPc c 24
      | .elsewhere => s.trap c Cause.BUSERR va
      | _ =>
        match s.readMem .sequencer c pa n with
        | (s, .ok bs) => (s.setK c rd (ext (leNat bs))).nextPc c 4
        | (s, .uncorr) => s.trapUncorrLoad c va
        | (s, .busErr) => s.trap c Cause.BUSERR va

/-- R344: a store of the `n` low bytes of `v` at `va`; `word` marks STW. -/
def storeAt (s : State) (c n : Nat) (va : BitVec 64) (word : Bool) (v : BitVec 64) : State :=
  if va.toNat % n != 0 then s.trap c Cause.ALIGN va
  else
    match s.translate c va.toNat .write .sequencer with
    | (s, .error f) => (s.seqFault c va.toNat f .write).trap c Cause.XLT_FAULT va
    | (s, .ok pa) =>
      match accessPlace pa with
      | .control =>
        if !word then s.trap c Cause.ALIGN va
        else
          match s.regStore c pa (BitVec.ofNat 32 v.toNat) with
          | (s, .absent) => s.trap c Cause.ABSENT va
          | (s, .perm) => s.trap c Cause.PERM va
          | (s, .ok) => s.nextPc c 24
      | .otherPool => s.trap c Cause.PERM va
      | .elsewhere => s.trap c Cause.BUSERR va
      | .seqPool => (s.wrLE pa n v.toNat).nextPc c 2

/-- ra + sext(imm18). -/
def effAddr (s : State) (c ra : Nat) (imm : BitVec 18) : BitVec 64 := s.getK c ra + imm.signExtend 64

/-- R345: what a beat moves. -/
def beatBytes (rb rd : Nat) (ra : Option Nat) : Nat :=
  let n := min (min 64 rb) (4096 - rd % 4096)
  match ra with
  | none => n
  | some a => min n (4096 - a % 4096)

/-- R347: a destination of a beat in the SEQ pool, or the trap. -/
def beatDest (s : State) (c : Nat) (va : BitVec 64) : State × Option Nat :=
  match s.translate c va.toNat .write .sequencer with
  | (s, .error f) => ((s.seqFault c va.toNat f .write).trap c Cause.XLT_FAULT va, none)
  | (s, .ok pa) =>
    match accessPlace pa with
    | .seqPool => (s, some pa)
    | .otherPool => (s.trap c Cause.PERM va, none)
    | _ => (s.trap c Cause.BUSERR va, none)

/-- R347: where a source of a beat lies in SRAM, or the trap. -/
def beatFrom (s : State) (c : Nat) (va : BitVec 64) : State × Option Nat :=
  match s.translate c va.toNat .read .sequencer with
  | (s, .error f) => ((s.seqFault c va.toNat f .read).trap c Cause.XLT_FAULT va, none)
  | (s, .ok pa) =>
    match accessPlace pa with
    | .seqPool | .otherPool => (s, some pa)
    | _ => (s.trap c Cause.BUSERR va, none)

/-- The bytes of a source of a beat, once every address of the beat is checked (R347), or the trap. -/
def beatRead (s : State) (c : Nat) (va : BitVec 64) (pa n : Nat) : State × Option Bytes :=
  match s.readMem .sequencer c pa n with
  | (s, .ok bs) => (s, some bs)
  | (s, .uncorr) => (s.trapUncorrLoad c va, none)
  | (s, .busErr) => (s.trap c Cause.BUSERR va, none)

/-- Bytes the spec leaves undefined (R345): one free value each. -/
def freeBytes : Nat → State → State × Bytes
  | 0, s => (s, [])
  | n + 1, s =>
    let (v, s) := s.draw
    let (s, bs) := freeBytes n s
    (s, BitVec.ofNat 8 v.toNat :: bs)

/-- R345: the end of a beat. -/
def endBeat (s : State) (c rd rb n : Nat) (ra : Option Nat) : State :=
  let s := s.setK c rd (s.getK c rd + BitVec.ofNat 64 n)
  let s := match ra with
    | some a => s.setK c a (s.getK c a + BitVec.ofNat 64 n)
    | none => s
  let s := s.setK c rb (s.getK c rb - BitVec.ofNat 64 n)
  if s.getK c rb = 0 then s.nextPc c 4 else s.spend c 4

/-- R340: the store at PC reaches its target though the pair does not hear of it. -/
def lateStore (s : State) (c : Nat) : State :=
  let pc := (s.ctx c).pc
  match s.translate c pc.toNat .fetch .sequencer with
  | (_, .error _) => s
  | (_, .ok pa) =>
    let w := BitVec.ofNat 32 (leNat (s.rd pa 4))
    let op := fld w 26 6
    if op < 0x18 || 0x1B < op then s
    else
      let u := s.storeAt c (2 ^ (op - 0x18)) (s.effAddr c (fld w 18 4) (BitVec.ofNat 18 (fld w 0 18))) (op = 0x1A) (s.getK c (fld w 22 4))
      if (u.ctx c).pc = pc + 4 then u.updCtx c (fun k => { k with pc := pc, beat := (s.ctx c).beat }) else s

/-- R345: whether the ranges of a copy overlap. -/
def overlaps (a b n : Nat) : Bool := a < b + n && b < a + n

end State

end Sys2Proof.Machine
end

