-- ==== Sys2Proof/Machine/Isa.lean ====
section
/-! DEFINITION. The instructions of the sequencer (R344 to R354), one meaning each. -/

namespace Sys2Proof.Machine

/-! ## ALU -/

def execAdd (c : Nat) (rd ra rb : Fin 16) (s : State) : Out := aluRR c rd ra rb 1 aluAdd s

def execSub (c : Nat) (rd ra rb : Fin 16) (s : State) : Out := aluRR c rd ra rb 1 aluSub s

def execAnd (c : Nat) (rd ra rb : Fin 16) (s : State) : Out := aluRR c rd ra rb 1 aluAnd s

def execOr (c : Nat) (rd ra rb : Fin 16) (s : State) : Out := aluRR c rd ra rb 1 aluOr s

def execXor (c : Nat) (rd ra rb : Fin 16) (s : State) : Out := aluRR c rd ra rb 1 aluXor s

/-- The amount of a shift is rb [5:0]. -/
def execShl (c : Nat) (rd ra rb : Fin 16) (s : State) : Out := aluRR c rd ra rb 1 (fun a b => aluShl a (fld b 0 6)) s

def execShr (c : Nat) (rd ra rb : Fin 16) (s : State) : Out := aluRR c rd ra rb 1 (fun a b => aluShr a (fld b 0 6)) s

def execSar (c : Nat) (rd ra rb : Fin 16) (s : State) : Out := aluRR c rd ra rb 1 (fun a b => aluSar a (fld b 0 6)) s

def execMul (c : Nat) (rd ra rb : Fin 16) (s : State) : Out := aluRR c rd ra rb 3 aluMul s

def execMulhu (c : Nat) (rd ra rb : Fin 16) (s : State) : Out := aluRR c rd ra rb 3 aluMulhu s

def execMulhs (c : Nat) (rd ra rb : Fin 16) (s : State) : Out := aluRR c rd ra rb 3 aluMulhs s

def execDivu (c : Nat) (rd ra rb : Fin 16) (s : State) : Out := aluRR c rd ra rb 34 aluDivu s

def execDivs (c : Nat) (rd ra rb : Fin 16) (s : State) : Out := aluRR c rd ra rb 34 aluDivs s

def execRemu (c : Nat) (rd ra rb : Fin 16) (s : State) : Out := aluRR c rd ra rb 34 aluRemu s

def execCmp (c : Nat) (ra rb : Fin 16) (s : State) : Out :=
  instruction c s (fun s => s.aluFlags c (aluSub (s.getK c ra) (s.getK c rb)))

def execTst (c : Nat) (ra rb : Fin 16) (s : State) : Out :=
  instruction c s (fun s => s.aluFlags c (aluAnd (s.getK c ra) (s.getK c rb)))

def execAddi (c : Nat) (rd ra : Fin 16) (imm : BitVec 18) (s : State) : Out := aluRI c rd ra (imm.signExtend 64) aluAdd s

def execAndi (c : Nat) (rd ra : Fin 16) (imm : BitVec 18) (s : State) : Out := aluRI c rd ra (imm.zeroExtend 64) aluAnd s

def execOri (c : Nat) (rd ra : Fin 16) (imm : BitVec 18) (s : State) : Out := aluRI c rd ra (imm.zeroExtend 64) aluOr s

def execXori (c : Nat) (rd ra : Fin 16) (imm : BitVec 18) (s : State) : Out := aluRI c rd ra (imm.zeroExtend 64) aluXor s

def execShli (c : Nat) (rd ra : Fin 16) (amount : Fin 64) (s : State) : Out :=
  aluRI c rd ra 0 (fun a _ => aluShl a amount) s

def execShri (c : Nat) (rd ra : Fin 16) (amount : Fin 64) (s : State) : Out :=
  aluRI c rd ra 0 (fun a _ => aluShr a amount) s

def execSari (c : Nat) (rd ra : Fin 16) (amount : Fin 64) (s : State) : Out :=
  aluRI c rd ra 0 (fun a _ => aluSar a amount) s

def execCmpi (c : Nat) (ra : Fin 16) (imm : BitVec 18) (s : State) : Out :=
  instruction c s (fun s => s.aluFlags c (aluSub (s.getK c ra) (imm.signExtend 64)))

def execKset (c : Nat) (rd : Fin 16) (imm : BitVec 16) (s : State) : Out :=
  instruction c s (fun s => (s.setK c rd (imm.signExtend 64)).nextPc c 1)

/-- The top 16 bits of rd are shifted out. -/
def execKapp (c : Nat) (rd : Fin 16) (imm : BitVec 16) (s : State) : Out :=
  instruction c s (fun s => (s.setK c rd ((s.getK c rd <<< 16) ||| imm.zeroExtend 64)).nextPc c 1)

/-! ## Loads and stores -/

def execLdb (c : Nat) (rd ra : Fin 16) (imm : BitVec 18) (s : State) : Out :=
  instruction c s (fun s => s.loadAt c rd 1 (s.effAddr c ra imm) false (fun v => BitVec.ofNat 64 v))

def execLdh (c : Nat) (rd ra : Fin 16) (imm : BitVec 18) (s : State) : Out :=
  instruction c s (fun s => s.loadAt c rd 2 (s.effAddr c ra imm) false (fun v => BitVec.ofNat 64 v))

def execLdw (c : Nat) (rd ra : Fin 16) (imm : BitVec 18) (s : State) : Out :=
  instruction c s (fun s => s.loadAt c rd 4 (s.effAddr c ra imm) true (fun v => BitVec.ofNat 64 v))

def execLdd (c : Nat) (rd ra : Fin 16) (imm : BitVec 18) (s : State) : Out :=
  instruction c s (fun s => s.loadAt c rd 8 (s.effAddr c ra imm) false (fun v => BitVec.ofNat 64 v))

def execLdbs (c : Nat) (rd ra : Fin 16) (imm : BitVec 18) (s : State) : Out :=
  instruction c s (fun s => s.loadAt c rd 1 (s.effAddr c ra imm) false (fun v => (BitVec.ofNat 8 v).signExtend 64))

def execLdhs (c : Nat) (rd ra : Fin 16) (imm : BitVec 18) (s : State) : Out :=
  instruction c s (fun s => s.loadAt c rd 2 (s.effAddr c ra imm) false (fun v => (BitVec.ofNat 16 v).signExtend 64))

def execLdws (c : Nat) (rd ra : Fin 16) (imm : BitVec 18) (s : State) : Out :=
  instruction c s (fun s => s.loadAt c rd 4 (s.effAddr c ra imm) false (fun v => (BitVec.ofNat 32 v).signExtend 64))

def execStb (c : Nat) (rd ra : Fin 16) (imm : BitVec 18) (s : State) : Out :=
  instruction c s (fun s => s.storeAt c 1 (s.effAddr c ra imm) false (s.getK c rd))

def execSth (c : Nat) (rd ra : Fin 16) (imm : BitVec 18) (s : State) : Out :=
  instruction c s (fun s => s.storeAt c 2 (s.effAddr c ra imm) false (s.getK c rd))

def execStw (c : Nat) (rd ra : Fin 16) (imm : BitVec 18) (s : State) : Out :=
  instruction c s (fun s => s.storeAt c 4 (s.effAddr c ra imm) true (s.getK c rd))

def execStd (c : Nat) (rd ra : Fin 16) (imm : BitVec 18) (s : State) : Out :=
  instruction c s (fun s => s.storeAt c 8 (s.effAddr c ra imm) false (s.getK c rd))

/-- Atomic in the SEQ pool; Z says that rb was stored. -/
def execCas (c : Nat) (rd ra rb : Fin 16) (s : State) : Out :=
  instruction c s (fun s =>
    let va := s.getK c ra
    if va.toNat % 8 != 0 then s.trap c Cause.ALIGN va
    else
      match s.translate c va.toNat .cas .sequencer with
      | (s, .error f) => (s.seqFault c va.toNat f .cas).trap c Cause.XLT_FAULT va
      | (s, .ok pa) =>
        match accessPlace pa with
        | .otherPool => s.trap c Cause.PERM va
        | .seqPool =>
          match s.readMem .sequencer c pa 8 with
          | (s, .ok bs) =>
            let old := BitVec.ofNat 64 (leNat bs)
            let hit := old = s.getK c rd
            let s := if hit then s.wrLE pa 8 (s.getK c rb).toNat else s
            ((s.setK c rd old).updCtx c (fun k => { k with z := decide hit })).nextPc c 4
          | (s, .uncorr) => s.trapUncorrLoad c va
          | (s, .busErr) => s.trap c Cause.BUSERR va
        | _ => s.trap c Cause.BUSERR va)

/-- R346: one beat; rd + rb at most 15, and ra outside the registers loaded. -/
def execLdm (c : Nat) (rd ra rb : Fin 16) (s : State) : Out :=
  instruction c s (fun s =>
    if 15 < rd.val + rb.val || (rd.val ≤ ra.val && ra.val ≤ rd.val + rb.val) then
      s.illegal c (0x1D * 2 ^ 26 + rd.val * 2 ^ 22 + ra.val * 2 ^ 18 + rb.val * 2 ^ 14)
    else
      let i := (s.ctx c).beat
      let va := s.getK c ra + BitVec.ofNat 64 (8 * i)
      if va.toNat % 8 != 0 then s.trap c Cause.ALIGN va
      else
        match s.beatFrom c va with
        | (s, none) => s
        | (s, some pa) =>
          match s.beatRead c va pa 8 with
          | (s, none) => s
          | (s, some bs) =>
            let s := s.setK c (rd.val + i) (BitVec.ofNat 64 (leNat bs))
            if rb.val ≤ i then s.nextPc c 4 else (s.updCtx c (fun k => { k with beat := i + 1 })).spend c 4)

/-- R346: one beat; rd + rb at most 15. -/
def execStm (c : Nat) (rd ra rb : Fin 16) (s : State) : Out :=
  instruction c s (fun s =>
    if 15 < rd.val + rb.val then s.illegal c (0x1E * 2 ^ 26 + rd.val * 2 ^ 22 + ra.val * 2 ^ 18 + rb.val * 2 ^ 14)
    else
      let i := (s.ctx c).beat
      let va := s.getK c ra + BitVec.ofNat 64 (8 * i)
      if va.toNat % 8 != 0 then s.trap c Cause.ALIGN va
      else
        match s.beatDest c va with
        | (s, none) => s
        | (s, some pa) =>
          let s := s.wrLE pa 8 (s.getK c (rd.val + i)).toNat
          if rb.val ≤ i then s.nextPc c 2 else (s.updCtx c (fun k => { k with beat := i + 1 })).spend c 2)

/-- R345, R347: one beat, all or nothing; where the ranges overlap the bytes written are free. -/
def execBcopy (c : Nat) (rd ra rb : Fin 16) (s : State) : Out :=
  instruction c s (fun s =>
    let d := s.getK c rd
    let a := s.getK c ra
    let n := s.getK c rb
    if n = 0 then s.nextPc c 1
    else
      let m := State.beatBytes n.toNat d.toNat (some a.toNat)
      match s.beatFrom c a with
      | (s, none) => s
      | (s, some qa) =>
        match s.beatDest c d with
        | (s, none) => s
        | (s, some pa) =>
          match s.beatRead c a qa m with
          | (s, none) => s
          | (s, some bs) =>
          let (s, bs) := if State.overlaps d.toNat a.toNat n.toNat then State.freeBytes m s else (s, bs)
          (s.wr pa bs).endBeat c rd rb m (some ra.val))

/-- R345: one beat of ra [7:0]. -/
def execBfill (c : Nat) (rd ra rb : Fin 16) (s : State) : Out :=
  instruction c s (fun s =>
    let d := s.getK c rd
    let n := s.getK c rb
    if n = 0 then s.nextPc c 1
    else
      let m := State.beatBytes n.toNat d.toNat none
      match s.beatDest c d with
      | (s, none) => s
      | (s, some pa) => (s.wr pa (List.replicate m (BitVec.ofNat 8 (fld (s.getK c ra) 0 8)))).endBeat c rd rb m none)

/-! ## Branches -/

/-- PC + 4 × sext(off22). -/
def State.branchTo (s : State) (c : Nat) (off : BitVec 22) : State :=
  (s.updCtx c (fun k => { k with pc := k.pc + (off.signExtend 64 <<< 2) })).spend c 2

def execB (c : Nat) (cond : Fin 15) (off : BitVec 22) (s : State) : Out :=
  instruction c s (fun s => if condHolds (s.ctx c) cond then s.branchTo c off else s.nextPc c 1)

def execBl (c : Nat) (off : BitVec 22) (s : State) : Out :=
  instruction c s (fun s => (s.setK c 15 ((s.ctx c).pc + 4)).branchTo c off)

/-- A jump to a register; a target that is not 4-aligned takes ALIGN. -/
def State.jumpTo (s : State) (c : Nat) (target : BitVec 64) : State :=
  (s.updCtx c (fun k => { k with pc := target })).spend c 2

def execJr (c : Nat) (ra : Fin 16) (s : State) : Out :=
  instruction c s (fun s =>
    let a := s.getK c ra
    if a.toNat % 4 != 0 then s.trap c Cause.ALIGN a else s.jumpTo c a)

def execJlr (c : Nat) (rd ra : Fin 16) (s : State) : Out :=
  instruction c s (fun s =>
    let a := s.getK c ra
    if a.toNat % 4 != 0 then s.trap c Cause.ALIGN a else (s.setK c rd ((s.ctx c).pc + 4)).jumpTo c a)

/-! ## Events, waits, signals, timers -/

/-- R352, R353: takes the pending events of a mask into rd; SIGFROM goes with SIGNAL. -/
def State.takeEvents (s : State) (c rd : Nat) (mask : BitVec 16) : State :=
  let p := (s.ctx c).evpend &&& mask
  (s.setK c rd (p.zeroExtend 64)).updCtx c (fun k =>
    { k with evpend := k.evpend &&& ~~~p, sigfrom := if bit p 13 then 0 else k.sigfrom })

/-- R352, R354: WAIT reloads the watchdog; with no pending event in the mask the context enters WAITING with PC on the
WAIT, which completes when it runs again. -/
def execWait (c : Nat) (rd : Fin 16) (mask : BitVec 16) (s : State) : Out :=
  instruction c s (fun s =>
    if mask = 0 then s.illegal c (0x30 * 2 ^ 26 + rd.val * 2 ^ 22)
    else
      let s := s.updCtx c (fun k => { k with wdLeft := k.wdog })
      if (s.ctx c).evpend &&& mask != 0 then (s.takeEvents c rd mask).nextPc c 1
      else ((s.updCtx c (fun k => { k with rstate := 3, wmask := mask })).freePair c).saveCtx c)

/-- R352: as WAIT without waiting; Z says that none was pending. -/
def execPoll (c : Nat) (rd : Fin 16) (mask : BitVec 16) (s : State) : Out :=
  instruction c s (fun s =>
    let none_ := (s.ctx c).evpend &&& mask = 0
    ((s.takeEvents c rd mask).updCtx c (fun k => { k with z := decide none_ })).nextPc c 1)

/-- R353: a job context may signal itself and the supervisor. -/
def execSignal (c : Nat) (ra : Fin 16) (s : State) : Out :=
  instruction c s (fun s =>
    let x := fld (s.getK c ra) 0 6
    if x = 0 || (c != s.super && x != c && x != s.super) then s.trap c Cause.PERM (BitVec.ofNat 64 x)
    else
      let s := s.updCtx x (fun k => { k with sigfrom := setBit k.sigfrom c true })
      (s.raiseEvent x 13).nextPc c 1)

def execSettmr (c : Nat) (ra : Fin 16) (s : State) : Out :=
  instruction c s (fun s => (s.updCtx c (fun k => { k with timer := nth k.k ra.val 0 })).nextPc c 1)

def execYield (c : Nat) (s : State) : Out := instruction c s (fun s => (s.nextPc c 1).yieldCtx c)

/-- The context enters HALTED after this instruction. -/
def execHalt (c : Nat) (s : State) : Out := instruction c s (fun s => (s.nextPc c 1).haltCtx c)

/-! ## Traps and special registers -/

/-- R350. -/
def execTret (c : Nat) (s : State) : Out :=
  instruction c s (fun s =>
    if (s.ctx c).intrap then
      (s.updCtx c (fun k => { k.setFlagBits k.tflags with pc := k.tpc, beat := k.tbeat, intrap := false })).spend c 2
    else s.illegal c (0x36 * 2 ^ 26))

/-- R350: return from an NMI. -/
def execTretNmi (c : Nat) (s : State) : Out :=
  instruction c s (fun s =>
    if (s.ctx c).innmi then
      (s.updCtx c (fun k =>
        { k.setFlagBits (BitVec.ofNat 4 (fld k.nstat 0 4)) with pc := k.npc, beat := fld k.nstat 8 8, innmi := false })).spend c 2
    else s.illegal c (0x36 * 2 ^ 26 + 1))

/-- R344: the value of a special register. -/
def specialReg (s : State) (c sr : Nat) : BitVec 64 :=
  let k := s.ctx c
  match sr with
  | 0 => k.pc
  | 1 => BitVec.ofNat 64 c
  | 2 => setBit (setBit ((Ctx.flags k).zeroExtend 64) 4 k.intrap) 5 k.innmi
  | 3 => k.tvec
  | 4 => k.tpc
  | 5 => k.tflags.zeroExtend 64
  | 6 => setBit (BitVec.ofNat 64 (k.tcause % 256 + 256 * (k.tbeat % 256))) 16 k.tload
  | 7 => k.taddr
  | 8 => k.evpend.zeroExtend 64
  | 10 => BitVec.ofNat 64 s.now
  | 11 => BitVec.ofNat 64 k.prio
  | 12 => BitVec.ofNat 64 s.super
  | 13 => k.cclks
  | 14 => k.npc
  | _ => k.nstat.zeroExtend 64

/-- Numbers 0 to 8 and 10 to 15 are listed; NPC and NSTAT are the supervisor's; CCLKS is drawn as it is read (log entry
15). -/
def execRdsr (c : Nat) (rd : Fin 16) (sr : Nat) (s : State) : Out :=
  instruction c s (fun s =>
    if sr = 9 || 15 < sr then s.illegal c (0x37 * 2 ^ 26 + rd.val * 2 ^ 22 + sr % 256)
    else if (sr = 14 || sr = 15) && c != s.super then s.trap c Cause.PERM (BitVec.ofNat 64 sr)
    else
      let s := if sr = 13 then
          let (v, s) := s.draw
          s.updCtx c (fun k => { k with cclks := v })
        else s
      (s.setK c rd (specialReg s c sr)).nextPc c 1)

/-- R344: FLAGS takes [3:0], TSTAT takes [15:8]; TVEC, TPC and TFLAGS are written; NPC and NSTAT by the supervisor; every
other number is ILLEGAL. -/
def execWrsr (c : Nat) (ra : Fin 16) (sr : Nat) (s : State) : Out :=
  instruction c s (fun s =>
    let v := s.getK c ra
    if (sr = 14 || sr = 15) && c != s.super then s.trap c Cause.PERM (BitVec.ofNat 64 sr)
    else
      match sr with
      | 2 => (s.updCtx c (fun k => k.setFlagBits (v.setWidth 4))).nextPc c 1
      | 3 => (s.updCtx c (fun k => { k with tvec := v })).nextPc c 1
      | 4 => (s.updCtx c (fun k => { k with tpc := v })).nextPc c 1
      | 5 => (s.updCtx c (fun k => { k with tflags := v.setWidth 4 })).nextPc c 1
      | 6 => (s.updCtx c (fun k => { k with tbeat := fld v 8 8 })).nextPc c 1
      | 14 => (s.updCtx c (fun k => { k with npc := v })).nextPc c 1
      | 15 => (s.updCtx c (fun k => { k with nstat := v.setWidth 16 &&& 0xFF0F })).nextPc c 1
      | _ => s.illegal c (0x38 * 2 ^ 26 + ra.val * 2 ^ 18 + sr % 256))

/-- R354, R355: reloads the context's watchdog; the supervisor's counts on the timebase, whose expiry is a command of its
own. -/
def execWdog (c : Nat) (s : State) : Out :=
  instruction c s (fun s => (s.updCtx c (fun k => { k with wdLeft := k.wdog })).nextPc c 1)

def execNop (c : Nat) (s : State) : Out := instruction c s (fun s => s.nextPc c 1)

end Sys2Proof.Machine
end

