-- ==== Sys2Proof/Machine/Loader.lean ====
section
/-! DEFINITION. LOAD: the records of the image applied in order, the check pass, and the fallback to the other slot (R9, R211,
R490, R512 to R514, R520). -/

namespace Sys2Proof.Machine

/-! ## Records (R512) -/

structure LoadRec where
  idx : Nat
  typ : Nat
  flags : Nat
  unit : Nat
  inst : Nat
  zero : Nat
  body : Bytes
  deriving DecidableEq, Repr

def loadRec (i : Nat) (bs : Bytes) : LoadRec :=
  { idx := i, typ := fieldLE bs 0 2, flags := fieldLE bs 2 1, unit := fieldLE bs 3 1, inst := fieldLE bs 8 4,
    zero := fieldLE bs 12 4, body := bs.drop 16 }

/-- The unit a record type addresses; none for REGS, whose unit is the target. -/
def recUnit : Nat → Option Nat
  | 0x03 => some 0x07
  | 0x04 => some 0x21
  | 0x05 => some 0x14
  | 0x06 => some 0x10
  | 0x07 => some 0x10
  | 0x08 => some 0x13
  | 0x09 => some 0x10
  | 0x0A => some 0x10
  | 0x0B => some 0x10
  | 0x0C => some 0x12
  | 0x0D => some 0x0E
  | 0x01 => none
  | _ => some 0x3F

/-- The INSTANCE values a record type allows. -/
def recInst (typ i : Nat) : Bool :=
  if typ = 0x03 || typ = 0x04 then 1 ≤ i && i ≤ 63
  else if typ = 0x06 || typ = 0x0B then i ≤ 7
  else if typ = 0x0A then 1 ≤ i && i ≤ 7
  else if typ = 0x0D then i ≤ 3
  else i = 0

/-- The body length a record type has; none where it depends on the body. -/
def recBody : Nat → Option Nat
  | 0x03 => some 40
  | 0x04 => some 16
  | 0x05 => some 64
  | 0x06 => some 32
  | 0x07 => some 64
  | 0x08 => some 64
  | 0x09 => some 144
  | 0x0A => some 128
  | 0x0B => some 8
  | 0x0D => some 48
  | 0x0E => some 32
  | 0x0F => some 16
  | _ => none

/-- R512: a header as the table of record types gives it. -/
def recFits (r : LoadRec) : Bool :=
  let n := r.body.length
  1 ≤ r.typ && r.typ ≤ 0x0F && r.flags < 2 && r.zero = 0 && r.unit < 64 &&
    (match recUnit r.typ with
      | some u => r.unit = u
      | none => true) && recInst r.typ r.inst &&
    (match recBody r.typ with
      | some k => n = k
      | none => if r.typ = 0x0C then n = 8 + 16 * fieldLE r.body 4 4 else if r.typ = 0x02 then 16 ≤ n else true)

/-! ## What LOAD carries along -/

structure LoadSt where
  st : State
  loaded : Nat
  skipped : Nat
  fixed : Nat                     -- actuator entries under R211
  seen : List (Nat × Nat)         -- TYPE and INSTANCE, or TYPE and table
  written : List Nat              -- registers that REGS entries wrote
  deriving DecidableEq, Repr

/-- R520: the loader writes a register; the copy keeps the last value of each CFG register. -/
def State.loadReg (s : State) (cfg : Bool) (a : Nat) (v : BitVec 32) : State :=
  let s := s.setReg a v
  if cfg then { s with boot := { s.boot with cfgCopy := s.boot.cfgCopy.filter (fun p => p.1 != a) ++ [(a, v)] } } else s

/-- Bits [hi:lo] that a 0 loads as another value (CRN ULIMIT, DMA HOPLIMIT, TIM SLEW). -/
def zeroLoads (a : Nat) (v : BitVec 32) : BitVec 32 :=
  if a = Reg.CRN_CTRL && fld v 0 8 = 0 then setFld v 0 8 16
  else if (List.range 32).any (fun c => a = Reg.DMA_CFG c) && fld v 8 20 = 0 then setFld v 8 20 65536
  else if a = Reg.TIM_CTRL && fld v 16 8 = 0 then setFld v 16 8 50
  else v

/-- R513: one entry of a REGS record (log entry 40 for registers whose write acts). -/
def loadEntry (l : LoadSt) (unit off pad : Nat) (v : BitVec 32) : Option LoadSt :=
  let a := Config.controlBase + unit * 0x10000 + off
  let scan := a = Reg.POS_CFG 0 || a = Reg.POS_AMP 0 || a = Reg.POS_QERR 0 || a = Reg.POS_SSI 0
  if pad != 0 || off % 4 != 0 || scan then none
  else match findReg unit a with
    | none => none
    | some d =>
      if d.access = .ro || d.access = .wo || d.access = .rc || v &&& ~~~d.mask != 0 then none
      else
        let v := zeroLoads a v
        if !valueFits a v then none
        else if unit = 3 && Reg.FCO_SEV 0 ≤ a && a < Reg.FCO_SEV 1024 then
          let n := (a - Reg.FCO_SEV 0) / 4
          if !faultSources.contains n then some l
          else some { l with st := l.st.loadReg true a (setBit v 16 (l.st.rbit a 16)), written := a :: l.written }
        else if d.access = .w1c then some l
        else some { l with st := l.st.loadReg (d.access = .cfg) a v, written := a :: l.written }

def loadEntries : Nat → LoadSt → Nat → Bytes → Option LoadSt
  | 0, l, _, _ => some l
  | n + 1, l, u, bs =>
    match loadEntry l u (fieldLE bs 0 2) (fieldLE bs 2 2) (BitVec.ofNat 32 (fieldLE bs 4 4)) with
    | none => none
    | some l => loadEntries n l u (bs.drop 8)

namespace State

/-- First byte of the image area (R511). -/
def imageArea (s : State) : Nat := Config.dramBytes s.die.variant - 0x10000000

/-! ## One loader per record type: none where the body breaks its table -/

/-- R513: DATA. -/
def loadData (s : State) (b : Bytes) : Option State :=
  let a := fieldLE b 0 8
  let bs := b.drop 8
  if (Config.seqPool + 0x25000 ≤ a && a + bs.length ≤ Config.poolEnd) || a + bs.length ≤ s.imageArea then some (s.wr a bs) else none

/-- R308, R330: CONTEXT. -/
def loadContext (s : State) (x : Nat) (b : Bytes) : Option State :=
  let slot := fieldLE b 1 1
  if 7 < fieldLE b 0 1 || (15 < slot && slot != 255) || fieldLE b 2 2 != 0 || Config.poolEnd - Config.seqPool < fieldLE b 32 4 + fieldLE b 36 4
  then none
  else
    let s := s.updCtx x (fun k =>
      { k with prio := fieldLE b 0 1, keyslot := slot, wdog := fieldLE b 4 4, xroot := BitVec.ofNat 64 (fieldLE b 8 8),
               dmamask := BitVec.ofNat 32 (fieldLE b 16 4), quota := fieldLE b 20 4, start := BitVec.ofNat 64 (fieldLE b 24 8) })
    some (s.updStream x (fun t => { t with syncOff := fieldLE b 32 4, syncLen := fieldLE b 36 4 }))

/-- R61, R62: STREAM. -/
def loadStream (s : State) (x : Nat) (b : Bytes) : Option State :=
  let credits := fieldLE b 2 1
  let ratio := fieldLE b 3 1
  let plain := fieldLE b 8 4
  if fieldLE b 0 1 != x || 3 < fieldLE b 1 1 || credits = 0 || 64 < credits || 64 < ratio || 7 < fieldLE b 4 1 || 1 < fieldLE b 5 1 ||
      fieldLE b 6 2 != 0 || plain < 64 || 65535 < plain || fieldLE b 12 4 != 0 then none
  else
    let d : StreamDesc := { link := fieldLE b 1 1, credits := credits, maxRatio := if ratio = 0 then 16 else ratio,
                            retries := fieldLE b 4 1, control := fieldLE b 5 1 = 1, plainMax := plain }
    some (s.updStream x (fun t => { t with desc := some d }))

/-- R31, R32, R35: GRID. -/
def loadGrid (s : State) (b : Bytes) : Option State :=
  let lo := fieldLE b 12 2
  let hi := fieldLE b 16 4
  let rows := (List.range 16).map (fun r => fieldLEs b (24 + 2 * r) 2)
  let map : BitVec 64 := BitVec.ofNat 64 (fieldLE b 56 8)
  if fieldLE b 8 4 < 0x10000 || lo < 3125 || fieldLE b 14 2 != 0 || hi ≤ lo || 200000000 < hi || fieldLE b 20 4 != 0 ||
      rows.any (fun z => decide (z < -2048) || decide (2047 < z)) || (List.range 16).any (fun r => bit map (4 * r + 3)) then none
  else
    let g : Grid := { origin := fieldLEs b 0 8, pitch := fieldLE b 8 4, minInterval := lo, maxInterval := hi, rowline := rows }
    some { s with dose := { s.dose with grid := g, rowmap0 := map } }

/-- R36, R37: ROWGROUP. -/
def loadGroup (s : State) (g : Nat) (b : Bytes) : Option State :=
  let lmin := fieldLEs b 6 2
  let lmax := fieldLEs b 8 2
  let win := fieldLE b 10 2
  if fieldLE b 0 1 != g || 2 < fieldLE b 1 1 || 3 < fieldLE b 2 1 || fieldLE b 3 1 != 0 || fieldLE b 4 2 = 0 || decide (lmax < lmin) ||
      win = 0 || 1024 < win || fieldLE b 12 4 != 0 || fieldLE b 22 2 != 0 || fieldLE b 30 2 != 0 then none
  else
    let v : RowGroup := { kind := fieldLE b 1 1, bank := fieldLE b 2 1, material := fieldLE b 4 2, levelMin := lmin, levelMax := lmax,
                          winLines := win, ceilLine := fieldLE b 16 6, ceilWin := fieldLE b 24 6 }
    some { s with dose := { s.dose with groups := upd s.dose.groups g (fun _ => v),
                                        bankSel0 := upd s.dose.bankSel0 g (fun _ => fieldLE b 2 1) } }

/-- R132: HALFTONE. -/
def loadHalftone (s : State) (g : Nat) (b : Bytes) : Option State :=
  if 2 < fieldLE b 0 1 || 16 < fieldLE b 1 1 || 8 < fieldLE b 2 1 || 15 < fieldLE b 3 1 || 15 < fieldLE b 4 1 || fieldLE b 5 3 != 0 then none
  else
    let h : Halftone := { dither := fieldLE b 0 1, gain := fieldLE b 1 1, eshift := fieldLE b 2 1, phaseA := fieldLE b 3 1,
                          phaseB := fieldLE b 4 1 }
    some { s with dose := { s.dose with half0 := upd s.dose.half0 g (fun _ => h) } }

/-- R184, R211: the entries of ACTTABLE from index `i` on, and how many R211 rewrote. -/
def loadActs : Nat → State → Nat → Nat → Bytes → State × Nat
  | 0, s, n, _, _ => (s, n)
  | k + 1, s, n, i, b =>
    let e := slicePad b 0 16
    if entryValid i e then loadActs k (s.wr (Config.actPool + 16 * i) e) n (i + 1) (b.drop 16)
    else loadActs k (s.wr (Config.actPool + 16 * i) (entryMasked e)) (n + 1) (i + 1) (b.drop 16)

/-- R513: MEMPLAN. -/
def loadPlan (s : State) (b : Bytes) : Option State :=
  let p : MemPlan := { streamBase := fieldLE b 0 8, streamLen := fieldLE b 8 8, spillBase := fieldLE b 16 8, spillLen := fieldLE b 24 8 }
  if [p.streamBase, p.streamLen, p.spillBase, p.spillLen].any (fun v => v % 0x100000 != 0) || s.imageArea < p.streamBase + p.streamLen ||
      s.imageArea < p.spillBase + p.spillLen || rangesMeet p.streamBase p.streamLen p.spillBase p.spillLen then none
  else some { s with boot := { s.boot with plan := p } }

/-- R251, R512: SCANPOS. -/
def loadScan (s : State) (b : Bytes) : Option State :=
  let ws := [(Reg.POS_CFG 0, fieldLE b 0 4), (Reg.POS_AMP 0, fieldLE b 4 4), (Reg.POS_QERR 0, fieldLE b 8 4), (Reg.POS_SSI 0, fieldLE b 12 4)]
  let bad := ws.any (fun w => match findReg 0x19 w.1 with
    | none => true
    | some d => BitVec.ofNat 32 w.2 &&& ~~~d.mask != 0)
  if bad then none else some (ws.foldl (fun s w => s.loadReg true w.1 (BitVec.ofNat 32 w.2)) s)

end State

/-- One table of BANK, WAVE or CURVE: the record names it in its body. -/
def loadTable (l : LoadSt) (typ : Nat) (b : Bytes) : Option LoadSt :=
  let d := l.st.dose
  let put := fun (k : Nat) (d : Dose) =>
    if l.seen.contains (typ, k) then none else some { l with st := { l.st with dose := d }, seen := (typ, k) :: l.seen }
  if typ = 0x07 then
    (parseBank b).bind (fun z => put (4 * z.1 + z.2.1) { d with banks := upd d.banks (4 * z.1 + z.2.1) (fun _ => z.2.2) })
  else if typ = 0x08 then (parseWave b).bind (fun w => put w.id { d with waves := putWave d.waves w })
  else if (b.drop 136).any (· != 0) then none
  else (parseCurve (b.take 136)).bind (fun c => put c.id { d with curves := putCurve d.curves c })

/-- R9, R513: a record that names actuators beyond the variant's columns counts as one for an absent unit. -/
def beyondReach (s : State) (r : LoadRec) : Bool :=
  r.typ = 0x0C && (List.range (fieldLE r.body 4 4)).any (fun k => s.barColumns ≤ (fieldLE r.body 0 4 + k) % 65536)

/-- R512, R513: the body of a record whose unit is present. -/
def loadBody (l : LoadSt) (r : LoadRec) : Option LoadSt :=
  let ok := fun (o : Option State) => o.map (fun s => { l with st := s })
  let b := r.body
  if r.typ = 0x01 then loadEntries (b.length / 8) l r.unit b
  else if r.typ = 0x02 then ok (l.st.loadData b)
  else if r.typ = 0x03 then ok (l.st.loadContext r.inst b)
  else if r.typ = 0x04 then ok (l.st.loadStream r.inst b)
  else if r.typ = 0x05 then ok (l.st.loadGrid b)
  else if r.typ = 0x06 then ok (l.st.loadGroup r.inst b)
  else if r.typ = 0x0A then
    ok ((parseMask b).map (fun m => { l.st with dose := { l.st.dose with masks := upd l.st.dose.masks r.inst (fun _ => m) } }))
  else if r.typ = 0x0B then ok (l.st.loadHalftone r.inst b)
  else if r.typ = 0x0C then
    let first := fieldLE b 0 4
    let n := fieldLE b 4 4
    if 0x100000 < first + n then none
    else
      let (s, bad) := l.st.loadActs n 0 first (b.drop 8)
      some { l with st := s, fixed := l.fixed + bad }
  else if r.typ = 0x0D then some l
  else if r.typ = 0x0E then ok (l.st.loadPlan b)
  else if r.typ = 0x0F then ok (l.st.loadScan b)
  else loadTable l r.typ b

/-- R9, R512, R513: one record. -/
def loadOne (l : LoadSt) (r : LoadRec) : Option LoadSt :=
  let mine := r.typ != 0x0D || fieldLE r.body 0 8 = l.st.die.devid.toNat
  if !recFits r then none
  else if (r.typ = 0x01 && !l.st.unitPresent r.unit) || beyondReach l.st r then
    if bit (BitVec.ofNat 8 r.flags) 0 then none else some { l with skipped := l.skipped + 1 }
  else if !mine then some l
  else if !(r.typ ≤ 0x02 || (0x07 ≤ r.typ && r.typ ≤ 0x09)) && l.seen.contains (r.typ, r.inst) then none
  else
    (loadBody l r).map (fun m =>
      let m := { m with loaded := m.loaded + 1 }
      if r.typ ≤ 0x02 || (0x07 ≤ r.typ && r.typ ≤ 0x09) then m else { m with seen := (r.typ, r.inst) :: m.seen })

/-- The records in image order; the first that offends stops the load. -/
def loadAll : LoadSt → List LoadRec → Except (LoadRec × LoadSt) LoadSt
  | l, [] => .ok l
  | l, r :: rs => match loadOne l r with
    | none => .error (r, l)
    | some l => loadAll l rs

/-! ## The check pass (R513) -/

/-- One rule of the check pass: whether it holds, the TYPE it blames, and the records of that TYPE that offend. -/
structure LoadCheck where
  holds : Bool
  typ : Nat
  hits : LoadRec → Bool

/-- A REGS record that writes one of some registers. -/
def writesAny (as : List Nat) (r : LoadRec) : Bool :=
  (List.range (r.body.length / 8)).any (fun k => as.contains (Config.controlBase + r.unit * 0x10000 + fieldLE r.body (8 * k) 2))

/-- A rule over registers. -/
def regsCheck (holds : Bool) (as : List Nat) : LoadCheck := ⟨holds, 0x01, writesAny as⟩

/-- The rules over the records of tables, contexts and streams. -/
def tableChecks (l : LoadSt) : List LoadCheck :=
  let s := l.st
  let has := fun (t i : Nat) => l.seen.contains (t, i)
  let all := fun (_ : LoadRec) => true
  let no := fun (_ : LoadRec) => false
  let sup := l.written.contains Reg.SEQ_CTRL
  let many := decide (1 < ((List.range 64).filter (fun x => ((s.stream x).desc.map StreamDesc.control).getD false)).length)
  [⟨has 0x05 0, 0x05, no⟩, ⟨has 0x0E 0, 0x0E, no⟩, ⟨has 0x0F 0, 0x0F, no⟩,
   ⟨(List.range 16).all (fun r => has 0x06 (s.startGroup r)), 0x05, all⟩,
   if sup then regsCheck (has 0x03 s.super) [Reg.SEQ_CTRL] else ⟨has 0x03 s.super, 0x03, no⟩,
   ⟨s.gridRule, 0x05, all⟩,
   ⟨s.bankRule, 0x06, fun r => s.hasRows r.inst &&
     (nth s.dose.banks (4 * r.inst + (s.startRow r.inst).bank) DoseBank.empty).highest = 0⟩,
   ⟨s.banksRule, 0x07, fun r => !bankValid s.dose.waves (s.startRow (fieldLE r.body 1 1)).kind
     (nth s.dose.banks (4 * fieldLE r.body 1 1 + fieldLE r.body 2 1) DoseBank.empty)⟩,
   ⟨s.wavesRule, 0x08, fun r => s.dose.waves.any (fun w => w.id = fieldLE r.body 0 1 &&
     !waveValid s.dose.grid.minInterval s.dose.groups s.dose.banks w)⟩,
   ⟨s.streamsRule, 0x04, fun r => r.inst = s.super || (many && ((s.stream r.inst).desc.map StreamDesc.control).getD false)⟩,
   ⟨s.regionRule, 0x0E, all⟩,
   if sup then regsCheck s.superRule [Reg.SEQ_CTRL] else ⟨s.superRule, 0x03, fun r => r.inst = s.super⟩,
   ⟨s.rootRule, 0x03, fun r => !s.rootOk (s.ctx r.inst)⟩,
   ⟨s.ownerRule, 0x03, fun r => s.seq.ctxs.zipIdx.any (fun (z : Ctx × Nat) => z.2 != r.inst &&
     (z.1.dmamask &&& (s.ctx r.inst).dmamask != 0 || (z.1.keyslot = (s.ctx r.inst).keyslot && z.1.keyslot < 16)))⟩,
   ⟨s.posRule [], 0x0F, all⟩]

/-- The rules over registers that no rule of a single value judges. -/
def registerChecks (l : LoadSt) : List LoadCheck :=
  let s := l.st
  let n := List.range
  [regsCheck s.sourceRule (faultSources.map Reg.FCO_SEV), regsCheck (s.nmiRule l.written) [Reg.SEQ_NVEC_LO, Reg.SEQ_NVEC_HI],
   regsCheck s.shotsRule [Reg.ACT_SHOTS],
   regsCheck s.testRule ((n 8).map Reg.ACT_TESTWAVE ++ (n 16).map Reg.ACT_PARTNER),
   regsCheck s.linksRule (Reg.HLK_CTRL :: (n 16).map Reg.HLK_LINK),
   regsCheck s.strobeRule (Reg.STB_CTRL :: (n 16).map Reg.STB_ROW), regsCheck s.scaleRule [Reg.PLN_SCALE],
   regsCheck (s.posRule l.written) ((n 4).flatMap (fun u => [Reg.POS_CFG u, Reg.POS_AMP u, Reg.POS_QERR u, Reg.POS_SSI u])),
   regsCheck (s.switchRule l.written) ((n 4).map Reg.PLN_HOME ++ (n 8).map Reg.SWI_CFG),
   regsCheck s.cascadeRule [Reg.CSC_CTRL, Reg.CSC_CARRIAGE],
   regsCheck s.cameraRule ((n 2).flatMap (fun p => [Reg.CAM_CFG p, Reg.CAM_SIZE p, Reg.CAM_IMG_LO p, Reg.CAM_IMG_HI p]))]

/-- The check pass, in the order in which BCL_BADREC reports (log entry 41). -/
def loadChecks (l : LoadSt) : List LoadCheck := tableChecks l ++ registerChecks l

/-- INDEX and TYPE of the offending record: the first one, or of REGS records the last one that writes a register the rule
reads, since a later entry replaces an earlier one; a record that is missing counts behind the last (log entry 41). -/
def LoadCheck.record (c : LoadCheck) (rs : List LoadRec) : Nat × Nat :=
  let bad := rs.filter (fun r => r.typ = c.typ && c.hits r)
  match if c.typ = 0x01 then bad.getLast? else bad.head? with
  | some r => (r.idx, r.typ)
  | none => (rs.length, c.typ)

namespace State

/-! ## After the check pass -/

/-- R490: ceil(MAX_INTERVAL × 65,536 × 9 ÷ (PITCH × 8)). -/
def edgeMax (s : State) : Nat :=
  let d := s.dose.grid.pitch * 8
  (s.dose.grid.maxInterval * 65536 * 9 + d - 1) / d

/-- R513: the buffers and header slots of the streams, in ascending context order. -/
def layStreams (s : State) : State :=
  ((List.range 64).foldl (fun (z : State × Nat) x => match (z.1.stream x).desc with
    | none => z
    | some d => ((z.1.setReg (Reg.JOB_BUFBASE_LO x) (BitVec.ofNat 32 z.2)).setReg (Reg.JOB_BUFBASE_HI x) (BitVec.ofNat 32 (z.2 >>> 32)),
                 z.2 + d.credits * 0x1000000 + 0x10000)) (s, s.boot.plan.streamBase)).1

/-- R457: SOURCE PTP on a variant without ETH loads as FREE. -/
def freeSource (s : State) : State :=
  if s.rfld Reg.TIM_CTRL 0 2 = 1 && !s.unitPresent 0x24 then
    (s.loadReg true Reg.TIM_CTRL (setFld (s.reg Reg.TIM_CTRL) 0 2 0)).bootFlag 3
  else s

/-- R9, R513: BCL_RECS and SKIPPED, of a load that ends or fails. -/
def tally (s : State) (l : LoadSt) : State :=
  let s := s.setReg Reg.BCL_RECS (setFld (setFld 0 0 16 (min l.loaded 65535)) 16 16 (min l.skipped 65535))
  if l.skipped = 0 then s else s.bootFlag 0

/-- What the loader computes and flags once every check has passed. -/
def loadEnds (l : LoadSt) : State :=
  let s := l.st
  let s := ([Reg.CRN_CTRL, Reg.TIM_CTRL] ++ (List.range 32).map Reg.DMA_CFG).foldl
    (fun s a => if zeroLoads a (s.reg a) = s.reg a then s else s.loadReg true a (zeroLoads a (s.reg a))) s
  let s := if l.written.contains Reg.LNP_CTRL then s else s.setRfld Reg.LNP_CTRL 30 1 (if s.rbit Reg.TWN_CTRL 0 then 0 else 1)
  let s := s.freeSource.layStreams
  let s := (s.setReg Reg.SAF_EDGEMAX (BitVec.ofNat 32 s.edgeMax)).tally l
  let s := if l.fixed = 0 then s else (s.setReg Reg.ACT_LOADFIX (BitVec.ofNat 32 l.fixed)).bootFlag 4
  let vt := (List.range 16).map (fun r => sInt 16 (s.rfld (Reg.STB_VTRIM r) 0 16))
  ({ s with stb := { s.stb with vtrim := vt }, boot := { s.boot with image := [] } }).enterPhase 8

/-- R513, R514: the load fails at a record, from the state before it; the other slot is tried when it passed causes 1 to 6. -/
def loadFails (s : State) (l : LoadSt) (idx typ : Nat) : State :=
  let s := (s.tally l).setReg Reg.BCL_BADREC (setFld (setFld 0 0 16 (min idx 65535)) 16 16 typ)
  let slot := s.boot.slot
  let s := s.setSlotCause slot 8
  let other := s.boot.usable / 2 ^ (1 - slot) % 2 = 1
  let s := { s with boot := { s.boot with image := [], ratchet := false } }
  if other then (s.bootFlag 2).enterPhase 5 else s.phaseFails 8

/-- R513: LOAD.  Records that do not fill the space up to the signature, or more than NREC, break R512. -/
def load (s : State) : State :=
  let img := s.boot.image
  let raw := imageRecords img
  let rs := raw.map (fun r => loadRec r.1 r.2)
  let off := fieldLE img 28 4
  let used := (raw.map (fun r => r.2.length)).sum
  let start : LoadSt := { st := s, loaded := 0, skipped := 0, fixed := 0, seen := [], written := [] }
  match loadAll start rs with
  | .error (r, l) => s.loadFails l r.idx r.typ
  | .ok l =>
    if rs.length != fieldLE img 24 4 || off + used + 64 != img.length then s.loadFails l rs.length (fieldLE img (off + used) 2)
    else match (loadChecks l).find? (fun c => !c.holds) with
      | some c => let (i, t) := c.record rs; s.loadFails l i t
      | none => loadEnds l

end State

/-- R513, R514. -/
def execLoadDone (s : State) : Out :=
  if s.boot.phase = 7 && !s.boot.failed then done s.load else .next s

end Sys2Proof.Machine
end

