-- ==== Sys2Proof/Machine/Observe.lean ====
section
/-! DEFINITION. The OBS port and the trace lane (R521 to R530). -/

namespace Sys2Proof.Machine

namespace ObsStatus

def OK : Nat := 0
def DENIED : Nat := 2
def ABSENT : Nat := 3
def BADCMD : Nat := 4
def NOT_READY : Nat := 5
def BUSERR : Nat := 6

end ObsStatus

namespace State

/-! ## Answers (R521, R523) -/

/-- R521: the marker, STATUS, the data of an OK answer, and the CRC-8 over STATUS and data; the transaction stays open until
OBS_CS_N rises. -/
def answer (s : State) (status : Nat) (data : Bytes) : State :=
  let body := BitVec.ofNat 8 status :: (if status = ObsStatus.OK then data else [])
  let s := { s with obs := { s.obs with inTransaction := true } }
  let s := s.count Reg.OBS_CMDS 1
  let s := if status = ObsStatus.DENIED then s.count Reg.OBS_DENIED 1 else s
  s.emit (.obs (0x5A :: body ++ [crc8 body]))

/-- The port answers from the end of RESET (R524). -/
def whenPort (s : State) (o : State → State) : Out := if s.boot.phase = 0 then .next s else done (o s)

/-- R524: CLOCKS has ended. -/
def clocksOver (s : State) : Bool := decide (2 ≤ s.boot.phase)

/-- Words of registers. -/
def regBytes (s : State) (l : List Nat) : Bytes := l.flatMap (fun a => leBytes 4 (s.regView a).toNat)

/-! ## READ (R524, R525) -/

/-- The scree spill area or a camera's image ring (R525). -/
def portDram (s : State) (a : Nat) : Bool :=
  (decide (s.boot.plan.spillBase ≤ a) && decide (a < s.boot.plan.spillBase + s.boot.plan.spillLen)) ||
  (s.unitPresent 0x28 && (List.range 2).any (fun p =>
    let base := (s.reg (Reg.CAM_IMG_LO p)).toNat + 2 ^ 32 * s.rfld (Reg.CAM_IMG_HI p) 0 8
    let len := s.rfld (Reg.CAM_IMG_HI p) 8 8 * s.rfld (Reg.CAM_IMG_HI p) 16 8 * 0x100000
    decide (base ≤ a) && decide (a < base + len)))

/-- R523 to R525: what the word at `a` answers before it is read. -/
def portStatus (s : State) (a : Nat) : Nat :=
  if inControl a then (if s.unitPresent ((a - Config.controlBase) / 0x10000) then ObsStatus.OK else ObsStatus.ABSENT)
  else
    match poolOf a with
    | some 1 => if s.boot.phase ≤ 3 then ObsStatus.NOT_READY else ObsStatus.OK
    | some 4 => if a < Config.seqPool + 0x25000 then ObsStatus.OK else ObsStatus.DENIED
    | some _ => ObsStatus.DENIED
    | none =>
      if !s.inDram a then ObsStatus.ABSENT
      else if s.boot.phase ≤ 7 then ObsStatus.NOT_READY
      else if s.portDram a then ObsStatus.OK
      else ObsStatus.DENIED

/-- R525: the port reads a register: nothing is cleared, and captures are the port's own. -/
def portReg (s : State) (a : Nat) : State × BitVec 32 :=
  let t := { s with captures := s.obs.captures }
  let v := t.regView a
  ({ s with obs := { s.obs with captures := (t.capture a).captures } }, v)

/-- R523: the words of a READ, or the STATUS of the first word that fails. -/
def portWords : Nat → State → Nat → State × Except Nat Bytes
  | 0, s, _ => (s, .ok [])
  | n + 1, s, a =>
    let st := s.portStatus a
    if st != ObsStatus.OK then (s, .error st)
    else if !inControl a && (List.range 4).any (fun i => s.badAt (a + i)) then (s, .error ObsStatus.BUSERR)
    else
      let (s, v) := if inControl a then s.portReg a else (s, BitVec.ofNat 32 (s.rdLE a 4))
      match portWords n s (a + 4) with
      | (s, .error e) => (s, .error e)
      | (s, .ok bs) => (s, .ok (leBytes 4 v.toNat ++ bs))

/-- R522 to R525. -/
def portRead (s : State) (addr words : Nat) : State :=
  if addr % 4 != 0 || 2 ^ 40 ≤ addr || words = 0 || 256 < words then s.answer ObsStatus.BADCMD []
  else if !s.clocksOver then s.answer ObsStatus.NOT_READY []
  else
    match portWords words s addr with
    | (s, .error e) => s.answer e []
    | (s, .ok bs) => s.answer ObsStatus.OK bs

/-- R522, R524. -/
def portRetain (s : State) (off words : Nat) : State :=
  if off % 4 != 0 || words = 0 || 64 < words || 256 < off + 4 * words then s.answer ObsStatus.BADCMD []
  else if !s.clocksOver then s.answer ObsStatus.NOT_READY []
  else s.answer ObsStatus.OK (slicePad s.island off (4 * words))

/-- R522: the 64 counters and the timebase. -/
def portSnap (s : State) : State :=
  if !s.clocksOver then s.answer ObsStatus.NOT_READY []
  else s.answer ObsStatus.OK (((List.range 64).flatMap (fun i => leBytes 8 (nth s.obs.counts i 0).toNat)) ++ leBytes 8 s.now)

/-- R527. -/
def portWriteTry (s : State) : State :=
  ((s.count Reg.OBS_WRTRIES 1).event Reg.OBS_EVENT 0).answer ObsStatus.BADCMD []

/-! ## The trace lane (R529, R530) -/

/-- R529: a record leaves with its SEQ. -/
def sendRecord (s : State) (r : Bytes) : State :=
  let q := s.obs.traceSeq
  let s := { s with obs := { s.obs with traceSeq := (q + 1) % 65536 } }
  let r := r.take 2 ++ leBytes 2 q ++ r.drop 4
  s.emit (.trace (r ++ leBytes 4 (crc32c r).toNat))

/-- R530: the buffer has room: a LOST record with the count of dropped records goes first, then what waits. -/
def traceDrains (s : State) : State :=
  let lost := s.obs.lost
  let waits := s.obs.buffer
  let s := { s with obs := { s.obs with lost := 0, buffer := [] } }
  let s := if lost = 0 then s else s.sendRecord ([8, 8, 0, 0] ++ leBytes 8 s.now ++ leBytes 4 lost ++ [0, 0, 0, 0])
  waits.foldl sendRecord s

end State

/-! ## Commands -/

/-- R522. -/
def execObsIdent (s : State) : Out :=
  s.whenPort (fun s => s.answer ObsStatus.OK (s.regBytes [Reg.IDC_PART, Reg.IDC_UNITS_LO, Reg.IDC_UNITS_HI, Reg.IDC_CAP]))

/-- R522. -/
def execObsBoot (s : State) : Out :=
  s.whenPort (fun s => s.answer ObsStatus.OK (s.regBytes [Reg.BCL_PHASE, Reg.BCL_STATUS, Reg.BCL_SLOTS, Reg.CRU_STATE]))

/-- R525. -/
def execObsRead (addr words : Nat) (s : State) : Out := s.whenPort (fun s => s.portRead addr words)

/-- R522. -/
def execObsRetain (off words : Nat) (s : State) : Out := s.whenPort (fun s => s.portRetain off words)

/-- R522. -/
def execObsSnap (s : State) : Out := s.whenPort (fun s => s.portSnap)

/-- R527: a CMD with bit 7 set. -/
def execObsWriteTry (cmd : Byte) (s : State) : Out := s.whenPort (fun s => if bit cmd 7 then s.portWriteTry else s)

/-- R521: OBS_CS_N rises: the transaction is over, and nothing else happens. -/
def execObsCsRise (s : State) : Out := .next { s with obs := { s.obs with inTransaction := false } }

/-- R530. -/
def execTraceLostSend (s : State) : Out := s.whenPort (fun s => s.traceDrains)

/-- R523: a CMD that is not listed and has bit 7 clear. -/
def execObsBadcmd (cmd : Byte) (s : State) : Out :=
  s.whenPort (fun s => if bit cmd 7 || (decide (1 ≤ cmd.toNat) && decide (cmd.toNat ≤ 5)) then s else s.answer ObsStatus.BADCMD [])

end Sys2Proof.Machine
end

