-- ==== Sys2Proof/Machine/Sched.lean ====
section
/-! DEFINITION. The scheduler's rows (R329, R334 to R336, R351 to R356): what happens to contexts and pairs beside their
instructions. -/

namespace Sys2Proof.Machine

/-- R334. -/
def execDispatch (s : State) : Out := whenClocked s (fun s => s.dispatchOne)

/-- R335. -/
def execQuantumExpiry (pair : Nat) (s : State) : Out :=
  whenClocked s (fun s =>
    let c := ((s.seq.pairs[pair]?).map Pair.running).getD 0
    if c = 0 then s else s.yieldCtx c)

/-- R336: when no pair is free and a READY context has a priority above the lowest running one. -/
def execPreempt (s : State) : Out :=
  whenClocked s (fun s =>
    if s.seq.pairs.any (fun p => p.inService && p.running = 0) then s
    else
      match s.preemptVictim, s.nextReady with
      | some v, some c =>
        if (s.ctx v).prio < (s.ctx c).prio then (s.switchOut v).count Reg.SEQ_PREEMPTS 1 else s
      | _, _ => s)

/-- R351: at the next boundary of the running supervisor, unless INNMI is set. -/
def execNmiTaken (s : State) : Out :=
  whenClocked s (fun s =>
    let c := s.super
    let k := s.ctx c
    if s.seq.nmi.isSome && k.rstate = 2 && !k.innmi then
      let vec := BitVec.ofNat 64 ((s.reg Reg.SEQ_NVEC_LO).toNat + 2 ^ 32 * (s.reg Reg.SEQ_NVEC_HI).toNat)
      let s := s.updCtx c (fun k =>
        { k with npc := k.pc, nstat := BitVec.ofNat 16 ((Ctx.flags k).toNat + 256 * k.beat), innmi := true, pc := vec,
                 beat := 0 })
      ({ s with seq := { s.seq with nmi := none } }).count Reg.SEQ_TRAPS 1
    else s)

/-- R352: the timebase reaches a non-zero TIMER. -/
def execTimerExpiry (c t : Nat) (s : State) : Out :=
  whenClocked s (fun s =>
    let s := s.at_ t
    let k := s.ctx c
    if k.timer != 0 && k.timer.toNat ≤ s.now then (s.updCtx c (fun k => { k with timer := 0 })).raiseEvent c 4 else s)

/-- R354: the watchdog of a READY or RUNNING context expires and is reloaded. -/
def execContextWatchdog (c : Nat) (s : State) : Out :=
  whenClocked s (fun s =>
    let k := s.ctx c
    if c != 0 && k.wdog != 0 && (k.rstate = 1 || k.rstate = 2) then
      (s.trap c Cause.WATCHDOG 0).updCtx c (fun k => { k with wdLeft := k.wdog })
    else s)

/-- R355. -/
def execSupWatchdog (s : State) : Out :=
  whenClocked s (fun s => (s.event Reg.SEQ_EVENT 2).raiseFor Src.SEQ_SUP_WDOG s.super)

/-- R329: the pair leaves service until reset; its context returns to READY with its last completed state. -/
def execLockstepFail (pair : Nat) (s : State) : Out :=
  whenClocked s (fun s => match s.seq.pairs[pair]? with
    | none => s
    | some p =>
      if bit s.seq.retired pair then s
      else ((s.pairLeaves pair).event Reg.SEQ_EVENT 0).raiseFor Src.SEQ_LOCKSTEP p.running |>.lastPair)

/-- R340: the access of a running context has not completed after 10 µs; which address it named the command does not
say, and it is a free value; so is whether a store has reached its target (log entry 17). -/
def execAccessTimeout (c : Nat) (s : State) : Out :=
  whenClocked s (fun s =>
    if c != 0 && (s.ctx c).rstate = 2 then
      let (a, s) := s.draw
      let (b, s) := s.draw
      let s := if bit b 0 then s.lateStore c else s
      s.trap c Cause.BUSERR a
    else s)

/-- R342: a word whose op is not listed. -/
def execIllegalInstruction (c : Nat) (word : BitVec 32) (s : State) : Out :=
  whenClocked s (fun s =>
    if c != 0 && (s.ctx c).rstate = 2 then s.trap c Cause.ILLEGAL (BitVec.ofNat 64 word.toNat) else s)

/-- R356 HALT. -/
def execCcmdHalt (x : Nat) (s : State) : Out := whenClocked s (fun s => s.ccmd x 1 0)

/-- R356 RESUME. -/
def execCcmdResume (x : Nat) (s : State) : Out := whenClocked s (fun s => s.ccmd x 2 0)

/-- R356 RESTART. -/
def execCcmdRestart (x : Nat) (s : State) : Out := whenClocked s (fun s => s.ccmd x 3 0)

/-- R356 PRIO. -/
def execCcmdPrio (x prio : Nat) (s : State) : Out := whenClocked s (fun s => s.ccmd x 4 prio)

end Sys2Proof.Machine
end

