-- ==== Sys2Proof/Machine/Ticks.lean ====
section
/-! DEFINITION. The servo tick (R252, R266, R268, R306, R319, R320, R459). -/

namespace Sys2Proof.Machine

namespace State

/-- R198: the carriage has left the station zone before the test's last window has closed. -/
def testPlace (s : State) : State :=
  match s.act.test, s.crn.lastPlan with
  | some _, some p =>
    let z := s.stationZone p.dir
    let x := s.posX 0
    if s.owns && s.act.phase = 2 && (decide (x < 256 * z.1) || decide (256 * z.2 + 255 < x)) then s.abortTest else s
  | _, _ => s

/-- R264: the edits written since the last tick. -/
def applyEdits (s : State) (l : List (SwathPlan × Bool)) : State := l.foldl (fun s r => s.applyEdit r.1 r.2) s

/-- R252, R316: the body of an AXIS frame: STATE is PLN_STATE in its low half. -/
def axisBody (s : State) : Bytes :=
  axesBody s.lastTick ((List.range 4).map s.plannedState) s.plnState

/-- What a servo tick does: trajectories advance, following errors are judged, set-points go out, and the owner's state is
mirrored and distributed. -/
def tickWork (s : State) : State :=
  let s := { s with mot := { s.mot with edits := [] } }.applyEdits s.mot.edits
  -- the index axis before the scan axis, whose run-in waits for it (R259)
  let s := if s.plans then [1, 0, 2, 3].foldl (fun s a => s.advanceAxis a) s else s
  let s := if s.plans then (s.followCheck 0).followCheck 1 else s
  let s := ((s.sendSetPoint 0).sendSetPoint 1).testPlace.handoverTick
  let s := s.mirror 8 s.axisBody
  (s.distribute 7 s.axisBody).distribute 0x0C (leBytes 8 s.lastTick)

/-- R459: servo tick k falls at the first PCLK at which the timebase is at least k servo periods. -/
def servoTick (s : State) : State :=
  let p := s.servoPeriod
  if s.now < s.clk.nextTick * p then s
  else { s with clk := { s.clk with nextTick := s.now / p + 1 } }.tickWork

end State

/-- R459. -/
def execServoTick (t : Nat) (s : State) : Out := whenReady s (fun s => (s.at_ t).servoTick)

end Sys2Proof.Machine
end

