-- ==== Sys2Proof/Machine/Dispatch.lean ====
section
/-! DEFINITION. One arm per command: what it does to everything but the queue. -/

namespace Sys2Proof.Machine

def exec (i : Instr) (s : State) : Host.Outcome State Fault Refusal :=
  match i with
  | .powerUp cold islandKept => Sys2Proof.Machine.execPowerUp cold islandKept s
  | .rstNLow => Sys2Proof.Machine.execRstNLow s
  | .modEnLow => Sys2Proof.Machine.execModEnLow s
  | .presentNRise => Sys2Proof.Machine.execPresentNRise s
  | .rpllLock => Sys2Proof.Machine.execRpllLock s
  | .rpllLockTimeout => Sys2Proof.Machine.execRpllLockTimeout s
  | .lbistDone failRidges failPairs otherFail => Sys2Proof.Machine.execLbistDone failRidges failPairs otherFail s
  | .mbistDone fails => Sys2Proof.Machine.execMbistDone fails s
  | .dramInitDone trainFail zeroFail => Sys2Proof.Machine.execDramInitDone trainFail zeroFail s
  | .imageVerified sfdp slotA slotB => Sys2Proof.Machine.execImageVerified sfdp slotA slotB s
  | .keysLoaded => Sys2Proof.Machine.execKeysLoaded s
  | .loadDone => Sys2Proof.Machine.execLoadDone s
  | .calDone m => Sys2Proof.Machine.execCalDone m s
  | .lanesDone => Sys2Proof.Machine.execLanesDone s
  | .lanesTimeout => Sys2Proof.Machine.execLanesTimeout s
  | .vmonEvent => Sys2Proof.Machine.execVmonEvent s
  | .clkMonEvent => Sys2Proof.Machine.execClkMonEvent s
  | .rpllUnlock => Sys2Proof.Machine.execRpllUnlock s
  | .dieHot temp => Sys2Proof.Machine.execDieHot temp s
  | .faultMessage src kind ctx detail => Sys2Proof.Machine.execFaultMessage src kind ctx detail s
  | .fcoErrclr v => Sys2Proof.Machine.execFcoErrclr v s
  | .fcoInject v => Sys2Proof.Machine.execFcoInject v s
  | .fcoLogTail v => Sys2Proof.Machine.execFcoLogTail v s
  | .interlockDemand pair chanB t => Sys2Proof.Machine.execInterlockDemand pair chanB t s
  | .interlockPermit pair chanB t => Sys2Proof.Machine.execInterlockPermit pair chanB t s
  | .discrepancy pair t => Sys2Proof.Machine.execDiscrepancy pair t s
  | .gateRb => Sys2Proof.Machine.execGateRb s
  | .safXchk => Sys2Proof.Machine.execSafXchk s
  | .safRearm v t => Sys2Proof.Machine.execSafRearm v t s
  | .bistSliceDone kind signatureMatches => Sys2Proof.Machine.execBistSliceDone kind signatureMatches s
  | .bistBudgetCut kind => Sys2Proof.Machine.execBistBudgetCut kind s
  | .jobDataFrame l h body good => Sys2Proof.Machine.execJobDataFrame l h body good s
  | .jobIdleAck l fack credit => Sys2Proof.Machine.execJobIdleAck l fack credit s
  | .jobRetxTimeout l => Sys2Proof.Machine.execJobRetxTimeout l s
  | .jobIdleDue l => Sys2Proof.Machine.execJobIdleDue l s
  | .jobLinkSilent l => Sys2Proof.Machine.execJobLinkSilent l s
  | .segment l msg => Sys2Proof.Machine.execSegment l msg s
  | .segmentStored x => Sys2Proof.Machine.execSegmentStored x s
  | .screeAck l seqUpto => Sys2Proof.Machine.execScreeAck l seqUpto s
  | .retry l x => Sys2Proof.Machine.execRetry l x s
  | .resume l x cairn segno => Sys2Proof.Machine.execResume l x cairn segno s
  | .abort l x => Sys2Proof.Machine.execAbort l x s
  | .closedStatusRepeat => Sys2Proof.Machine.execClosedStatusRepeat s
  | .jobTxq w off => Sys2Proof.Machine.execJobTxq w off s
  | .jobFree x buf => Sys2Proof.Machine.execJobFree x buf s
  | .jobHalt x => Sys2Proof.Machine.execJobHalt x s
  | .jobOpen x => Sys2Proof.Machine.execJobOpen x s
  | .jobClose x => Sys2Proof.Machine.execJobClose x s
  | .segmentAccept x p => Sys2Proof.Machine.execSegmentAccept x p s
  | .binding x => Sys2Proof.Machine.execBinding x s
  | .geomEnd x => Sys2Proof.Machine.execGeomEnd x s
  | .cairn x => Sys2Proof.Machine.execCairn x s
  | .cairnAck x => Sys2Proof.Machine.execCairnAck x s
  | .home x => Sys2Proof.Machine.execHome x s
  | .layerBegin x => Sys2Proof.Machine.execLayerBegin x s
  | .swath x => Sys2Proof.Machine.execSwath x s
  | .layerEnd x => Sys2Proof.Machine.execLayerEnd x s
  | .park x => Sys2Proof.Machine.execPark x s
  | .waitDirective x => Sys2Proof.Machine.execWaitDirective x s
  | .waitTimeout x t => Sys2Proof.Machine.execWaitTimeout x t s
  | .directiveStallRelease x => Sys2Proof.Machine.execDirectiveStallRelease x s
  | .bankLoad x => Sys2Proof.Machine.execBankLoad x s
  | .waveLoad x => Sys2Proof.Machine.execWaveLoad x s
  | .maskLoad x => Sys2Proof.Machine.execMaskLoad x s
  | .curveLoad x => Sys2Proof.Machine.execCurveLoad x s
  | .modeBankSel x => Sys2Proof.Machine.execModeBankSel x s
  | .modeRowmap x => Sys2Proof.Machine.execModeRowmap x s
  | .modeMaskSel x => Sys2Proof.Machine.execModeMaskSel x s
  | .modeHalftone x => Sys2Proof.Machine.execModeHalftone x s
  | .region x => Sys2Proof.Machine.execRegion x s
  | .rdgPost w v => Sys2Proof.Machine.execRdgPost w v s
  | .rdgRetry w x => Sys2Proof.Machine.execRdgRetry w x s
  | .rdgRetryAbandon w x => Sys2Proof.Machine.execRdgRetryAbandon w x s
  | .bandFetchDone ridge => Sys2Proof.Machine.execBandFetchDone ridge s
  | .slicePosted ridge => Sys2Proof.Machine.execSlicePosted ridge s
  | .haloValue ridge fromRight row => Sys2Proof.Machine.execHaloValue ridge fromRight row s
  | .transmitPoint x => Sys2Proof.Machine.execTransmitPoint x s
  | .lineTake => Sys2Proof.Machine.execLineTake s
  | .crnLwCtrl w x v => Sys2Proof.Machine.execCrnLwCtrl w x v s
  | .carriageInPlace t => Sys2Proof.Machine.execCarriageInPlace t s
  | .gateEdge row t => Sys2Proof.Machine.execGateEdge row t s
  | .testWindowsClosed t => Sys2Proof.Machine.execTestWindowsClosed t s
  | .holdTimeout => Sys2Proof.Machine.execHoldTimeout s
  | .actEditMask idx val => Sys2Proof.Machine.execActEditMask idx val s
  | .actEditUnmask idx val => Sys2Proof.Machine.execActEditUnmask idx val s
  | .actEditRevive idx val => Sys2Proof.Machine.execActEditRevive idx val s
  | .actEditDgain idx val => Sys2Proof.Machine.execActEditDgain idx val s
  | .actEditFdelay idx val => Sys2Proof.Machine.execActEditFdelay idx val s
  | .fireAck l h recs => Sys2Proof.Machine.execFireAck l h recs s
  | .fireAckTimeout l lseq => Sys2Proof.Machine.execFireAckTimeout l lseq s
  | .voidAck l h lseq voided fired => Sys2Proof.Machine.execVoidAck l h lseq voided fired s
  | .orderAck l h order result => Sys2Proof.Machine.execOrderAck l h order result s
  | .temp l h recs => Sys2Proof.Machine.execTemp l h recs s
  | .nozzleFault l h recs => Sys2Proof.Machine.execNozzleFault l h recs s
  | .driverFault l h code rowmask lseq => Sys2Proof.Machine.execDriverFault l h code rowmask lseq s
  | .testDone l h order shots => Sys2Proof.Machine.execTestDone l h order shots s
  | .decisionCrossing line t => Sys2Proof.Machine.execDecisionCrossing line t s
  | .strobeEdge row line t => Sys2Proof.Machine.execStrobeEdge row line t s
  | .skipWindowEnd t => Sys2Proof.Machine.execSkipWindowEnd t s
  | .servoTick t => Sys2Proof.Machine.execServoTick t s
  | .axpDriveFrame port frame => Sys2Proof.Machine.execAxpDriveFrame port frame s
  | .plnLimitWrite w axis which v => Sys2Proof.Machine.execPlnLimitWrite w axis which v s
  | .plnEdit w off => Sys2Proof.Machine.execPlnEdit w off s
  | .axisMoveDone axis t => Sys2Proof.Machine.execAxisMoveDone axis t s
  | .colStart t => Sys2Proof.Machine.execColStart t s
  | .firingSpanStart t => Sys2Proof.Machine.execFiringSpanStart t s
  | .quadEdge u a b t => Sys2Proof.Machine.execQuadEdge u a b t s
  | .amplitude u samples => Sys2Proof.Machine.execAmplitude u samples s
  | .ssiRead u raw lineHigh t => Sys2Proof.Machine.execSsiRead u raw lineHigh t s
  | .probeEdge u rising t => Sys2Proof.Machine.execProbeEdge u rising t s
  | .posCmpArm u hi t => Sys2Proof.Machine.execPosCmpArm u hi t s
  | .compareFire u t => Sys2Proof.Machine.execCompareFire u t s
  | .comparePulseEnd u t => Sys2Proof.Machine.execComparePulseEnd u t s
  | .stepEdge m dirHigh => Sys2Proof.Machine.execStepEdge m dirHigh s
  | .stall m load => Sys2Proof.Machine.execStall m load s
  | .stepperHoldCurrent m t => Sys2Proof.Machine.execStepperHoldCurrent m t s
  | .axisRecordWrite a t => Sys2Proof.Machine.execAxisRecordWrite a t s
  | .switchChange k level => Sys2Proof.Machine.execSwitchChange k level s
  | .switchChatter k transitions => Sys2Proof.Machine.execSwitchChatter k transitions s
  | .switchRecover k => Sys2Proof.Machine.execSwitchRecover k s
  | .tpeerSilent t => Sys2Proof.Machine.execTpeerSilent t s
  | .twinWaitExpiry => Sys2Proof.Machine.execTwinWaitExpiry s
  | .twinIdleAck tack => Sys2Proof.Machine.execTwinIdleAck tack s
  | .twinRetxTimeout => Sys2Proof.Machine.execTwinRetxTimeout s
  | .twinLinkLost => Sys2Proof.Machine.execTwinLinkLost s
  | .twinRole h role slotB tkn variant step compat => Sys2Proof.Machine.execTwinRole h role slotB tkn variant step compat s
  | .twinSegment h x link part parts segno data => Sys2Proof.Machine.execTwinSegment h x link part parts segno data s
  | .twinCrc h pos ridge epoch crc => Sys2Proof.Machine.execTwinCrc h pos ridge epoch crc s
  | .shadowValue ridge pos spare => Sys2Proof.Machine.execShadowValue ridge pos spare s
  | .twinOutcome h x kind code segno off => Sys2Proof.Machine.execTwinOutcome h x kind code segno off s
  | .twinTxrec h recs => Sys2Proof.Machine.execTwinTxrec h recs s
  | .twinScree h entries => Sys2Proof.Machine.execTwinScree h entries s
  | .twinActrec h r => Sys2Proof.Machine.execTwinActrec h r s
  | .twinAxis h tick axes plnState => Sys2Proof.Machine.execTwinAxis h tick axes plnState s
  | .twinLinkmsg h link msg => Sys2Proof.Machine.execTwinLinkmsg h link msg s
  | .twinTime h t1 t2 t3 t => Sys2Proof.Machine.execTwinTime h t1 t2 t3 t s
  | .twinTimeSend t => Sys2Proof.Machine.execTwinTimeSend t s
  | .twinWrite h addr v => Sys2Proof.Machine.execTwinWrite h addr v s
  | .twinCascade h typ frame => Sys2Proof.Machine.execTwinCascade h typ frame s
  | .twinSync h obj last delta off data => Sys2Proof.Machine.execTwinSync h obj last delta off data s
  | .twinTiebreak h pos ridge epoch kinds check => Sys2Proof.Machine.execTwinTiebreak h pos ridge epoch kinds check s
  | .tiebreakCheck pos ridge spare => Sys2Proof.Machine.execTiebreakCheck pos ridge spare s
  | .twinHandover h tick tkn => Sys2Proof.Machine.execTwinHandover h tick tkn s
  | .twnCmdRetire w => Sys2Proof.Machine.execTwnCmdRetire w s
  | .twnCmdHandover w => Sys2Proof.Machine.execTwnCmdHandover w s
  | .syncTimeout => Sys2Proof.Machine.execSyncTimeout s
  | .cscJoin h cpos tws variant axis compat => Sys2Proof.Machine.execCscJoin h cpos tws variant axis compat s
  | .cscAccept h cpos result => Sys2Proof.Machine.execCscAccept h cpos result s
  | .cscTime h t1 t2 t3 hopDelay t => Sys2Proof.Machine.execCscTime h t1 t2 t3 hopDelay t s
  | .cscPlan h p => Sys2Proof.Machine.execCscPlan h p s
  | .cscEdit h p => Sys2Proof.Machine.execCscEdit h p s
  | .cscMode h m ap cancel => Sys2Proof.Machine.execCscMode h m ap cancel s
  | .cscAxis h tick axes plnState => Sys2Proof.Machine.execCscAxis h tick axes plnState s
  | .cscCol h swtag event => Sys2Proof.Machine.execCscCol h swtag event s
  | .cscSwgate h layer swath => Sys2Proof.Machine.execCscSwgate h layer swath s
  | .cscState h bstate cause => Sys2Proof.Machine.execCscState h bstate cause s
  | .cscReport h kind code swath layer => Sys2Proof.Machine.execCscReport h kind code swath layer s
  | .cscHb h tick => Sys2Proof.Machine.execCscHb h tick s
  | .leadLost => Sys2Proof.Machine.execLeadLost s
  | .cscLost pos => Sys2Proof.Machine.execCscLost pos s
  | .joinRetry => Sys2Proof.Machine.execJoinRetry s
  | .dispatch => Sys2Proof.Machine.execDispatch s
  | .quantumExpiry pair => Sys2Proof.Machine.execQuantumExpiry pair s
  | .preempt => Sys2Proof.Machine.execPreempt s
  | .nmiTaken => Sys2Proof.Machine.execNmiTaken s
  | .timerExpiry c t => Sys2Proof.Machine.execTimerExpiry c t s
  | .contextWatchdog c => Sys2Proof.Machine.execContextWatchdog c s
  | .supWatchdog => Sys2Proof.Machine.execSupWatchdog s
  | .lockstepFail pair => Sys2Proof.Machine.execLockstepFail pair s
  | .accessTimeout c => Sys2Proof.Machine.execAccessTimeout c s
  | .ccmdHalt x => Sys2Proof.Machine.execCcmdHalt x s
  | .ccmdResume x => Sys2Proof.Machine.execCcmdResume x s
  | .ccmdRestart x => Sys2Proof.Machine.execCcmdRestart x s
  | .ccmdPrio x prio => Sys2Proof.Machine.execCcmdPrio x prio s
  | .add c rd ra rb => Sys2Proof.Machine.execAdd c rd ra rb s
  | .sub c rd ra rb => Sys2Proof.Machine.execSub c rd ra rb s
  | .and c rd ra rb => Sys2Proof.Machine.execAnd c rd ra rb s
  | .or c rd ra rb => Sys2Proof.Machine.execOr c rd ra rb s
  | .xor c rd ra rb => Sys2Proof.Machine.execXor c rd ra rb s
  | .shl c rd ra rb => Sys2Proof.Machine.execShl c rd ra rb s
  | .shr c rd ra rb => Sys2Proof.Machine.execShr c rd ra rb s
  | .sar c rd ra rb => Sys2Proof.Machine.execSar c rd ra rb s
  | .mul c rd ra rb => Sys2Proof.Machine.execMul c rd ra rb s
  | .mulhu c rd ra rb => Sys2Proof.Machine.execMulhu c rd ra rb s
  | .mulhs c rd ra rb => Sys2Proof.Machine.execMulhs c rd ra rb s
  | .divu c rd ra rb => Sys2Proof.Machine.execDivu c rd ra rb s
  | .divs c rd ra rb => Sys2Proof.Machine.execDivs c rd ra rb s
  | .remu c rd ra rb => Sys2Proof.Machine.execRemu c rd ra rb s
  | .cmp c ra rb => Sys2Proof.Machine.execCmp c ra rb s
  | .tst c ra rb => Sys2Proof.Machine.execTst c ra rb s
  | .addi c rd ra imm => Sys2Proof.Machine.execAddi c rd ra imm s
  | .andi c rd ra imm => Sys2Proof.Machine.execAndi c rd ra imm s
  | .ori c rd ra imm => Sys2Proof.Machine.execOri c rd ra imm s
  | .xori c rd ra imm => Sys2Proof.Machine.execXori c rd ra imm s
  | .shli c rd ra amount => Sys2Proof.Machine.execShli c rd ra amount s
  | .shri c rd ra amount => Sys2Proof.Machine.execShri c rd ra amount s
  | .sari c rd ra amount => Sys2Proof.Machine.execSari c rd ra amount s
  | .cmpi c ra imm => Sys2Proof.Machine.execCmpi c ra imm s
  | .kset c rd imm => Sys2Proof.Machine.execKset c rd imm s
  | .kapp c rd imm => Sys2Proof.Machine.execKapp c rd imm s
  | .ldb c rd ra imm => Sys2Proof.Machine.execLdb c rd ra imm s
  | .ldh c rd ra imm => Sys2Proof.Machine.execLdh c rd ra imm s
  | .ldw c rd ra imm => Sys2Proof.Machine.execLdw c rd ra imm s
  | .ldd c rd ra imm => Sys2Proof.Machine.execLdd c rd ra imm s
  | .ldbs c rd ra imm => Sys2Proof.Machine.execLdbs c rd ra imm s
  | .ldhs c rd ra imm => Sys2Proof.Machine.execLdhs c rd ra imm s
  | .ldws c rd ra imm => Sys2Proof.Machine.execLdws c rd ra imm s
  | .stb c rd ra imm => Sys2Proof.Machine.execStb c rd ra imm s
  | .sth c rd ra imm => Sys2Proof.Machine.execSth c rd ra imm s
  | .stw c rd ra imm => Sys2Proof.Machine.execStw c rd ra imm s
  | .std c rd ra imm => Sys2Proof.Machine.execStd c rd ra imm s
  | .cas c rd ra rb => Sys2Proof.Machine.execCas c rd ra rb s
  | .ldm c rd ra rb => Sys2Proof.Machine.execLdm c rd ra rb s
  | .stm c rd ra rb => Sys2Proof.Machine.execStm c rd ra rb s
  | .bcopy c rd ra rb => Sys2Proof.Machine.execBcopy c rd ra rb s
  | .bfill c rd ra rb => Sys2Proof.Machine.execBfill c rd ra rb s
  | .b c cond off => Sys2Proof.Machine.execB c cond off s
  | .bl c off => Sys2Proof.Machine.execBl c off s
  | .jr c ra => Sys2Proof.Machine.execJr c ra s
  | .jlr c rd ra => Sys2Proof.Machine.execJlr c rd ra s
  | .wait c rd mask => Sys2Proof.Machine.execWait c rd mask s
  | .poll c rd mask => Sys2Proof.Machine.execPoll c rd mask s
  | .signal c ra => Sys2Proof.Machine.execSignal c ra s
  | .settmr c ra => Sys2Proof.Machine.execSettmr c ra s
  | .yield c => Sys2Proof.Machine.execYield c s
  | .halt c => Sys2Proof.Machine.execHalt c s
  | .tret c => Sys2Proof.Machine.execTret c s
  | .tretNmi c => Sys2Proof.Machine.execTretNmi c s
  | .rdsr c rd sr => Sys2Proof.Machine.execRdsr c rd sr s
  | .wrsr c ra sr => Sys2Proof.Machine.execWrsr c ra sr s
  | .wdog c => Sys2Proof.Machine.execWdog c s
  | .nop c => Sys2Proof.Machine.execNop c s
  | .xltInval w v => Sys2Proof.Machine.execXltInval w v s
  | .xltInvalAll w => Sys2Proof.Machine.execXltInvalAll w s
  | .xltResume w slot => Sys2Proof.Machine.execXltResume w slot s
  | .xltResumeAbandon w slot => Sys2Proof.Machine.execXltResumeAbandon w slot s
  | .scrubGo => Sys2Proof.Machine.execScrubGo s
  | .scrubLine range => Sys2Proof.Machine.execScrubLine range s
  | .refresh ch => Sys2Proof.Machine.execRefresh ch s
  | .dramTempRead ch temp => Sys2Proof.Machine.execDramTempRead ch temp s
  | .selfRefreshEntry ch => Sys2Proof.Machine.execSelfRefreshEntry ch s
  | .selfRefreshExit ch => Sys2Proof.Machine.execSelfRefreshExit ch s
  | .requestPromotion ch => Sys2Proof.Machine.execRequestPromotion ch s
  | .channelFail ch => Sys2Proof.Machine.execChannelFail ch s
  | .dmaGo w ch => Sys2Proof.Machine.execDmaGo w ch s
  | .dmaStop w ch => Sys2Proof.Machine.execDmaStop w ch s
  | .descriptorFetch ch => Sys2Proof.Machine.execDescriptorFetch ch s
  | .dmaCopy ch => Sys2Proof.Machine.execDmaCopy ch s
  | .dmaFill ch => Sys2Proof.Machine.execDmaFill ch s
  | .dmaCompare ch => Sys2Proof.Machine.execDmaCompare ch s
  | .dmaDecrypt ch => Sys2Proof.Machine.execDmaDecrypt ch s
  | .dmaInflate ch => Sys2Proof.Machine.execDmaInflate ch s
  | .dmaDeflate ch => Sys2Proof.Machine.execDmaDeflate ch s
  | .dmaBeat ch => Sys2Proof.Machine.execDmaBeat ch s
  | .descriptorComplete ch => Sys2Proof.Machine.execDescriptorComplete ch s
  | .dmaXfHoldExpiry ch => Sys2Proof.Machine.execDmaXfHoldExpiry ch s
  | .cvuGo w u off => Sys2Proof.Machine.execCvuGo w u off s
  | .cvuPassDone u => Sys2Proof.Machine.execCvuPassDone u s
  | .cvuXfHoldExpiry u => Sys2Proof.Machine.execCvuXfHoldExpiry u s
  | .cryClear v => Sys2Proof.Machine.execCryClear v s
  | .linkEnable k => Sys2Proof.Machine.execLinkEnable k s
  | .linkDisable k => Sys2Proof.Machine.execLinkDisable k s
  | .detectRetry k sensed => Sys2Proof.Machine.execDetectRetry k sensed s
  | .trnReceived k stateField => Sys2Proof.Machine.execTrnReceived k stateField s
  | .trainTimeout k => Sys2Proof.Machine.execTrainTimeout k s
  | .capxReceived k data => Sys2Proof.Machine.execCapxReceived k data s
  | .eyeWindow k lane opening e => Sys2Proof.Machine.execEyeWindow k lane opening e s
  | .deskewError k => Sys2Proof.Machine.execDeskewError k s
  | .lossOfSignal k => Sys2Proof.Machine.execLossOfSignal k s
  | .failedRetry k => Sys2Proof.Machine.execFailedRetry k s
  | .linkDown k => Sys2Proof.Machine.execLinkDown k s
  | .blindStartActive k => Sys2Proof.Machine.execBlindStartActive k s
  | .ethRxFrame frame fcsGood t => Sys2Proof.Machine.execEthRxFrame frame fcsGood t s
  | .ethTxdb w idx => Sys2Proof.Machine.execEthTxdb w idx s
  | .ethTxDone t => Sys2Proof.Machine.execEthTxDone t s
  | .ethLinkLoss => Sys2Proof.Machine.execEthLinkLoss s
  | .timIncWrite w hi => Sys2Proof.Machine.execTimIncWrite w hi s
  | .timAdjSlew w hi => Sys2Proof.Machine.execTimAdjSlew w hi s
  | .timAdjStep w hi => Sys2Proof.Machine.execTimAdjStep w hi s
  | .ptpHoldover t => Sys2Proof.Machine.execPtpHoldover t s
  | .triggerArm w k ctl t => Sys2Proof.Machine.execTriggerArm w k ctl t s
  | .triggerEdge k t => Sys2Proof.Machine.execTriggerEdge k t s
  | .csiFrameStart port t => Sys2Proof.Machine.execCsiFrameStart port t s
  | .csiLongPacket port p => Sys2Proof.Machine.execCsiLongPacket port p s
  | .csiFrameEnd port => Sys2Proof.Machine.execCsiFrameEnd port s
  | .camStatsRecord p => Sys2Proof.Machine.execCamStatsRecord p s
  | .camCommit w p => Sys2Proof.Machine.execCamCommit w p s
  | .converterRotation bemf refv m => Sys2Proof.Machine.execConverterRotation bemf refv m s
  | .converterHandover bemf meanDiff => Sys2Proof.Machine.execConverterHandover bemf meanDiff s
  | .delayLineCal line refv d => Sys2Proof.Machine.execDelayLineCal line refv d s
  | .terminationCal lane refv m => Sys2Proof.Machine.execTerminationCal lane refv m s
  | .obsIdent => Sys2Proof.Machine.execObsIdent s
  | .obsBoot => Sys2Proof.Machine.execObsBoot s
  | .obsRead addr words => Sys2Proof.Machine.execObsRead addr words s
  | .obsRetain off words => Sys2Proof.Machine.execObsRetain off words s
  | .obsSnap => Sys2Proof.Machine.execObsSnap s
  | .obsWriteTry cmd => Sys2Proof.Machine.execObsWriteTry cmd s
  | .obsCsRise => Sys2Proof.Machine.execObsCsRise s
  | .traceLostSend => Sys2Proof.Machine.execTraceLostSend s
  | .regWrite w addr v => Sys2Proof.Machine.execRegWrite w addr v s
  | .twinIdleDue => Sys2Proof.Machine.execTwinIdleDue s
  | .cscIdleAck h => Sys2Proof.Machine.execCscIdleAck h s
  | .cscRetxTimeout down => Sys2Proof.Machine.execCscRetxTimeout down s
  | .cscIdleDue down => Sys2Proof.Machine.execCscIdleDue down s
  | .cscLinkSilent down => Sys2Proof.Machine.execCscLinkSilent down s
  | .sincosSample u sn c t => Sys2Proof.Machine.execSincosSample u sn c t s
  | .ethAnDone fullDuplex => Sys2Proof.Machine.execEthAnDone fullDuplex s
  | .illegalInstruction c word => Sys2Proof.Machine.execIllegalInstruction c word s
  | .obsBadcmd cmd => Sys2Proof.Machine.execObsBadcmd cmd s
  | .tdeltaExceeded kind idx temp => Sys2Proof.Machine.execTdeltaExceeded kind idx temp s

end Sys2Proof.Machine
end

