-- ==== Sys2Proof/Safety.lean ====
section
/-! DEFINITION. What the statements speak of: the canonical form of the stores, the fire gate, the build state HELD, a state
after which nothing follows, and a context whose instruction has been fetched. -/

namespace Sys2Proof.Machine

/-- The canonical form of memory: addresses strictly rising, and no entry equal to what an unlisted address reads as (log entry 3). -/
def Memory.wf (m : List Host.Cell) : Bool := Sparse.wf m

/-- Memory and the register file are in canonical form. -/
def State.storesWf (s : State) : Bool := Memory.wf s.mem && Sparse.wf s.regs

/-- R483: some cause of the fire gate is set. -/
def Safety.anyCause (f : Safety) : Bool :=
  f.startup || f.interlock || f.discrep || f.fault || f.swgate || f.cascade

/-- R483, R290: FGA and FGB run only while every cause is clear, and never in a module that is RETIRED. -/
def State.gateSound (s : State) : Bool := !s.pins.fireGate || (!s.saf.anyCause && s.twn.role != 5)

/-- R98, R483: under an interlock cause or a fault with GATE the build state is HELD. -/
def State.heldSound (s : State) : Bool := !s.heldCause || s.mot.bstate = Build.HELD

/-- The invariant of the whole module: the gate and the build state follow the causes. -/
def State.sound (s : State) : Bool := s.gateSound && s.heldSound

/-- Nothing follows at once: no reset is due, the build state and the gate outputs follow the causes already, no drop test
runs, no quota is reached or due, no line event is armed, no line is in the window and no body is held. -/
def State.quiet (s : State) : Prop :=
  s.fco.resetDue = false ∧ s.heldSound = true ∧ s.mot.bstate ≠ Build.HELD ∧ s.mot.bstate ≠ Build.CLOSING ∧
  s.act.test = none ∧ (∀ x, x < 64 → (s.ctx x).quota = 0) ∧ s.scree.due = [] ∧
  (∀ x, x < 64 → bit (s.reg (Reg.CRN_LW_CTRL x)) 0 = false) ∧
  s.crn.window = [] ∧ s.mot.current = none ∧ s.mot.queue = [] ∧ (∀ x, x < 64 → (s.stream x).bodies = []) ∧
  s.pins.fireGate = (s.permitted && s.twn.role != 5)

/-- Start-up has released the clocks and has not failed: the units run. -/
def State.clocked (s : State) : Bool := s.clk.released && !s.boot.failed

/-- Context `c` runs and its instruction has been fetched, which leaves `u`. -/
def State.fetched (s : State) (c : Nat) (u : State) : Prop :=
  s.clocked = true ∧ c ≠ 0 ∧ (s.ctx c).rstate = 2 ∧ s.fetch c = (u, true)

/-- R315: `h` heads the next frame of a twin link that listens. -/
def State.twinNext (s : State) (h : FrameHdr) : Bool := s.twinListens && h.good && h.tseq = s.twn.rxNext

/-- R315: a frame's acknowledgement is taken and the frame counts as delivered. -/
def State.twinTaken (s : State) (h : FrameHdr) : State :=
  { s.twinAck h.tack with twn := { (s.twinAck h.tack).twn with rxNext := (h.tseq + 1) % 2 ^ 32 } }

/-- R326: `h` heads the next frame of a cascade port that listens; one that travels away from the lead carries the highest LTKN seen
or a newer one. -/
def State.cscNext (s : State) (h : CscHdr) : Bool :=
  s.cscListens h.down && h.good && h.tseq = (s.cscPort h.down).rxNext && (h.down || (h.ltkn + 65536 - s.csc.ltkn) % 65536 < 32768)

/-- R326: the frame's acknowledgement is taken and the frame counts as delivered. -/
def State.cscTaken (s : State) (h : CscHdr) : State :=
  let u := (s.cscAck h.down h.tack).updCsc h.down (fun p => { p with rxNext := (h.tseq + 1) % 2 ^ 32 })
  if h.down then u else { u with csc := { u.csc with ltkn := h.ltkn } }

/-- R317, R326: the state in which the frame acts at the module that owns the outputs: it has been delivered, sent on along the
chain, and mirrored to a standby. -/
def State.cscArrived (s : State) (h : CscHdr) (typ : Nat) (body : Bytes) : State :=
  ((s.cscTaken h).cscForward h typ body).mirror 0x0C (State.cscHeld h typ body)

/-- R74, R95: context `x`'s stream runs, and the directive `raw` of the record `r` is next. -/
def State.nextDirective (s : State) (x : Nat) (r : PendRec) (typ : Nat) (raw : Bytes) : Prop :=
  s.running = true ∧ (s.goOn x).follows = false ∧ ((s.goOn x).stream x).stalled = false ∧
    (s.goOn x).headDirective x = some (r, typ, raw)

/-- R95, R99 to R105: the directive that is next neither stalls nor is refused. -/
def State.accepts (s : State) (x : Nat) (r : PendRec) (typ : Nat) (raw : Bytes) : Prop :=
  s.nextDirective x r typ raw ∧ (s.goOn x).stallsNow typ raw = false ∧ (s.goOn x).refusal x typ raw = 0

/-- R361, R367: the entry `e` cached for context `c` at level `l` is the leaf that covers `va`. -/
def State.cachedLeaf (s : State) (c va l : Nat) (e : BitVec 64) : Prop := va < 2 ^ 39 ∧ s.leafFor c va = some (l, e)

/-- R361 to R367: a cached leaf maps `va` of context `c` to `pa` and admits the sequencer's access. -/
def State.mapped (s : State) (c va : Nat) (k : AccessKind) (pa : Nat) : Prop :=
  ∃ l e, s.cachedLeaf c va l e ∧ pteAllows e k .sequencer = true ∧ pa = ptePa e + va % levelBytes l

/-- R373 to R378: `n` bytes of memory from `pa` on in which no error stands. -/
def State.cleanAt (s : State) (pa n : Nat) : Prop :=
  s.inMemory pa = true ∧ s.inMemory (pa + n - 1) = true ∧ (∀ i, i < n → s.badAt (pa + i) = false) ∧
    ∀ e ∈ s.mu.ces ++ s.mu.ues, e < pa ∨ pa + n ≤ e

/-- R344: a context whose instruction has written `rd` and the four flags and gone on to the next. -/
def Ctx.result (k : Ctx) (rd : Nat) (val : BitVec 64) (z n c v : Bool) : Ctx :=
  { k with k := k.k.set rd val, z := z, n := n, c := c, v := v, pc := k.pc + 4, beat := 0 }

/-- R344: the same without a register. -/
def Ctx.tested (k : Ctx) (z n c v : Bool) : Ctx := { k with z := z, n := n, c := c, v := v, pc := k.pc + 4, beat := 0 }

/-- R516: what still acts on a module in FAILED: power, the reset pins, the OBS port and the trace lane. -/
def actsInFailed : Instr → Bool
  | .powerUp _ _ => true
  | .rstNLow => true
  | .modEnLow => true
  | .presentNRise => true
  | .obsIdent => true
  | .obsBoot => true
  | .obsRead _ _ => true
  | .obsRetain _ _ => true
  | .obsSnap => true
  | .obsWriteTry _ => true
  | .obsBadcmd _ => true
  | .obsCsRise => true
  | .traceLostSend => true
  | _ => false

end Sys2Proof.Machine
end

