-- ==== Sys2Proof/Certificates/Slice0/Obligations.lean ====
section
/-! DEFINITION. The statements for the provers.  Each says what a command does, under hypotheses on the state and its operands
alone: `exec` answers the state that its own effect leaves, after what follows at once (`State.settle`).  In a quiet
state nothing follows (`State.settle_quiet`), so such an equation is its own frame there. -/

open Sys2Proof Sys2Proof.Machine

/-! ## The block -/

/-- A step takes the command at the front of the queue, and its outcome is that command's with the queue's rest. -/
def Obligations.StepRunsTheFrontCommand : Prop :=
  ∀ (s : State) (c : Instr) (rest : List Instr), s.pending = c :: rest → step s = exec c { s with pending := rest }

/-- The model's choice (log entry 7): with an empty queue one PCLK passes, which moves the timebase on by INC and what
is left of a slew, and changes nothing else. -/
def Obligations.IdleStepIsOneTick : Prop :=
  ∀ s : State, s.pending = [] → ∃ t, step s = .next t ∧ t.pending = [] ∧ t.mem = s.mem ∧ t.regs = s.regs ∧ t.pins = s.pins ∧
    (s.clk.released = false → t = s) ∧
    (s.clk.released = true → t.clk.pclk = s.clk.pclk + 1 ∧ t = { s with clk := t.clk })

/-- Every command, in every state, answers a next state: none ends in a fault or a refusal. It rests on choices of the
model: log entry 106. -/
def Obligations.EveryCommandAnswersANextState : Prop :=
  ∀ (i : Instr) (s : State), ∃ t, exec i s = .next t

/-- R290, R481, R483, R503: after reset the module is in RESET, the STARTUP cause alone holds the gate closed, TOWN and
the fire gates stand still, the message of the last CRST and its count read 0, no stream is open, memory lists nothing
and no command waits. It rests on choices of the model: log entries 1, 3. -/
def Obligations.ResetValues : Prop :=
  State.reset.pending = [] ∧ State.reset.mem = [] ∧ State.reset.boot.phase = 0 ∧ State.reset.boot.failed = false ∧
  State.reset.clk.released = false ∧ State.reset.saf.startup = true ∧
  State.reset.saf.interlock = false ∧ State.reset.saf.discrep = false ∧ State.reset.saf.fault = false ∧
  State.reset.pins.fireGate = false ∧ State.reset.pins.town = false ∧ State.reset.mot.bstate = Build.UNHOMED ∧
  State.reset.reg Reg.CRU_CRSTS = 0 ∧ State.reset.fco.rstMsg = 0 ∧ State.reset.twn.role = 0 ∧
  (∀ x, x < 64 → (State.reset.stream x).opened = false) ∧ (∀ a, State.reset.rdByte a = 0) ∧
  State.reset.sound = true ∧ State.reset.storesWf = true

/-- R98, R290, R483: in every state, reachable or not, a step keeps the invariant that the fire gates run only while
every cause is clear and the module is not RETIRED, and that under INTERLOCK, DISCREP or FAULT the build state is HELD.
It rests on choices of the model: log entry 136. -/
def Obligations.EveryStepKeepsTheGateSound : Prop :=
  ∀ s t : State, s.sound = true → step s = .next t → t.sound = true

/-- R516: a module in FAILED acts on nothing but power, the reset pins, the OBS port and the trace lane: every other
command leaves its state as it is. It rests on choices of the model: log entry 107. -/
def Obligations.FailedModuleIgnoresCommands : Prop :=
  ∀ (i : Instr) (s : State), s.boot.failed = true → actsInFailed i = false → exec i s = .next s

/-! ## Start-up, resets, calibration, monitors, safety and links -/

/-- R497, R503, R511, R513, R515, R516, R558: each phase of start-up ends with the command that the spec names for it
and goes on to the next: power leaves RESET for CLOCKS; the RPLL's lock releases the clocks; a clean logic BIST, a
memory BIST whose failing elements could all be mapped, a clean DRAM initialisation, the key-wrapping keys and LANES
each end their phase. NVM goes on with the image that `readFlash` chooses, LOAD and CAL with what the image and the
measurements give. It rests on choices of the model: log entries 68, 73. -/
def Obligations.StartupPhasesComplete : Prop :=
  ∀ s : State, s.boot.failed = false →
    (∀ kept, s.boot.phase = 0 → exec (.powerUp false kept) s = .next (State.settle (State.enterPhase
      { s with pins := { s.pins with supplyGood := true, modEn := true, rstN := true, presentN := false } } 1))) ∧
    (s.boot.phase = 1 → exec .rpllLock s =
      .next (State.settle (State.enterPhase { s with clk := { s.clk with released := true } } 2))) ∧
    (s.boot.phase = 1 → exec .rpllLockTimeout s =
      .next (State.settle ((s.failStart 1).trace 5 (leBytes 1 1 ++ leBytes 1 1 ++ leBytes 6 0)))) ∧
    (s.boot.phase = 2 → exec (.lbistDone [] [] false) s =
      .next (State.settle ((s.event Reg.BST_BOOT 0).enterPhase 3))) ∧
    (∀ fails t, s.boot.phase = 3 → s.mapElements fails = some t → exec (.mbistDone fails) s =
      .next (State.settle ((t.event Reg.BST_BOOT 1).enterPhase 4))) ∧
    (s.boot.phase = 4 → exec (.dramInitDone [] false) s = .next (State.settle (s.enterPhase 5))) ∧
    (∀ p m a b, s.boot.phase = 5 → flashMode p = some m → exec (.imageVerified (some p) a b) s =
      .next (State.settle (((s.setRfld Reg.BCL_SECVER 8 6 s.die.floor).setReg Reg.BCL_NVM
        (setFld (setFld (setFld (setFld 0 0 5 p.log2Bytes) 5 1 (if 24 < p.log2Bytes then 1 else 0)) 6 2 m.1) 8 5 m.2)).readFlash
          p a b))) ∧
    (s.boot.phase = 6 → exec .keysLoaded s = .next (State.settle s.loadKeks)) ∧
    (s.boot.phase = 7 → exec .loadDone s = .next (State.settle s.load)) ∧
    (∀ m, s.boot.phase = 8 → exec (.calDone m) s = .next (State.settle (s.firstCal m))) ∧
    (s.boot.phase = 9 → s.lateLinks = [] → exec .lanesDone s = .next (State.settle s.seqPhase)) ∧
    (s.boot.phase = 9 → s.lateLinks ≠ [] → exec .lanesTimeout s =
      .next (State.settle ((s.lateLinks.foldl (fun s k => s.linkFault k) s).event Reg.BCL_STATUS 6).seqPhase))

/-- R290, R516, R517, R541: power that had been lost, RST_N, MOD_EN and, in a module that has not failed, PRESENT_N
reset the module whatever it does, each with its cause; a module in FAILED takes only the new level of PRESENT_N. -/
def Obligations.ResetsComplete : Prop :=
  ∀ s : State,
    (∀ kept, exec (.powerUp true kept) s = .next (State.settle (State.leaveReset
      { ((s.chipReset 0).setReg Reg.CRU_CRSTS 0) with
          boot := { (s.chipReset 0).boot with failedStarts := 0 }, die := { s.die with cycle := [] },
          island := if kept then s.island else List.replicate 256 0 }))) ∧
    exec .rstNLow s = .next (State.settle { s.chipReset 1 with
      pins := { (s.chipReset 1).pins with rstN := false }, boot := { (s.chipReset 1).boot with failedStarts := 0 } }) ∧
    exec .modEnLow s = .next (State.settle { s.chipReset 3 with pins := { (s.chipReset 3).pins with modEn := false } }) ∧
    (s.boot.failed = false → exec .presentNRise s =
      .next (State.settle { s.chipReset 4 with pins := { (s.chipReset 4).pins with presentN := true } })) ∧
    (s.boot.failed = true → exec .presentNRise s = .next { s with pins := { s.pins with presentN := true } })

/-- R550 to R557: from LANES on, and with REFV inside its window, a converter that passes takes its new selection and
stands ready; a handover within the window moves the channel to the spare; a delay line, in a col or with its trigger
not armed, and a lane's termination take their results; a moved die temperature makes an element due. It rests on
choices of the model: log entries 49, 50. -/
def Obligations.CalibrationsComplete : Prop :=
  ∀ s : State, 9 ≤ s.boot.phase → s.boot.failed = false →
    (∀ bemf refv m v, (bemf = true → s.hasAxis = true) → State.refvFits refv = true → ConvMeas.passes m = true →
      (s.measureRefv refv).convSpare bemf = some v → exec (.converterRotation bemf refv m) s =
        .next (State.settle ((((s.measureRefv refv).count Reg.CAL_RUNS 1).convKeep bemf v m).setReady bemf true))) ∧
    (∀ bemf diff v old, (bemf = true → s.hasAxis = true) → s.convSpare bemf = some v →
      s.serving bemf (s.nextChannel bemf) = some old → (if bemf then s.cal.bemReady else s.cal.encReady) = true →
      diff.natAbs ≤ (s.setReady bemf false).rfld Reg.CAL_CTRL 16 4 → exec (.converterHandover bemf diff) s =
        .next (State.settle (((((s.setReady bemf false).setRfld (State.convReg bemf v) 0 4 (s.nextChannel bemf)).setRfld
          (State.convReg bemf old) 0 4 8).setSpare bemf (some old)).passChannel bemf (s.nextChannel bemf)))) ∧
    (∀ line refv d, line < s.delayLines → s.lineFree line = true → State.refvFits refv = true →
      exec (.delayLineCal line refv d) s = .next (State.settle ((s.measureRefv refv).lineResult line d))) ∧
    (∀ lane refv m, s.lanePresent lane = true → State.refvFits refv = true →
      exec (.terminationCal lane refv m) s = .next (State.settle ((s.measureRefv refv).termResult lane m))) ∧
    (∀ kind idx temp a, (s.setReg Reg.CRU_TEMP (BitVec.ofNat 32 (uNat 16 temp))).elementReg kind idx = some a →
      (s.setReg Reg.CRU_TEMP (BitVec.ofNat 32 (uNat 16 temp))).rfld Reg.CAL_CTRL 8 8 <
        (temp - 10 * sInt 8 ((s.setReg Reg.CRU_TEMP (BitVec.ofNat 32 (uNat 16 temp))).rfld a 24 8)).natAbs →
      exec (.tdeltaExceeded kind idx temp) s =
        .next (State.settle ((s.setReg Reg.CRU_TEMP (BitVec.ofNat 32 (uNat 16 temp))).becomesDue kind idx)))

/-- R493, R517, R536, R478: the monitors record their event and raise their fault; a die temperature above CRU_TLIM does
so once; a fault message of any source reaches the collector, and one of the clock or supply monitor cuts the BIST
slices. R476, R479, R480, R482: CLEAR of FCO_ERRCLR clears the error latch; FCO_LOG_TAIL frees the entries it passes;
FCO_INJECT, in UNHOMED or READY, sends a message of KIND 0x3F with every reaction of the source but CRST, and leaves the
source's FCO_SEV as it was. It rests on choices of the model: log entry 8. -/
def Obligations.MonitorsAndCollectorComplete : Prop :=
  (∀ s : State, s.clk.released = true → s.boot.failed = false →
    (s.boot.phase ≠ 0 → exec .vmonEvent s = .next (State.settle ((s.monitorCuts.event Reg.CRU_EVENT 2).raise Src.CRU_VMON))) ∧
    exec .clkMonEvent s = .next (State.settle ((s.monitorCuts.event Reg.CRU_EVENT 1).raise Src.CRU_CLK_MON)) ∧
    exec .rpllUnlock s = .next (State.settle (((s.setRfld Reg.CRU_STATE 0 1 0).event Reg.CRU_EVENT 0).raise Src.CRU_RPLL_UNLOCK)) ∧
    (∀ temp t, t = s.setReg Reg.CRU_TEMP (BitVec.ofNat 32 (uNat 16 temp)) → s.boot.hot = false →
      (t.rfld Reg.CRU_TLIM 0 12 : Int) < temp → exec (.dieHot temp) s =
        .next (State.settle ((State.event { t with boot := { t.boot with hot := true } } Reg.CRU_EVENT 3).raise Src.CRU_DIE_HOT))) ∧
    (∀ src kind ctx detail, src < 1024 → kind < 64 → ctx < 64 → src / 16 ≠ 0x0B → src ≠ Src.SAF_CEIL_XCHK →
      exec (.faultMessage src kind ctx detail) s =
        .next (State.settle ((if src = Src.CRU_CLK_MON ∨ src = Src.CRU_VMON then s.monitorCuts else s).raiseMsg
          { src := src, kind := kind, ctx := ctx, detail := detail })))) ∧
  (∀ s : State, s.clk.released = true → s.boot.failed = false →
    (∀ v, bit v 0 = true → exec (.fcoErrclr v) s =
      .next (State.settle { s with fco := { s.fco with errLatch := false } })) ∧
    (∀ v, exec (.fcoLogTail v) s = .next (State.settle
      ({ s with fco := { s.fco with fill := s.fco.fill - (fld v 0 8 + 256 - s.rfld Reg.FCO_LOG_TAIL 0 8) % 256 } }.setReg
        Reg.FCO_LOG_TAIL (BitVec.ofNat 32 (fld v 0 8))))) ∧
    (∀ v, bit v 16 = true → (s.mot.bstate = Build.UNHOMED ∨ s.mot.bstate = Build.READY) → fld v 0 10 ∈ faultSources →
      exec (.fcoInject v) s = .next (State.settle (State.setReg
        ((s.setReg (Reg.FCO_SEV (fld v 0 10)) (setBit (s.reg (Reg.FCO_SEV (fld v 0 10))) 11 false)).unitMessage
          { src := fld v 0 10, kind := 0x3F, ctx := fld v 10 6, detail := 0 })
        (Reg.FCO_SEV (fld v 0 10)) (s.reg (Reg.FCO_SEV (fld v 0 10)))))))

/-- R484 to R488: a demand on a pair that had none counts, records its event, sets INTERLOCK and raises its fault, and
with the pair's SAF_CTRL bit stops every axis; a permit takes its channel's level back; a pair that has disagreed for 1
ms latches DISCREP; the output readback and the cross-check report; a rearm with nothing in its way clears SAF_CAUSE and
the four causes it may clear. R500 to R502: a slice that runs ends with its signature: a match counts it and returns its
target, a mismatch counts a failure and retires the ridge, the pair or the CVU; a pair or CVU slice that has used up its
budget is cut. -/
def Obligations.SafetyAndBistComplete : Prop :=
  (∀ s : State, s.clk.released = true → s.boot.failed = false →
    (∀ pair chanB t u, pair < 4 → bit s.saf.levA pair = false → bit s.saf.levB pair = false →
      u = (((((s.at_ t).setLevel pair chanB true).pairLevels pair).count Reg.SAF_DEMANDS 1).event Reg.SAF_EVENT 0).setInterlock.raise
        Src.SAF_INTERLOCK →
      exec (.interlockDemand pair chanB t) s = .next (State.settle (if u.rbit Reg.SAF_CTRL pair then u.stopAll else u))) ∧
    (∀ pair chanB t, pair < 4 → exec (.interlockPermit pair chanB t) s =
      .next (State.settle (((s.at_ t).setLevel pair chanB false).pairLevels pair))) ∧
    (∀ pair t a u, pair < 4 → nth s.saf.disagreeAt pair none = some a → a + State.msPclk 1 ≤ (s.at_ t).clk.pclk →
      bit s.saf.dlatch pair = false →
      u = { s.at_ t with saf := { (s.at_ t).saf with
        dlatch := setBit s.saf.dlatch pair true, cycle := setBit s.saf.cycle pair false } } →
      exec (.discrepancy pair t) s = .next (State.settle ((State.event (State.settleGate
        { u with saf := { u.saf with discrep := true, closedIlk := u.closureKind true } }) Reg.SAF_EVENT 1).raise Src.SAF_DISCREPANCY))) ∧
    exec .gateRb s = .next (State.settle ((s.event Reg.SAF_EVENT 2).raise Src.SAF_GATE_RB)) ∧
    exec .safXchk s = .next (State.settle ((s.event Reg.SAF_EVENT 3).raise Src.SAF_SAF_XCHK)) ∧
    (∀ v t, bit v 0 = true → s.saf.levA = 0 → s.saf.levB = 0 → s.saf.dlatch = 0 → s.fco.sev3Gate = false → s.running = true →
      (s.mot.bstate = Build.UNHOMED ∨ s.mot.bstate = Build.READY ∨ s.mot.bstate = Build.HELD) →
      exec (.safRearm v t) s = .next (State.settle (((s.at_ t).setReg Reg.SAF_CAUSE 0).setCauses
        (fun f => { f with startup := false, interlock := false, fault := false, discrep := false }))))) ∧
  (∀ (s : State) (x : Slice) (kind : Nat), s.running = true →
    (s.runningSlice kind = some x →
      (∀ t, t = (let u := (s.sliceEnds kind x.idx 1).count Reg.BST_SLICES 1
          { u with bist := { u.bist with cutRuns := u.bist.cutRuns.filter (fun z => !(z.1 = kind && z.2.1 = x.idx)),
                                         nextPair := if kind = 1 then (x.idx + 1) % 4 else u.bist.nextPair,
                                         nextCvu := if kind = 2 then (x.idx + 1) % 4 else u.bist.nextCvu } }) →
        exec (.bistSliceDone kind true) s = .next (State.settle ((t.event Reg.BST_EVENT 0).targetBack kind x.idx))) ∧
      (∀ t, t = (let u := (s.sliceEnds kind x.idx 2).count Reg.BST_SLICES 1
          { u with bist := { u.bist with cutRuns := u.bist.cutRuns.filter (fun z => !(z.1 = kind && z.2.1 = x.idx)),
                                         nextPair := if kind = 1 then (x.idx + 1) % 4 else u.bist.nextPair,
                                         nextCvu := if kind = 2 then (x.idx + 1) % 4 else u.bist.nextCvu } }) →
        exec (.bistSliceDone kind false) s = .next (State.settle
          (if kind = 0 then (((t.event Reg.BST_EVENT 1).count Reg.BST_FAILS 1).raise Src.BST_RIDGE_FAIL).retireRidge x.idx
           else if kind = 1 then ((((t.event Reg.BST_EVENT 1).count Reg.BST_FAILS 1).pairLeaves x.idx).raise Src.BST_PAIR_FAIL).lastPair
           else (((t.event Reg.BST_EVENT 1).count Reg.BST_FAILS 1).raise Src.BST_CVU_FAIL).retireCvu x.idx)))) ∧
    (kind ≠ 0 → s.bist.slices.find? (fun x => x.kind = kind) = some x →
      exec (.bistBudgetCut kind) s = .next (State.settle ((s.sliceCut kind x.idx).targetBack kind x.idx))))

/-- R434 to R436, R439: an enabled link begins, senses its partner, trains, sends its own capabilities and takes the
partner's, becomes ACTIVE when they suit and FAILED when they do not, tries again, and goes down; R433 and R427: an eye
window and a deskew error act on an ACTIVE link. It rests on choices of the model: log entries 42, 70, 169, 170. -/
def Obligations.LinksComplete : Prop :=
  ∀ (s : State) (k : LinkId), s.lanesRun = true →
    (s.linkEnabled k = true → (s.link k).st = 0 → exec (.linkEnable k) s =
      .next ((s.updLink k (fun l => { l with st := if s.blind k then 7 else 1 })).applyLegs k)) ∧
    (s.rbit Reg.LNP_CTRL (28 + State.linkClass k) = true → (s.link k).st ≠ 0 → s.linkActive k = false →
      exec (.linkDisable k) s = .next (State.settle ((s.updLink k (fun l => { l with st := 0, wasActive := false, trained := false })).goesDown k))) ∧
    (s.rbit Reg.LNP_CTRL (28 + State.linkClass k) = true → s.linkActive k = true →
      exec (.linkDisable k) s =
        .next (State.settle (((s.leavesActive k 0).updLink k (fun l => { l with st := 0, wasActive := false, trained := false })).goesDown k))) ∧
    ((s.link k).st = 1 → exec (.detectRetry k true) s = .next ((s.updLink k (fun l => { l with st := 2 })).applyLegs k)) ∧
    (∀ n, (s.link k).st = 2 → exec (.trnReceived k n) s =
      .next (State.settle ((s.equalise k).updLink k (fun l => { l with st := 3 })))) ∧
    ((s.link k).st = 3 → exec (.trnReceived k 1) s = .next
      (State.settle ((s.updLink k (fun l => { l with st := 4 })).emit (.capx k (s.ownCaps k))))) ∧
    ((s.link k).st = 3 → (s.link k).wasActive = true → exec (.trnReceived k 2) s =
      .next (State.settle (s.becomesActive k (s.link k).caps))) ∧
    ((s.link k).st = 2 → exec (.trainTimeout k) s = .next (State.settle ((s.count Reg.LNP_RETRAINS 1).toDetect k))) ∧
    (∀ data, (s.link k).st = 4 → s.compatible k (slicePad data 0 16) = true → exec (.capxReceived k data) s =
      .next (State.settle (s.becomesActive k (slicePad data 0 16)))) ∧
    (∀ data l, (s.link k).st = 4 → s.compatible k (slicePad data 0 16) = false → k = .job l → exec (.capxReceived k data) s =
      .next (State.settle ((s.updLink k (fun l => { l with st := 6 })).event Reg.LNP_EVENT 4))) ∧
    (∀ lane opening e, s.linkActive k = true → lane ∈ State.rxLanes k → exec (.eyeWindow k lane opening e) s =
      .next (State.settle (s.eyeWindow k lane opening e))) ∧
    (s.linkActive k = true → exec (.deskewError k) s =
      .next (State.settle (((s.event Reg.LNP_EVENT 2).raise Src.LNP_DESKEW).retrain k))) ∧
    (s.linkActive k = true → exec (.lossOfSignal k) s = .next (State.settle ((s.leavesActive k 1).toDetect k))) ∧
    ((s.link k).st = 6 → exec (.failedRetry k) s = .next (State.settle (s.toDetect k))) ∧
    (s.linkActive k = false → exec (.linkDown k) s = .next (State.settle (s.goesDown k))) ∧
    ((s.link k).st = 7 → exec (.blindStartActive k) s = .next (State.settle ((s.equalise k).becomesActive k [])))

/-! ## Job links, streams and directives -/

/-- R440 to R443: on an ACTIVE job link a good frame is acknowledged and, when it is the next one, joins its message,
while one out of order is counted; an idle frame's FACK and CREDIT are taken; what is unacknowledged is sent again and
counted; an idle frame goes out; a silent link goes down. It rests on choices of the model: log entry 26. -/
def Obligations.JobFramesComplete : Prop :=
  ∀ (s : State) (l : Nat), s.clk.released = true → s.boot.failed = false → s.linkActive (.job l) = true →
    (∀ h body u, body.length ≤ 4096 → u = (s.heardOn (.job l)).jobAck l h.fack h.credit → h.fseq = (u.joblink l).rxNext →
      exec (.jobDataFrame l h body true) s = .next (State.settle
        ((u.updJob l (fun j => { j with rxNext := (h.fseq + 1) % 2 ^ 32 })).joinFrame l h.first h.last body))) ∧
    (∀ h body u, body.length ≤ 4096 → u = (s.heardOn (.job l)).jobAck l h.fack h.credit → h.fseq ≠ (u.joblink l).rxNext →
      exec (.jobDataFrame l h body true) s = .next (State.settle (u.count (Reg.JOB_ERR l) 1))) ∧
    (∀ h body, exec (.jobDataFrame l h body false) s = .next (State.settle ((s.heardOn (.job l)).count (Reg.JOB_ERR l) 1))) ∧
    (∀ fack credit, exec (.jobIdleAck l fack credit) s = .next (State.settle (State.pumpJob 64 ((s.heardOn (.job l)).updJob l (fun j =>
      { j with peerCredit := credit, unacked := j.unacked.filter (fun z => !fseqUpTo z.1 fack),
               peerAck := if j.unacked.any (fun z => z.1 = fack) then some fack else j.peerAck })) l))) ∧
    ((s.joblink l).unacked ≠ [] → exec (.jobRetxTimeout l) s = .next (State.settle (State.count
      ((s.joblink l).unacked.foldl (fun t z => t.jobEmit l z.1 (some z.2)) s) (Reg.JOB_RETX l) (s.joblink l).unacked.length))) ∧
    exec (.jobIdleDue l) s = .next (State.settle
      (s.emit (.jobFrame l (jobBytes (s.joblink l).txNext (s.joblink l).fack none)))) ∧
    exec (.jobLinkSilent l) s = .next (State.settle
      (((s.updLink (.job l) (fun k => { k with st := 1, wasActive := false, lostAt := false })).event Reg.LNP_EVENT 1).jobDown l))

/-- R65, R67, R94, R95, R444: a whole message acts at the module that owns the outputs and runs: SEGMENT fills a buffer
or is answered, SCREE_ACK moves the acknowledged edge, and RETRY, RESUME and ABORT reach their keeper. R63, R504: on an
ACTIVE link a message that arrives before READY is discarded and counted in JOB_ERR. It rests on choices of the model:
log entries 26, 91, 92, 94. -/
def Obligations.JobMessagesComplete : Prop :=
  (∀ (s : State) (l : Nat), s.linkActive (.job l) = true → s.running = true → s.owns = true →
    (∀ msg, exec (.segment l msg) s = .next (State.settle (s.segmentMsg l msg))) ∧
    (∀ upTo u, u = (s.mirror 9 ([BitVec.ofNat 8 l, 0, 0, 0, 0, 0, 0, 0, 0x82, 0, 0, 0] ++ leBytes 4 upTo.toNat)).screeAck l upTo.toNat →
      exec (.screeAck l upTo) s = .next (State.settle (if s.scree.held = true ∧ u.scree.held = false then u.startSwath else u))) ∧
    (∀ x, exec (.retry l x) s = .next (State.settle (s.keeperMsg l x [0x83, BitVec.ofNat 8 x] (fun t => t.retryStream x)))) ∧
    (∀ x cairn segno, exec (.resume l x cairn segno) s = .next (State.settle (s.keeperMsg l x
      ([0x84, BitVec.ofNat 8 x, 0, 0] ++ leBytes 4 cairn.toNat ++ leBytes 4 segno.toNat)
      (fun t => t.resumeStream x cairn.toNat segno.toNat)))) ∧
    (∀ x, exec (.abort l x) s = .next (State.settle (s.keeperMsg l x [0x85, BitVec.ofNat 8 x] (fun t => t.abortStream x))))) ∧
  (∀ (s : State) (l x : Nat) (msg : Bytes) (n : BitVec 32), s.linkActive (.job l) = true → s.running = false → s.boot.failed = false →
    exec (.segment l msg) s = .next (State.settle (s.count (Reg.JOB_ERR l) 1)) ∧
    exec (.screeAck l n) s = .next (State.settle (s.count (Reg.JOB_ERR l) 1)) ∧
    exec (.retry l x) s = .next (State.settle (s.count (Reg.JOB_ERR l) 1)) ∧
    exec (.resume l x n n) s = .next (State.settle (s.count (Reg.JOB_ERR l) 1)) ∧
    exec (.abort l x) s = .next (State.settle (s.count (Reg.JOB_ERR l) 1)))

/-- R68, R69, R95, R445, R447: in READY the keeper's registers act on its stream: a segment whose last byte is visible
is stored and JOB_NEXT moves on; JOB_FREE frees a buffer; JOB_HALT halts; JOB_OPEN and its clearing open and close;
CLOSED goes out again for every stream that is not open; JOB_TXQ takes a message of its own context. It rests on choices
of the model: log entry 91. -/
def Obligations.KeeperRegistersComplete : Prop :=
  ∀ (s : State) (x : Nat), s.running = true → s.clk.released = true →
    (∀ b n, (s.stream x).arriving = some b → n = (s.reg (Reg.JOB_NEXT x)).toNat → exec (.segmentStored x) s = .next (State.settle
      ((((s.updStream x (fun st => { st with arriving := none, full := st.full ++ [(b, n)] })).showFull x).setReg (Reg.JOB_NEXT x)
        (BitVec.ofNat 32 (n + 1))).raiseEvent x 7))) ∧
    (∀ d b, (s.stream x).desc = some d → b < d.credits → exec (.jobFree x b) s = .next (State.settle
      (((s.updStream x (fun st => { st with full := st.full.filter (fun z => z.1 != b) })).showFull x).raiseLimit x))) ∧
    (∀ d, (s.stream x).desc = some d → exec (.jobHalt x) s = .next (State.settle
      (((s.updStream x (fun st => { st with halted := true, stalled := false, waitStart := none })).event Reg.JOB_EVENT 4).raiseFor
        Src.JOB_STREAM_HALT x))) ∧
    (∀ d, (s.stream x).desc = some d → exec (.jobOpen x) s = .next (State.settle
      (((s.keepCairn x).updStream x (fun st => { st with opened := true, everOpened := true, ended := false })).exportNew d.link))) ∧
    (∀ d, (s.stream x).desc = some d → exec (.jobClose x) s =
      .next (State.settle (s.updStream x (fun st => { st with opened := false })))) ∧
    exec .closedStatusRepeat s = .next (State.settle ((List.range 64).foldl (fun t y =>
      if (t.stream y).desc.isSome && !(t.stream y).opened then t.sendStatus y Stat.CLOSED noOffset noOffset else t) s)) ∧
    (∀ w off a n l, a = Config.seqPool + fld off 0 23 → upLength (s.rdByte a).toNat = some n → fld off 0 3 = 0 →
      a + n ≤ Config.poolEnd → (s.rdByte (a + 1)).toNat = w → s.streamLink w = some l →
      exec (.jobTxq w off) s = .next (State.settle (s.upMsg l (s.rd a n))))

/-- R74, R87, R89 to R91: in READY the oldest stored segment of a stream is opened, and one with a bad header is
rejected with 0x10; a BINDING, a GEOM_END and a CAIRN at the head of a stream that runs execute; the oldest waiting
cairn is acknowledged once it is done. R96, R97, R101: a stalled directive whose condition is met is judged again, and
its resumption is mirrored; a stalled WAIT whose timeout has passed is refused with WAIT_TIMEOUT. R95, R97, R105: a
directive that does not stall and has a refusal code is refused with it: the refusal is mirrored, STATUS goes out with
the record's place, and the stream halts. Every directive command of a context does so. It rests on choices of the
model: log entries 89, 93, 96, 157, 158, 161. -/
def Obligations.StreamRecordsAndStallsComplete : Prop :=
  (∀ (s : State) (x : Nat), s.running = true →
    (∀ p, exec (.segmentAccept x p) s = .next (State.settle (s.acceptSegment x p))) ∧
    (∀ p b n rest d, (s.stream x).full = (b, n) :: rest → (s.stream x).desc = some d → (s.stream x).halted = false →
      (s.stream x).lastSeg = none →
      headerOk (s.rd (s.bufHead x b) 112) x (decide ((s.ctx x).keyslot = 255)) (s.stream x).passedEnd = false →
      exec (.segmentAccept x p) s = .next (State.settle (s.rejectSegment x n 0x10))) ∧
    (∀ r id cv mt ap, (s.goOn x).headRec x = some r → r.body = .binding id cv mt ap →
      exec (.binding x) s = .next (State.settle ((s.goOn x).runBinding x r id cv mt ap))) ∧
    (∀ r layer, (s.goOn x).headRec x = some r → r.body = .geomEnd layer →
      exec (.geomEnd x) s = .next (State.settle ((s.goOn x).runGeomEnd x r layer))) ∧
    (∀ r id rp u, u = s.goOn x → u.headRec x = some r → r.body = .cairn id rp →
      exec (.cairn x) s = .next (State.settle ((u.updStream x (fun st => { st with cairnNow := id, cairns := st.cairns ++
        [{ id := id, resumePoint := rp, segno := r.segno, layers := (u.stream x).passedEnd, ids := (u.stream x).execIds,
           uptoOrd := u.crn.nextOrd, layer := u.mot.lastLayer.getD 0, nextSwath := u.mot.nextSwath }] })).popRec x))) ∧
    exec (.cairnAck x) s = .next (State.settle (s.ackCairn x))) ∧
  (∀ (s : State) (x : Nat) (r : PendRec) (typ : Nat) (raw : Bytes), s.running = true → s.follows = false →
    s.headDirective x = some (r, typ, raw) → (s.stream x).stalled = true →
    (s.stallsNow typ raw = false → exec (.directiveStallRelease x) s = .next (State.settle
      (((s.updStream x (fun st => { st with stalled := false, waitStart := none })).mirror 4
        (outcomeBytes x 1 0 r.segno r.off)).judge x r typ raw))) ∧
    (∀ t t0, typ = Dir.WAIT → s.stallsNow typ raw = true → (s.stream x).waitStart = some t0 →
      t0 + 200000 * fieldLE raw 12 4 ≤ (s.at_ t).clk.pclk → exec (.waitTimeout x t) s = .next (State.settle
        (((s.at_ t).updStream x (fun st => { st with stalled := false, waitStart := none })).refuseDirective x r Stat.WAIT_TIMEOUT)))) ∧
  (∀ (s u t : State) (x typ : Nat) (r : PendRec) (raw : Bytes) (i : Instr), s.nextDirective x r typ raw → u = s.goOn x →
    u.stallsNow typ raw = false → u.refusal x typ raw ≠ 0 →
    t = State.settle (((u.mirror 4 (outcomeBytes x 2 (u.refusal x typ raw) r.segno r.off)).sendStatus x (u.refusal x typ raw)
      r.segno r.off).haltStream x) →
    ((typ, i) ∈ [(Dir.HOME, Instr.home x), (Dir.LAYER_BEGIN, .layerBegin x), (Dir.SWATH, .swath x), (Dir.LAYER_END, .layerEnd x),
        (Dir.PARK, .park x), (Dir.WAIT, .waitDirective x), (Dir.BANK_LOAD, .bankLoad x), (Dir.WAVE_LOAD, .waveLoad x),
        (Dir.MASK_LOAD, .maskLoad x), (Dir.CURVE_LOAD, .curveLoad x), (Dir.REGION, .region x)] → exec i s = .next t) ∧
    (typ = Dir.MODE → (fieldLE raw 8 1, i) ∈ [(1, Instr.modeBankSel x), (2, .modeRowmap x), (3, .modeMaskSel x), (4, .modeHalftone x)] →
      exec i s = .next t))

/-- R95, R98 to R101, R103 to R105, R107, R258: a directive at the head of a running stream that neither stalls nor is
refused is mirrored, has its effect and leaves the stream: homing begins; a layer opens with its platform move and
recoat passes; a swath joins the queue and its plan is distributed; a layer closes; PARK and a WAIT whose state is
reached only execute; a bank, waveform, mask or curve is replaced, and a waveform goes to the head drivers; a REGION
waits for the next layer, and its QUOTA, unless it is 0, with it. It rests on choices of the model: log entries 98, 159,
160. -/
def Obligations.DirectivesExecute : Prop :=
  ∀ (s v : State) (x : Nat) (r : PendRec) (typ : Nat) (raw : Bytes), s.accepts x r typ raw →
    v = (s.goOn x).mirror 4 (outcomeBytes x 0 0 r.segno r.off) →
    (typ = Dir.HOME → exec (.home x) s = .next (State.settle ((v.startHoming (fieldLE raw 8 1)).popRec x))) ∧
    (typ = Dir.LAYER_BEGIN → ∀ w, w = v.layerBegins (fieldLE raw 8 4) → exec (.layerBegin x) s = .next (State.settle
      ((State.startMove { w with mot := { w.mot with platformMove := true, recoats := fieldLE raw 16 1 } } 2
        ((w.axis 2).target + 256 * fieldLEs raw 12 4)).popRec x))) ∧
    (typ = Dir.SWATH → exec (.swath x) s = .next (State.settle
      ((((v.queueSwath (v.ownPlan (v.swathPlanOf raw)) (v.stream x).cairnNow).distribute 4 (planBytes (v.swathPlanOf raw))).startSwath).popRec x))) ∧
    (typ = Dir.LAYER_END → exec (.layerEnd x) s = .next (State.settle ((v.setBuild Build.CLOSING).popRec x))) ∧
    (typ = Dir.PARK → exec (.park x) s = .next (State.settle (v.popRec x))) ∧
    (typ = Dir.WAIT → exec (.waitDirective x) s = .next (State.settle (v.popRec x))) ∧
    (∀ g b k, typ = Dir.BANK_LOAD → parseBank (slicePad raw 16 64) = some (g, b, k) → exec (.bankLoad x) s = .next (State.settle
      (State.popRec { v with dose := { v.dose with banks := upd v.dose.banks (4 * g + b) (fun _ => k) } } x))) ∧
    (∀ w, typ = Dir.WAVE_LOAD → parseWave (slicePad raw 16 64) = some w → exec (.waveLoad x) s = .next (State.settle
      ((State.uploadWave { v with dose := { v.dose with waves := putWave v.dose.waves w } } w).popRec x))) ∧
    (∀ m, typ = Dir.MASK_LOAD → parseMask (slicePad raw 16 128) = some m → exec (.maskLoad x) s = .next (State.settle
      (State.popRec { v with dose := { v.dose with masks := upd v.dose.masks (fieldLE raw 8 1) (fun _ => m) } } x))) ∧
    (∀ c, typ = Dir.CURVE_LOAD → parseCurve (slicePad raw 16 136) = some c → exec (.curveLoad x) s = .next (State.settle
      (State.popRec { v with dose := { v.dose with curves := putCurve v.dose.curves c } } x))) ∧
    (∀ g : Region, typ = Dir.REGION →
      g = { col0 := fieldLEs raw 12 4, col1 := fieldLEs raw 16 4, line0 := fieldLEs raw 20 4, line1 := fieldLEs raw 24 4,
            layer0 := fieldLE raw 28 4, layer1 := fieldLE raw 32 4 } →
      exec (.region x) s = .next (State.settle ((v.updStream (fieldLE raw 8 1) (fun st => { st with
        regionNext := some (g, if fieldLE raw 36 4 = 0 then (st.regionNext.map Prod.snd).getD 0 else fieldLE raw 36 4) })).popRec x)))

/-- R41, R48, R57, R103, R104, R132, R323: a MODE directive at the head of a running stream that neither stalls nor is
refused is mirrored and leaves the stream, and its setting, with the group and the VALUE of the record, joins the mode
changes behind those before it, to govern the lines from the build position of the record on; what is rendered or taken
by then is squashed or late; the lead distributes it. It rests on choices of the model: log entry 100. -/
def Obligations.ModesComplete : Prop :=
  ∀ (s v : State) (x g n : Nat) (r : PendRec) (raw : Bytes) (p : BuildPos) (put : ModeSetting → State), s.accepts x r Dir.MODE raw →
    v = (s.goOn x).mirror 4 (outcomeBytes x 0 0 r.segno r.off) → g = fieldLE raw 9 1 → n = fieldLE raw 24 8 →
    p = { layer := fieldLE raw 12 4, swath := fieldLE raw 16 2, line := fieldLEs raw 20 4 } →
    put = (fun m =>
      let c : ModeChange := { ctx := x, order := v.dose.nextOrder, afterCairn := (v.stream x).cairnNow, setting := m, at_ := p, moved := none }
      ((State.modeSettles { v with dose := { v.dose with changes := v.dose.changes ++ [c], nextOrder := v.dose.nextOrder + 1 } } c).distribute
        6 (modeBytes m p false)).popRec x) →
    (fieldLE raw 8 1 = 1 → exec (.modeBankSel x) s = .next (State.settle (put (.bankSel g n)))) ∧
    (fieldLE raw 8 1 = 2 → exec (.modeRowmap x) s = .next (State.settle (put (.rowMap (BitVec.ofNat 64 n))))) ∧
    (fieldLE raw 8 1 = 3 → exec (.modeMaskSel x) s = .next (State.settle (put (.maskSel g (n % 8) (n / 256 + 1))))) ∧
    (fieldLE raw 8 1 = 4 → exec (.modeHalftone x) s = .next (State.settle (put (.halftone g (n % 256) (n / 2 ^ 8 % 256)
      (n / 2 ^ 16 % 256) (n / 2 ^ 24 % 256) (n / 2 ^ 32 % 256)))))

/-! ## Ridges, cornice, strobes, actuators and head links -/

/-- R143: a geometry record that is well formed, lies in the SEQ pool and names the writing context joins the post table
while it has room. R146, R148: the context or the supervisor retries or abandons what waits on a ridge. R182: it also
writes its line watch control. R111, R131, R144, R150, R153: in READY a ridge of the variant fetches the band it needs,
from where its fetch pass has come to, and the band is in the cache when nothing of the pass is left; it renders and
posts the slice of its next line when its band is held, none of its stops lies at or before the line, the window has
room, no checkpoint is too far ahead, no halo value is missing and no handover is due, and then goes on to the line
after it; it takes a halo value from a neighbour; the line beyond the state window raises STATE_WINDOW_FULL. It rests on
choices of the model: log entries 20, 110, 112, 146, 147, 164. -/
def Obligations.RidgesComplete : Prop :=
  (∀ s : State, s.clk.released = true → s.boot.failed = false →
    (∀ w v a bs, a = Config.seqPool + fld v 0 23 → bs = s.rd a 32 → fld v 0 3 = 0 → a + 32 ≤ Config.poolEnd →
      fieldLE bs 0 1 = w → fieldLE bs 1 1 ≤ 1 → fieldLE bs 2 2 = 0 → fieldLE bs 4 4 < 2 ^ 24 → fieldLE bs 24 8 = 0 →
      fieldLE bs 8 8 % 32 = 0 → fieldLE bs 16 4 ≤ 1048576 → s.rdg.posts.length < 512 →
      exec (.rdgPost w v) s = .next (State.settle { s with rdg := { s.rdg with posts := s.rdg.posts ++
        [{ ctx := w, geomEnd := fieldLE bs 1 1 = 1, layer := fieldLE bs 4 4, dirVa := fieldLE bs 8 8, count := fieldLE bs 16 4,
           segno := fieldLE bs 20 4, afterCairn := (s.stream w).cairnNow }] } })) ∧
    (∀ w x, w = x ∨ w = s.super → exec (.rdgRetry w x) s = .next (State.settle (s.ridgeRetry x))) ∧
    (∀ w x, w = x ∨ w = s.super → exec (.rdgRetryAbandon w x) s = .next (State.settle (s.ridgeAbandon x))) ∧
    (∀ w x v, x ≠ 0 → x < 64 → (w = x ∨ w = s.super) → exec (.crnLwCtrl w x v) s =
      .next (State.settle (s.setReg (Reg.CRN_LW_CTRL x) (v &&& 3))))) ∧
  (∀ (s : State) (i : Nat) (w : Swath) (q : Nat) (n : Int), s.running = true → i < s.ridgeCount →
    (∀ u v b p, s.useNext i = u → u.fetchTarget i = some (w, q, n) → u.rbit Reg.RDG_CTRL 0 = true → u.bandWaits i w.plan n = [] →
      ((u.ridge i).pass = some p ∧ p.key = State.bandKey w n ∨
        (∀ z, (u.ridge i).pass = some z → z.key ≠ State.bandKey w n) ∧ p = u.newPass i w n) →
      u.fetchBand (u.fillHalf i) (u.sampleRect i w.plan n) (State.bandFirst w n) p ((u.ridge i).stops.map FetchStop.ctx) = (v, b) →
      b.wait = none → b.bad = [] → b.stops = [] → b.left = [] →
      exec (.bandFetchDone i) s = .next (State.settle
        (((v.updRidge i (fun g => { g with pass := some { p with recs := b.recs, bytes := b.bytes, work := [] } })).bandReady i
          { p with recs := b.recs, bytes := b.bytes, work := [] }).beginLine i))) ∧
    (s.ridgeAt i = some (w, q, n) → (s.ridge i).band = some (State.bandKey w n) → s.rdg.leaving = none →
      (∀ z, z ∈ (s.ridge i).stops → q < z.ord) →
      (q < s.windowEnd → (State.isCheckpoint w.plan n = true → q ≤ s.firstUntx + 112) → s.haloWaits i q = false →
        ∀ u, u = (s.voidActuators i w q n).voidCached i w n → (u.ridge i).nextOrd = q →
        exec (.slicePosted i) s =
          .next (State.settle (((((u.renderLine i w q n).useNext i).tryHandOver).beginLine i)))) ∧
      (s.windowEnd ≤ q → exec (.slicePosted i) s = .next (State.settle (s.raise Src.CRN_STATE_WINDOW_FULL)))) ∧
    (∀ right r, exec (.haloValue i right r) s = .next (State.settle ((s.haloArrives i right r).beginLine i))))

/-- R33, R159, R160: the owner of the outputs passes the transmit point of a line of the swath in progress when POS0
crosses it in the firing direction, and takes the oldest line that waits behind it. R239, R240, R244: a decision
crossing decides the line of the swath that passes; an edge places the pulse of the first line that waits for its row;
the skip window ends 10,000 PCLK after the gate has opened. It rests on choices of the model: log entry 116. -/
def Obligations.LinesAndStrobesComplete : Prop :=
  (∀ (s : State) (w : Swath), s.running = true → s.owns = true → s.mot.current = some w →
    (∀ n t u, u = s.at_ t → planHas w.plan n = true →
      u.crosses w.plan.dir (u.gridPoint (if w.plan.dir = 0 then n - 8 else n + 8)) = true →
      (n ≠ planFirst w.plan ∨ w.firstOrd + (planIndex w.plan n).toNat < s.crn.crossed → exec (.transmitPoint ⟨n, t⟩) s =
        .next (State.settle { u with crn := { u.crn with crossed := max u.crn.crossed (w.firstOrd + (planIndex w.plan n).toNat + 1) } })) ∧
      (n = planFirst w.plan → s.crn.crossed ≤ w.firstOrd + (planIndex w.plan n).toNat → ∀ v, v = u.trimNack.alignMissed →
        exec (.transmitPoint ⟨n, t⟩) s = .next (State.settle { v with
          twn := { v.twn with lates := 0 },
          crn := { v.crn with crossed := max v.crn.crossed (w.firstOrd + (planIndex w.plan n).toNat + 1) } }))) ∧
    (∀ n t, planHas w.plan n = false ∨
        (s.at_ t).crosses w.plan.dir ((s.at_ t).gridPoint (if w.plan.dir = 0 then n - 8 else n + 8)) = false →
      exec (.transmitPoint ⟨n, t⟩) s = .next (s.at_ t).settle) ∧
    (∀ l, s.crn.window.find? (fun l => !l.taken && !l.dropped) = some l → s.pins.town = true → s.hlk.selecting = false →
      l.layer = w.plan.layer → l.swath = w.plan.swath → l.ord < s.crn.crossed →
      exec .lineTake s = .next (State.settle (s.takeLine w.plan l)))) ∧
  (∀ (s : State) (t : Nat),
    (∀ n, s.running = true → exec (.decisionCrossing n t) s = .next (State.settle ((s.at_ t).decide_ n t))) ∧
    (∀ r n l p want, s.running = true → s.owns = true →
      s.crn.window.find? (fun (l : CLine) => match l.rows[r]? with
        | some .toFire => true
        | some (.toSkip _) => true
        | _ => false) = some l →
      l.line = n → (s.at_ t).planOf l.layer l.swath = some p → l.rows[r]? = some want →
      exec (.strobeEdge r n t) s = .next (State.settle ((s.at_ t).edgeNow l p.dir r t want))) ∧
    (∀ o, s.clk.released = true → s.boot.failed = false → s.saf.openedAt = some o → s.saf.skipWindow = true →
      s.permitted = true → o + 10000 ≤ t → exec (.skipWindowEnd t) s =
        .next (State.settle { s.at_ t with saf := { s.saf with skipWindow := false } })))

/-- R195, R198, R199, R206, R210, R262: the drop test begins when the carriage is in place, which is to say in the
station zone with the rest of its trajectory, notes the gate edges of its rows, and ends with its windows, its results
staged and decided (an aborted test without results); a hold that lasts too long is raised and ends; an edit of the
actuator table shows in ACT_EDIT_VAL and ACT_EDIT_IDX and joins the edits, except at a standby. It rests on choices of
the model: log entries 130, 132, 154, 155. -/
def Obligations.DropTestsComplete : Prop :=
  ∀ s : State, s.running = true → s.clk.released = true →
    (∀ t u, u = s.at_ t → s.act.phase = 1 → u.inZone = true → s.owns = true → exec (.carriageInPlace t) s =
      .next (State.settle (State.startTest { u with act := { u.act with hold := some u.clk.pclk, phase := 2 } }))) ∧
    (∀ t, s.act.phase = 1 → (s.at_ t).inZone = false → exec (.carriageInPlace t) s = .next (s.at_ t).settle) ∧
    (∀ row t k, s.act.test = some k → s.act.phase = 2 → s.owns = true → k.aborted = false → row < 16 →
      exec (.gateEdge row t) s = .next (State.settle
        { s.at_ t with act := { s.act with test := some { k with edges := k.edges ++ [(row, t)] } } })) ∧
    (∀ t k u, s.act.test = some k → s.act.phase = 2 → s.owns = true → u = s.at_ t → u.windowsEnd k ≤ u.clk.pclk →
      (k.aborted = true → exec (.testWindowsClosed t) s = .next (State.settle (u.countShots.recordPlan k.t0 [] []))) ∧
      (k.aborted = false → ∀ v rs, u.countShots.testResults k = (v, rs) → exec (.testWindowsClosed t) s = .next (State.settle
        ((State.obsCount { v with act := { v.act with t := v.act.t + 1 } } 8).recordPlan k.t0 k.shots rs)))) ∧
    (∀ h u, s.act.hold = some h →
      u = ((s.at_ (h + 200 * s.rfld Reg.ACT_HOLD 0 16)).event Reg.ACT_EVENT 8).raise Src.ACT_HOLD_TIMEOUT → exec .holdTimeout s =
      .next (State.settle ((State.distribute { u with act := { u.act with hold := none } } 8
        (State.colBody { u with act := { u.act with hold := none } } 1)).startSwath))) ∧
    (∀ idx val u, s.follows = false → u = (fun op : Nat =>
        (s.setReg Reg.ACT_EDIT_VAL (BitVec.ofNat 32 val.toNat)).setReg Reg.ACT_EDIT_IDX (BitVec.ofNat 32 (idx % 2 ^ 20 + 2 ^ 24 * op))) →
      exec (.actEditMask idx val) s = .next (State.settle ((u 1).queueEdit (BitVec.ofNat 32 (idx % 2 ^ 20 + 2 ^ 24 * 1)) val)) ∧
      exec (.actEditUnmask idx val) s = .next (State.settle ((u 2).queueEdit (BitVec.ofNat 32 (idx % 2 ^ 20 + 2 ^ 24 * 2)) val)) ∧
      exec (.actEditRevive idx val) s = .next (State.settle ((u 3).queueEdit (BitVec.ofNat 32 (idx % 2 ^ 20 + 2 ^ 24 * 3)) val)) ∧
      exec (.actEditDgain idx val) s = .next (State.settle ((u 4).queueEdit (BitVec.ofNat 32 (idx % 2 ^ 20 + 2 ^ 24 * 4)) val)) ∧
      exec (.actEditFdelay idx val) s = .next (State.settle ((u 5).queueEdit (BitVec.ofNat 32 (idx % 2 ^ 20 + 2 ^ 24 * 5)) val)))

/-- R171, R219, R223, R230 to R233, R247: a good status frame on the port in use takes effect: fire records, the answer
to a void order, the answer to an order, temperatures, a nozzle fault, a driver fault, the end of a test; a bad one
counts in HLK_ST_CRC and does nothing more; a line whose FIRE_ACK does not come is logged as HST_LOST and its link
closed. It rests on choices of the model: log entries 56, 133. -/
def Obligations.HeadStatusCompletes : Prop :=
  ∀ (s u : State) (k : Nat) (portB : Bool), s.running = true → u = s.heardOn (.head k) →
    (u.statusUsed k portB = true →
      (∀ recs, exec (.fireAck k ⟨portB, true⟩ recs) s = .next (State.settle
        ((recs.reverse.foldl (fun t f => t.fireRec k f) u).takeoverLines))) ∧
      (∀ lseq l v, u.lineOfSeq lseq = some l → u.crn.groups.any (fun g => g.pend.contains (l.ord, k)) = true →
        exec (.voidAck k ⟨portB, true⟩ lseq v 0) s =
          .next (State.settle (((u.closeLink l.ord k false).mirrorClosed l).voidAnswered l.ord k)) ∧
        ∀ fired, fired ≠ 0 → exec (.voidAck k ⟨portB, true⟩ lseq v fired) s = .next (State.settle
          ((((((u.writeEntries (u.staleEntries k l fired)).event Reg.CRN_EVENT 6).raise Src.CRN_FIRED_STALE).closeLink l.ord k
            (fired = 0xFFFF)).mirrorClosed l).voidAnswered l.ord k))) ∧
      (∀ order o, (u.headlink k).orders.find? (fun o => o.order = order) = some o →
        exec (.orderAck k ⟨portB, true⟩ order 0) s = .next (State.settle
          ((u.updHead k (fun h => { h with orders := h.orders.filter (fun p => p.order != order) })).orderDone k o)) ∧
        ∀ result, result ≠ 0 → exec (.orderAck k ⟨portB, true⟩ order result) s = .next (State.settle
          (((u.updHead k (fun h => { h with orders := h.orders.filter (fun p => p.order != order) })).event Reg.HLK_EVENT 7).raise
            Src.HLK_ORDER_NAK))) ∧
      (∀ recs, exec (.temp k ⟨portB, true⟩ recs) s = .next (State.settle (u.tempFrame k portB recs))) ∧
      (∀ recs, exec (.nozzleFault k ⟨portB, true⟩ recs) s = .next (State.settle
        (recs.foldl (fun t z => t.nozzleOff k z.1 z.2) ((u.event Reg.HLK_EVENT 5).raise Src.HLK_NOZZLE_FAULT)))) ∧
      (∀ code rowmask lseq, exec (.driverFault k ⟨portB, true⟩ code rowmask lseq) s = .next (State.settle
        ((u.event Reg.HLK_EVENT 6).raise Src.HLK_DRIVER_FAULT))) ∧
      (∀ order shots, exec (.testDone k ⟨portB, true⟩ order shots) s = .next (State.settle (u.updHead k (fun h =>
        { h with orders := h.orders.filter (fun o => !(o.order = order && o.typ = 0x24)) }))))) ∧
    (u.linkRate k ≠ 0 → ∀ v, v = State.settle (u.count Reg.HLK_ST_CRC 1) →
      (∀ recs, exec (.fireAck k ⟨portB, false⟩ recs) s = .next v) ∧
      (∀ lseq x y, exec (.voidAck k ⟨portB, false⟩ lseq x y) s = .next v) ∧
      (∀ order r, exec (.orderAck k ⟨portB, false⟩ order r) s = .next v) ∧
      (∀ recs, exec (.temp k ⟨portB, false⟩ recs) s = .next v) ∧
      (∀ recs, exec (.nozzleFault k ⟨portB, false⟩ recs) s = .next v) ∧
      (∀ code m lseq, exec (.driverFault k ⟨portB, false⟩ code m lseq) s = .next v) ∧
      (∀ order n, exec (.testDone k ⟨portB, false⟩ order n) s = .next v)) ∧
    (∀ lseq l, s.lineOfSeq lseq = some l → s.owns = true → s.linkRate k ≠ 0 → k ∉ l.closedLinks → State.rowsDone l = true →
      exec (.fireAckTimeout k lseq) s = .next (State.settle
        (((((s.logLine l.ord 8 0 (rowSpans (List.range 16) (s.linkCol0 k) (s.linkCol1 k)) none).hostLost).closeLink l.ord k false).mirrorClosed
          l).voidAnswered l.ord k)))

/-! ## Motion and positions -/

/-- R255, R264: on a variant with axes the supervisor of a module that does not follow writes an axis limit, which an
axis at rest takes at once and a moving one at the next servo tick; a write of PLN_EDIT keeps the offset and hands its
record to that tick. R253, R259 to R263, R459: in READY an axis whose trajectory has come to its end is at rest at its
target, or where its stop ended; the firing span begins; a col begins behind the last line of the swath in progress; the
servo tick that is due works and sets the next. It rests on choices of the model: log entries 9, 125, 152. -/
def Obligations.PlannerAndMovesComplete : Prop :=
  (∀ (s : State) (w : Nat), s.clk.released = true → s.boot.failed = false → s.hasAxis = true → w = s.super → s.follows = false →
    (∀ a which v, a ≤ 3 → which ≤ 2 → exec (.plnLimitWrite w a which v) s = .next (State.settle (s.limitWrite a which v))) ∧
    (∀ a which v, a ≤ 3 → which ≤ 2 → (s.axis a).moving = false → exec (.plnLimitWrite w a which v) s =
      .next (State.settle (s.setReg (State.limitReg a which) v))) ∧
    (∀ a which v, a ≤ 3 → which ≤ 2 → (s.axis a).moving = true → (s.axis a).pend = [] → (s.axis a).asks = [] →
      exec (.plnLimitWrite w a which v) s = .next (State.settle ((s.setReg (State.limitReg a which) v).updAxis a
        (fun _ => { s.axis a with replan := true, asks := [(which, s.reg (State.limitReg a which))] })))) ∧
    (∀ off r, r = State.planRecord (s.rd (Config.seqPool + fld off 3 20 * 8) 32) → exec (.plnEdit w off) s =
      .next (State.settle { s.setReg Reg.PLN_EDIT (off &&& 0x7FFFF8) with mot := { s.mot with edits := s.mot.edits ++ [r] } }))) ∧
  (∀ (s : State) (t : Nat), s.running = true →
    (∀ a pos u, (s.axis a).moving = true → (s.at_ t).atRest a = true →
      pos = (if (s.axis a).stopping then ((s.at_ t).plannedAt a (s.at_ t).now).pos else (s.axis a).target) →
      u = (((s.at_ t).updAxis a (fun x =>
        { x with pos := pos, vel := 0, acc := 0, target := pos, moving := false, stopping := false, pend := [],
                 segs := [], replan := false, asks := [], restAt := some (s.at_ t).clk.pclk })).stepTo a pos) →
      (a = 2 → u.mot.platformMove = false) → (a = 3 → u.mot.recoats = 0) →
      exec (.axisMoveDone a t) s = .next (State.settle u.startSwath)) ∧
    (∀ w, s.mot.current = some w → s.mot.spanOn = false →
      (s.plans = true → (s.axis 1).moving = false ∧ (s.axis 1).pos = 256 * w.plan.indexTarget) → exec (.firingSpanStart t) s = .next (State.settle
      { s.at_ t with mot := { s.mot with spanOn := true, inCol := false } })) ∧
    (∀ w, s.mot.current = some w → (s.at_ t).lastDone w = true → exec (.colStart t) s = .next (State.settle
      (((s.at_ t).endSwath w).runCol w.plan))) ∧
    ((s.at_ t).clk.nextTick * (s.at_ t).servoPeriod ≤ (s.at_ t).now → exec (.servoTick t) s = .next (State.settle (State.tickWork
      { s.at_ t with clk := { (s.at_ t).clk with nextTick := (s.at_ t).now / (s.at_ t).servoPeriod + 1 } }))))

/-- R267, R277 to R280: a good drive frame shows the drive's state and following error; a step edge moves its axis by
the configured distance inside the soft limits; a stall at load and speed freezes the axis, is raised and faults it
outside homing; after 100 ms at rest a stepper holds and the island takes a homed axis's record. It rests on choices of
the model: log entries 9, 128. -/
def Obligations.DrivesAndSteppersComplete : Prop :=
  ∀ s : State, s.running = true → s.clk.released = true →
    (∀ p f, s.rbit (Reg.PLN_AXP p) 0 = true → s.drives = true → p < 2 → s.driveFrameBad p f = false →
      (fieldLE f 0 2).testBit 2 = false → exec (.axpDriveFrame p f) s = .next (State.settle
        ((State.setReg { s with mot := { s.mot with axpBad := upd s.mot.axpBad p (fun _ => 0) } } (Reg.PLN_AXPSTAT p)
          (BitVec.ofNat 32 (fieldLE f 0 2 + 65536))).setReg (Reg.PLN_FOLERR p) (toWord (fieldLEs f 2 2))))) ∧
    (∀ m up, m < 2 → s.plans = true → s.rbit (Reg.STP_CTRL m) 0 = true → s.homingNow ≠ some (m + 2) →
      exec (.stepEdge m up) s = .next (State.settle (s.startMove (m + 2) (max (256 * s.softLo (m + 2)) (min (256 * s.softHi (m + 2))
        (if up then (s.axis (m + 2)).target + 256 * s.rfld (Reg.STP_CFG m) 16 8
         else (s.axis (m + 2)).target - 256 * s.rfld (Reg.STP_CFG m) 16 8)))))) ∧
    (∀ m load v, m < 2 → (s.axis (m + 2)).moving = true → s.rfld (Reg.STP_STALL m) 0 10 ≤ load.natAbs →
      (s.reg (Reg.STP_SVMIN m)).toNat ≤ (s.axis (m + 2)).vel.natAbs →
      v = (((s.updAxis (m + 2) (fun x => { x with pos := 256 * s.stepAt m })).updStp m (fun p => { p with
        pos := s.stepAt m, elec := uNat 10 (s.stepAt m), stalled := true, hold := true, load := load })).event
          Reg.STP_EVENT m).freezeAxis (m + 2) → v.homingNow ≠ some (m + 2) →
      exec (.stall m load) s = .next (State.settle ((v.raise Src.STP_STALL).axisFault (m + 2)))) ∧
    (∀ m t r, m < 2 → (s.axis (m + 2)).restAt = some r → r + 20000000 ≤ (s.at_ t).clk.pclk →
      exec (.stepperHoldCurrent m t) s = .next (State.settle ((s.at_ t).updStp m (fun p => { p with hold := true })))) ∧
    (∀ a t r, a < 4 → (s.axis a).restAt = some r → s.hasAxis = true → (s.axis a).moving = false → s.homeStat a = 2 →
      r + 20000000 ≤ (s.at_ t).clk.pclk → exec (.axisRecordWrite a t) s = .next (State.settle
        { s.at_ t with island := s.island.take (64 + 16 * a) ++ (s.at_ t).axisRecord a ++ s.island.drop (80 + 16 * a) }))

/-- R281, R282: a switch's change of level is noted and counted, a limit switch that becomes active trips its axis; a
switch with more transitions than it may have is faulty until it recovers. R270, R273, R274: an encoder of the mode that
the sample belongs to takes it: the lines of a quadrature encoder, of which at most one may change; the amplitude
samples and the angle of a sine encoder; the position of a serial one. It rests on choices of the model: log entries
121, 122, 128. -/
def Obligations.SwitchesAndEncodersComplete : Prop :=
  (∀ (s : State) (k : Nat), s.running = true → s.hasAxis = true → k ≤ 7 →
    (∀ level, (s.switchOf k).active ≠ (level != bit (s.reg (Reg.SWI_CFG k)) 5) → fld (s.reg (Reg.SWI_CFG k)) 0 3 ≠ 1 →
      (s.switchOf k).faulty = false →
      ∀ u, u = (State.event { s with swi := upd s.swi k (fun w => { w with active := (level != bit (s.reg (Reg.SWI_CFG k)) 5) }) }
          Reg.SWI_EVENT k).count (Reg.SWI_TRANS k) 1 →
      exec (.switchChange k level) s = .next (State.settle
        (if (fld (s.reg (Reg.SWI_CFG k)) 0 3 = 2 ∨ fld (s.reg (Reg.SWI_CFG k)) 0 3 = 3) ∧
            (level != bit (s.reg (Reg.SWI_CFG k)) 5) = true then u.limitTrip (fld (s.reg (Reg.SWI_CFG k)) 3 2) else u))) ∧
    (∀ n, (s.switchOf k).faulty = false → fld (s.reg (Reg.SWI_CFG k)) 16 8 < n → fld (s.reg (Reg.SWI_CFG k)) 0 3 ≠ 1 →
      ∀ u, u = (State.event { s.count (Reg.SWI_TRANS k) n with swi := upd s.swi k (fun w => { w with faulty := true }) }
          Reg.SWI_EVENT (8 + k)).raise Src.SWI_CHATTER →
      exec (.switchChatter k n) s = .next (State.settle
        (if fld (s.reg (Reg.SWI_CFG k)) 0 3 = 2 ∨ fld (s.reg (Reg.SWI_CFG k)) 0 3 = 3 then
          u.limitTrip (fld (s.reg (Reg.SWI_CFG k)) 3 2) else u))) ∧
    exec (.switchRecover k) s = .next (State.settle { s with swi := upd s.swi k (fun w => { w with faulty := false }) })) ∧
  (∀ (s : State) (u t : Nat), s.clk.released = true → s.boot.failed = false → s.posPresent u = true →
    (∀ a b, posMode s u = 1 → a ≠ (s.posu u).aLine → b = (s.posu u).bLine → exec (.quadEdge u a b t) s =
      .next (State.settle (((s.at_ t).updPos u (fun p => { p with aLine := a, bLine := b })).posEdge u
        ((a = b) != ((s.at_ t).updPos u (fun p => { p with aLine := a, bLine := b })).rbit (Reg.POS_CFG u) 2) t))) ∧
    (∀ a b, posMode s u = 1 → a ≠ (s.posu u).aLine → b ≠ (s.posu u).bLine → exec (.quadEdge u a b t) s =
      .next (State.settle (((s.at_ t).updPos u (fun p => { p with aLine := a, bLine := b })).sameSample u t))) ∧
    (∀ l, posMode s u = 2 → exec (.amplitude u l) s =
      .next (State.settle (l.foldl (fun v p => v.amplitudeSample u p.1 p.2) s))) ∧
    (∀ sn cs, posMode s u = 2 → exec (.sincosSample u sn cs t) s = .next (State.settle ((s.at_ t).sinCos u sn cs t))) ∧
    (∀ raw high, posMode s u = 3 → exec (.ssiRead u raw high t) s = .next (State.settle ((s.at_ t).ssi u raw high t))))

/-- R275: an armed probe whose edge comes captures the position and the time, disarms and tells of it; R276: a
comparator arms against the position as it stands, fires its pulse when the position crosses in its direction, and the
pulse ends. -/
def Obligations.ProbesAndComparatorsComplete : Prop :=
  ∀ (s v : State) (u t : Nat), s.clk.released = true → s.boot.failed = false → s.hasAxis = true → u < 4 → v = s.at_ t →
    (∀ rising x, bit (s.reg (Reg.POS_PRBCTRL u)) 0 = true → bit (s.reg (Reg.POS_PRBCTRL u)) 1 = !rising → x = v.posX u →
      exec (.probeEdge u rising t) s = .next (State.settle
        (((((((v.setReg (Reg.POS_PRB_LO u) (toWord x)).setReg (Reg.POS_PRB_HI u) (toWord (x / 2 ^ 32))).setReg (Reg.POS_PRB_TLO u)
          (BitVec.ofNat 32 v.now)).setReg (Reg.POS_PRB_THI u) (BitVec.ofNat 32 (v.now >>> 32))).setReg (Reg.POS_PRBCTRL u)
          (setBit (s.reg (Reg.POS_PRBCTRL u)) 0 false)).event (Reg.POS_STAT u) 5).event Reg.POS_EVENT u))) ∧
    (∀ hi, exec (.posCmpArm u hi t) s = .next (State.settle (v.compareArm u hi))) ∧
    (∀ ge x, ge = decide ((s.posu u).cmpVal ≤ v.posX u) → (s.posu u).cmpArmed = true → ge ≠ (s.posu u).cmpPrev →
      (fld (s.reg (Reg.POS_CMPCTRL u)) 0 2 = 1 → ge = true) → (fld (s.reg (Reg.POS_CMPCTRL u)) 0 2 = 2 → ge = false) →
      x = (((v.updPos u (fun p => { p with cmpPrev := ge })).updPos u (fun p => { p with
        cmpArmed := false, cmpEnd := some (v.clk.pclk + 8 * max 1 (fld (s.reg (Reg.POS_CMPCTRL u)) 8 8)) })).setReg (Reg.POS_STAT u)
        (setBit (s.reg (Reg.POS_STAT u)) 3 false)) →
      exec (.compareFire u t) s = .next (State.settle ((State.event { x with pins := { s.pins with
        cmpHigh := upd s.pins.cmpHigh u (fun _ => true) } } Reg.POS_EVENT (4 + u)).emit (.comparePulse u true)))) ∧
    (∀ e, (s.posu u).cmpEnd = some e → e ≤ v.clk.pclk → exec (.comparePulseEnd u t) s = .next (State.settle (State.emit
      { v.updPos u (fun p => { p with cmpEnd := none }) with pins := { s.pins with
        cmpHigh := upd s.pins.cmpHigh u (fun _ => false) } } (.comparePulse u false))))

/-! ## Twin pairs and cascades -/

/-- R315: IDLE_ACK acknowledges, which makes room for waiting frames, and says that the link is alive; a frame out of
order only acknowledges, and one that fails its CRC does nothing; every frame that is not acknowledged is sent again and
counted; IDLE_ACK goes out without taking a number; the link is lost; ROLE and TIME go out. R97, R164, R199, R252, R295,
R312: the next frame that mirrors an input or an outcome acts at a module that applies it: segment parts, outcomes,
transmit records, scree entries, actuator records, axes (a joiner whose peer is HELD with homing lost starts its sync
again), link messages, the mirrored trim. It rests on choices of the model: log entries 79, 80, 81, 155, 166. -/
def Obligations.TwinLinkAndMirrorsComplete : Prop :=
  (∀ s : State,
    (∀ tack u, s.twinListens = true → u = s.updLink .twin (fun l => { l with frozen := [] }) →
      exec (.twinIdleAck tack) s = .next (State.settle (State.twinPump { u with twn := { s.twn with
        peerAck := tack, unacked := s.twn.unacked.filter (fun z => !State.seqUpTo z.1 tack) } }))) ∧
    (∀ h pos ridge epoch crc, s.twinListens = true →
      (h.good = true → h.tseq ≠ s.twn.rxNext →
        exec (.twinCrc h pos ridge epoch crc) s = .next (State.settle (s.twinAck h.tack))) ∧
      (h.good = false → exec (.twinCrc h pos ridge epoch crc) s = .next s.settle)) ∧
    (s.twinListens = true → s.twn.unacked ≠ [] → exec .twinRetxTimeout s = .next (State.settle (State.count
      (s.twn.unacked.foldl (fun t z => t.emit (.twinFrame (twinBytes z.2.1 0 z.1 t.twinTack z.2.2))) s) Reg.TWN_RETX
        s.twn.unacked.length))) ∧
    (s.twinListens = true → exec .twinIdleDue s = .next (State.settle
      (s.emit (.twinFrame (twinBytes 0 0 s.twn.txNext s.twinTack []))))) ∧
    (s.clk.released = true → s.boot.failed = false → s.twn.linkUp = true → exec .twinLinkLost s = .next (State.settle
      ((s.updLink .twin (fun k => { k with st := 1, wasActive := false, lostAt := false })).event Reg.LNP_EVENT 1).twinLost)) ∧
    (∀ t u, s.twinListens = true → u = s.at_ t → exec (.twinTimeSend t) s = .next (State.settle
      ((u.twinSend 1 u.roleBody).twinSend 0x0A u.timeBody)))) ∧
  (∀ (s u : State) (h : FrameHdr), s.twinNext h = true → s.twinApplies = true → u = s.twinTaken h →
    (∀ x l part parts segno data, exec (.twinSegment h x l part parts segno data) s =
      .next (State.settle (u.segmentPart x l part parts segno data))) ∧
    (∀ x kind code segno off, exec (.twinOutcome h x kind code segno off) s =
      .next (State.settle (u.outcome x kind code segno off))) ∧
    (∀ recs, exec (.twinTxrec h recs) s = .next (State.settle (recs.foldl (fun v r => v.txRec r) u))) ∧
    (∀ es, exec (.twinScree h es) s = .next (State.settle (es.foldl (fun v e => (v.screePut e).quotaFollows e) u))) ∧
    (∀ r, exec (.twinActrec h r) s = .next (State.settle (u.actRec r))) ∧
    (∀ tick axes st lost w, lost = (fld st 0 3 = Build.HELD && s.mot.bstate != Build.HELD &&
        (List.range 4).any (fun a => s.homeStat a = 2 && !bit st (8 + a))) → w = u.axisFrame axes st →
      exec (.twinAxis h tick axes st) s = .next (State.settle
        (if lost = true ∧ w.twn.role = 4 ∧ w.twn.phase ≠ 0 then w.syncFail 5 else w))) ∧
    (∀ l msg, exec (.twinLinkmsg h l msg) s = .next (State.settle (u.jobMessage l msg))) ∧
    (∀ r v, r < 16 → exec (.twinWrite h (Reg.STB_VTRIM r) v) s = .next (State.settle (u.vtrimWrite r v))))

/-- R292 to R294, R306, R312: a silent peer lowers TPEER, and a standby takes over while a joiner retires; the start-up
wait ends in a decision; a ROLE frame is noted and acted on; the supervisor retires a follower or begins a handover from
an ACTIVE module with a standby; a handover names its tick; a sync that takes too long fails with cause 2. It rests on
choices of the model: log entries 77, 86, 88, 165. -/
def Obligations.TwinRolesComplete : Prop :=
  ∀ s : State, s.clk.released = true → s.boot.failed = false →
    (∀ t, s.twn.role = 3 → exec (.tpeerSilent t) s = .next (State.settle (State.takeover
      { s.at_ t with pins := { s.pins with tpeer := false } }))) ∧
    (∀ t, s.twn.role = 4 → exec (.tpeerSilent t) s = .next (State.settle (((State.event
      { s.at_ t with pins := { s.pins with tpeer := false } } Reg.TWN_EVENT 7).raise Src.TWN_SYNC_FAIL).retire))) ∧
    (s.boot.phase = 11 → s.twn.role = 0 → s.linkActive .twin = false → s.rbit Reg.TWN_CTRL 0 = true →
      exec .twinWaitExpiry s = .next (State.settle (s.decideRole (if s.pins.tpeer then 4 else 1)))) ∧
    (∀ h role slotB tkn variant step compat u v, s.twinNext h = true → u = s.twinTaken h →
      v = { u with
        twn := { u.twn with
          peerRole := role, peerSlotB := some (slotB % 2 = 1), peerVariant := variant, peerStep := step, peerCompat := compat,
          topTkn := if (tkn + 65536 - u.twn.topTkn) % 65536 < 32768 then tkn else u.twn.topTkn },
        pins := { u.pins with tpeer := role = 1 || role = 2 } } →
      exec (.twinRole h role slotB tkn variant step compat) s = .next (State.settle v.compareIds.peerRoleActs.tellIds)) ∧
    (∀ h tick tkn u, s.twinNext h = true → s.twn.role = 3 → u = s.twinTaken h → exec (.twinHandover h tick tkn) s =
      .next (State.settle { u with twn := { u.twn with handover := some tick.toNat, topTkn := (tkn + 65535) % 65536 } })) ∧
    (s.owns = false → s.follows = true → exec (.twnCmdRetire s.super) s = .next (State.settle s.retire)) ∧
    (s.twn.role = 2 → s.twn.peerRole = 3 → s.twn.handover = none → exec (.twnCmdHandover s.super) s =
      .next (State.settle { s with twn := { s.twn with handover := some 0 } })) ∧
    (s.twn.role = 4 → s.twn.phase ≠ 0 → exec .syncTimeout s = .next (State.settle (s.syncFail 2)))

/-- R297: the next CRC frame gives its value to the slice of a line that is compared by twin, or of any line in a
joiner; the value of a line that is not known goes by. R303: a TIME frame's stamp is kept, and in STANDBY and SYNCING
the timebase follows the owner's by half the difference of the two ways. R308, R312: a part of a sync object reaches a
joiner whose sync runs, and an object that does not end with its CRC-32C fails the sync with cause 4, one that does not
fit with cause 6. It rests on choices of the model: log entries 27, 28, 87, 156, 175. -/
def Obligations.TwinFramesComplete : Prop :=
  ∀ (s u : State) (h : FrameHdr), s.twinNext h = true → u = s.twinTaken h →
    (∀ pos i epoch crc,
      (∀ q, s.ordOf pos = some q → s.byTwin pos.layer pos.swath = true ∨ s.twn.role = 4 →
        exec (.twinCrc h pos i epoch crc) s = .next (State.settle (u.valueArrives q i (BitVec.ofNat 8 epoch) crc))) ∧
      (s.ordOf pos = none → exec (.twinCrc h pos i epoch crc) s = .next (State.settle u))) ∧
    (∀ t1 t2 t3 t v w, v = u.at_ t → w = { v with twn := { v.twn with timePeer := some (t3.toNat, v.now) } } →
      (s.follows = true → t1.toNat ≠ 0 ∨ t2.toNat ≠ 0 → exec (.twinTime h t1 t2 t3 t) s = .next (State.settle
        (w.linkTime ((((t2.toNat : Int) - t1.toNat) + ((t3.toNat : Int) - v.now)) / 2) false))) ∧
      (s.follows = false → exec (.twinTime h t1 t2 t3 t) s = .next (State.settle w))) ∧
    (∀ obj last delta off data, exec (.twinSync h obj last delta off data) s =
      .next (State.settle (u.syncPart obj last delta off data))) ∧
    (∀ obj delta data v, s.twn.role = 4 → s.twn.phase = 3 → s.twn.idBad = false → 1 ≤ obj → obj ≤ 9 → obj ≠ 3 → 4 ≤ data.length →
      data.length ≤ s.syncRoom obj →
      leNat (data.drop (data.length - 4)) ≠ (crc32c (data.take (data.length - 4))).toNat →
      v = { u with twn := { u.twn with
        object := obj, copies := (obj, data) :: u.twn.copies.filter (fun z => z.1 != obj),
        done := (u.twn.done + data.length / 1048576) % 65536 } } →
      exec (.twinSync h obj true delta 0 data) s = .next (State.settle (v.syncFail 4))) ∧
    (∀ obj last delta off data, s.twn.role = 4 → s.twn.phase ≠ 0 → s.twn.idBad = false → 1 ≤ obj → obj ≤ 9 →
      s.syncRoom obj < off + data.length → exec (.twinSync h obj last delta off data) s = .next (State.settle (u.syncFail 6)))

/-- R299: a peer's TIEBREAK frame whose KINDS differ from the slice's own explains the mismatch, which is counted and
stays known until the module's own check is out; one with the same KINDS brings the peer's check, and the tie is
resolved once both checks are known. The module's own check of a slice that did not match, by a spare that is at hand,
says 0 when the spare's CRC is the slice's and 1 when not, and goes to the peer. R301, R302: in full shadow the spare's
CRC counts for the shadowed ridge, and for another one the CRC of the ring's bytes and the void records. R317: a cascade
frame that the twin passes on acts at a standby, and at the owner whose own port is down. It rests on choices of the
model: log entry 87. -/
def Obligations.TwinChecksComplete : Prop :=
  ∀ (s u : State) (h : FrameHdr) (pos : BuildPos) (i q : Nat) (k : RLine), u = s.twinTaken h → s.ordOf pos = some q →
    s.rline q i = some k →
    (∀ epoch kinds check, s.twinNext h = true → s.twn.role = 2 ∨ s.twn.role = 3 →
      (k.kinds ≠ kinds → exec (.twinTiebreak h pos i epoch kinds check) s =
        .next (State.settle (State.count (if s.twn.ties.any (fun t => t.pos = pos && t.ridge = i && t.own.isSome) then u.dropTie pos i
          else (u.openTie pos i).updTie pos i (fun t => { t with peer := some 3 })) Reg.TWN_EXPLAINED 1))) ∧
      (k.kinds = kinds → exec (.twinTiebreak h pos i epoch kinds check) s =
        .next (State.settle (((u.openTie pos i).updTie pos i (fun t => { t with peer := some check })).resolveTie pos i)))) ∧
    (∀ v c, s.running = true → s.twn.role = 2 ∨ s.twn.role = 3 → k.mismatch = true → s.rdg.rotHalt = false → s.rdg.inBist = none →
      s.rdg.spare.isSome = true → (∀ t ∈ s.twn.ties, t.peer ≠ some 3) → c = (if k.crc = some v then 0 else 1) →
      exec (.tiebreakCheck pos i (some v)) s = .next (State.settle
        ((((s.openTie pos i).updTie pos i (fun t => { t with own := some c })).twinSend 0x0E
          (leBytes 4 pos.layer ++ leBytes 2 pos.swath ++ leBytes 1 i ++ leBytes 1 k.epoch.toNat ++ leBytes 4 (uNat 32 pos.line) ++
            leBytes 4 k.kinds.toNat ++ leBytes 1 c ++ List.replicate 7 0)).resolveTie pos i))) ∧
    (∀ p, s.running = true → s.planOf pos.layer pos.swath = some p → s.owns = true → s.byTwin pos.layer pos.swath = false → k.st = 2 →
      (∀ v, i = p.swtag % s.ridgeCount → s.rdg.rotHalt = false → s.rdg.spare.isSome = true →
        exec (.shadowValue i pos (some v)) s = .next (State.settle (s.valueArrives q i k.epoch v))) ∧
      (∀ sp, i ≠ p.swtag % s.ridgeCount ∨ s.rdg.rotHalt = true ∨ s.rdg.spare = none →
        exec (.shadowValue i pos sp) s =
          .next (State.settle (s.valueArrives q i k.epoch (sliceCrc (s.ringSlice q i).1 k.voids))))) ∧
    (∀ typ frame, s.twinNext h = true →
      (typ = 0x0B ∨ typ = 1 → s.twinApplies = true ∨ (s.owns = true ∧ (s.cscPort true).up = false) →
        exec (.twinCascade h typ frame) s = .next (State.settle (u.cscBody true (fieldLE frame 2 1 % 8) typ (frame.drop 16)))) ∧
      (typ ≠ 0x0B → typ ≠ 1 → (fieldLE frame 14 2 + 65536 - s.csc.ltkn) % 65536 < 32768 →
        s.twinApplies = true ∨ (s.owns = true ∧ (s.cscPort false).up = false) → exec (.twinCascade h typ frame) s = .next (State.settle
          (State.cscBody { u with csc := { u.csc with ltkn := fieldLE frame 14 2 } } false (fieldLE frame 2 1 % 8) typ (frame.drop 16)))))

/-- R326: IDLE_ACK acknowledges, and says that the port is alive; every frame of a port that is not acknowledged is sent
again and counted; IDLE_ACK goes out without taking a number; a silent port goes down; R515: a follower that has not
joined asks to. It rests on choices of the model: log entry 78. -/
def Obligations.CascadePortsComplete : Prop :=
  ∀ (s : State) (down : Bool) (k : LinkId), k = (if down then .cdn else .cup) →
    (∀ h : CscHdr, h.down = down → h.good = true → s.cscListens down = true → exec (.cscIdleAck h) s =
      .next (State.settle (((s.updLink k (fun l => { l with frozen := [] })).updCsc down (fun p =>
        { p with peerAck := h.tack, unacked := p.unacked.filter (fun z => !State.seqUpTo z.seq h.tack) })).cscPump down))) ∧
    (s.cscListens down = true → (s.cscPort down).unacked ≠ [] → exec (.cscRetxTimeout down) s = .next (State.settle (State.count
      ((s.cscPort down).unacked.foldl (fun t f => t.cscEmit down f) s) Reg.CSC_RETX (s.cscPort down).unacked.length))) ∧
    (s.cscListens down = true → exec (.cscIdleDue down) s = .next (State.settle (s.emit (.cscFrame down
      (cscBytes 0 s.pins.cpos (s.cscPort down).txNext (s.cscAckNo down) s.ownLtkn []))))) ∧
    (s.clk.released = true → s.boot.failed = false → (s.cscPort down).up = true → exec (.cscLinkSilent down) s =
      .next (State.settle (((s.updLink k (fun k =>
        { k with st := 1, wasActive := false, lostAt := false })).event Reg.LNP_EVENT 1).portLost down))) ∧
    (s.clk.released = true → s.boot.failed = false → s.isLead = false → s.csc.upPort.up = true → 12 ≤ s.boot.phase →
      s.csc.jstate = 0 → exec .joinRetry s = .next (State.settle (State.cscSend
        { s with csc := { s.csc with jstate := 1, refused := false } } false 1
        (leBytes 1 s.pins.cpos ++ [if s.pins.tws then 1 else 0] ++ leBytes 1 s.die.variant ++ [if s.hasAxis then 1 else 0] ++
          leBytes 4 (s.reg Reg.BCL_COMPAT).toNat))))

/-- R318 to R325: the next frame of the up port of a module that owns its outputs is sent on, mirrored, and acts. At a
member: a swath plan with this position's transforms joins its queue, an edit, a mode setting or its cancellation, the
lead's axes, a col's begin and end, a swath gate and a build state take effect, and a heartbeat is answered with a
REPORT and a TIME exchange. R320: at a follower that has asked to join, an acceptance begins the TIME exchanges and a
refusal is raised. R321: the answer to its own TIME closes the exchange. It rests on choices of the model: log entries
28, 30, 82, 85, 162. -/
def Obligations.CascadeMembersComplete : Prop :=
  ∀ (s : State) (h : CscHdr), s.cscNext h = true → h.down = false → s.follows = false → s.isLead = false →
    (∀ v, s.csc.jstate = 1 → v = s.cscArrived h 2 (leBytes 1 s.pins.cpos ++ leBytes 1 0 ++ List.replicate 6 0) →
      exec (.cscAccept h s.pins.cpos 0) s = .next (State.settle
        (State.askTime { v with csc := { v.csc with jstate := 2, exchanges := 0, goodTimes := 0 } }))) ∧
    (∀ v, s.csc.jstate = 1 → v = s.cscArrived h 2 (leBytes 1 s.pins.cpos ++ leBytes 1 1 ++ List.replicate 6 0) →
      exec (.cscAccept h s.pins.cpos 1) s = .next (State.settle
        ((State.event { v with csc := { v.csc with jstate := 0, refused := true } } Reg.CSC_EVENT 3).raise Src.CSC_CSC_REFUSED))) ∧
    (∀ t1 t2 t3 hop t v, 2 ≤ s.csc.jstate → s.csc.timeAsked = some t1.toNat →
      v = s.cscArrived h 3 (leBytes 8 t1.toNat ++ leBytes 8 t2.toNat ++ leBytes 8 t3.toNat ++ leBytes 8 hop) →
      exec (.cscTime h t1 t2 t3 hop t) s = .next (State.settle ((v.at_ t).timeExchange t1.toNat t2.toNat t3.toNat hop))) ∧
    (s.csc.jstate = 3 →
      (∀ p, exec (.cscPlan h p) s = .next (State.settle ((s.cscArrived h 4 (planBytes p)).planArrives p))) ∧
      (∀ p, exec (.cscEdit h p) s = .next (State.settle ((s.cscArrived h 5 (planBytes p)).editArrives p))) ∧
      (∀ m ap, exec (.cscMode h m ap false) s = .next (State.settle ((s.cscArrived h 6 (modeBytes m ap false)).applySetting 0 0 m ap))) ∧
      (∀ m ap v, v = s.cscArrived h 6 (modeBytes m ap true) → exec (.cscMode h m ap true) s = .next (State.settle
        ((v.waiting.filter (fun c => c.ctx = 0 && c.setting = m && c.at_ = ap)).foldl (fun w c => w.cancelOne c) v))) ∧
      (∀ tick axes st, exec (.cscAxis h tick axes st) s = .next (State.settle
        ((s.cscArrived h 7 (axesBody tick axes st)).carriageAxes axes st))) ∧
      (∀ tag v, v = s.cscArrived h 8 (leBytes 2 tag ++ leBytes 1 0 ++ List.replicate 5 0) →
        exec (.cscCol h tag 0) s = .next (State.settle v.colBegins)) ∧
      (∀ tag v, v = s.cscArrived h 8 (leBytes 2 tag ++ leBytes 1 1 ++ List.replicate 5 0) →
        exec (.cscCol h tag 1) s = .next (State.settle (State.startSwath { v with act := { v.act with hold := none } }))) ∧
      (∀ layer swath w v, v = s.cscArrived h 9 (swgateBytes layer swath) →
        v.planned.find? (fun w => w.plan.layer = layer && w.plan.swath = swath) = some w →
        exec (.cscSwgate h layer swath) s = .next (State.settle ((v.event Reg.CSC_EVENT 0).closeSwath w))) ∧
      (∀ b cause, exec (.cscState h b cause) s = .next (State.settle
        ((s.cscArrived h 0x0A (leBytes 1 b ++ leBytes 1 cause ++ List.replicate 6 0)).stateArrives b cause))) ∧
      (∀ tick, exec (.cscHb h tick) s = .next (State.settle
        (((s.cscArrived h 0x0C (leBytes 8 tick.toNat)).cscSend false 0x0B (reportBytes 3 0 0 0)).askTime))))

/-- R320, R322, R324, R325: a JOIN that reaches the lead for a position in MEMBERS that is not taken, with the lead's
image, is accepted, and another one refused; a REPORT acts there; a member that loses its lead is alone again; a lead
that loses a member forgets it, raises CSC_LOST and holds its gate. It rests on choices of the model: log entries 28,
30, 84. -/
def Obligations.CascadeLeadCompletes : Prop :=
  ∀ (s v : State),
    (∀ h cpos tws variant axis compat, s.cscNext h = true → h.down = true → s.follows = false → s.isLead = true →
      v = s.cscArrived h 1 (leBytes 1 cpos ++ leBytes 1 tws ++ leBytes 1 variant ++ leBytes 1 axis ++ leBytes 4 compat.toNat) →
      (1 ≤ cpos → cpos < 8 → s.rbit Reg.CSC_CTRL cpos = true → s.csc.slots.contains (cpos, tws) = false →
        compat = s.reg Reg.BCL_COMPAT → exec (.cscJoin h cpos tws variant axis compat) s = .next (State.settle
          (State.cscSend { v with csc := { v.csc with slots := v.csc.slots ++ [(cpos, tws)] } } true 2
            (leBytes 1 cpos ++ leBytes 1 0 ++ List.replicate 6 0)))) ∧
      (cpos = 0 ∨ 8 ≤ cpos ∨ s.rbit Reg.CSC_CTRL cpos = false ∨ s.csc.slots.contains (cpos, tws) = true ∨
          compat ≠ s.reg Reg.BCL_COMPAT → exec (.cscJoin h cpos tws variant axis compat) s = .next (State.settle
        (v.cscSend true 2 (leBytes 1 cpos ++ leBytes 1 1 ++ List.replicate 6 0))))) ∧
    (∀ h kind code swath layer, s.cscNext h = true → h.down = true → s.follows = false → s.isLead = true →
      exec (.cscReport h kind code swath layer) s = .next (State.settle
        ((s.cscArrived h 0x0B (reportBytes kind code swath layer)).reportArrives h.origin kind swath layer))) ∧
    (s.clk.released = true → s.boot.failed = false → s.isMember = true → exec .leadLost s = .next (State.settle
      ((State.event { s with csc := { s.csc with jstate := 0 } } Reg.CSC_EVENT 2).raise Src.CSC_LEAD_LOST))) ∧
    (∀ pos, s.clk.released = true → s.boot.failed = false → s.isLead = true → bit s.csc.joined pos = true →
      v = ((State.event { s with csc := { s.csc with joined := setBit s.csc.joined pos false, slots := s.csc.slots.filter (fun z => z.1 != pos) } }
        Reg.CSC_EVENT 2).raise Src.CSC_CSC_LOST).gateByMembers →
      exec (.cscLost pos) s = .next (State.settle (if v.mot.bstate = Build.HELD then v.distribute 0x0A v.stateBody else v.enterHeld)))

/-! ## Contexts and their instructions -/

/-- R344: an instruction with register operands only, fetched into a state in which nothing is due, changes its own
context's destination register, flags, PC and beat: memory, the control registers, the pins, the other contexts and the
other registers of its own stay, and the flags too where the spec names none. -/
def Obligations.RegisterInstructionsFrame : Prop :=
  ∀ (s u t : State) (c : Nat) (rd ra rb : Fin 16) (imm : BitVec 18) (m : Fin 64) (k : BitVec 16) (i : Instr),
    s.fetched c u → u.quiet →
    i ∈ [.add c rd ra rb, .sub c rd ra rb, .addi c rd ra imm, .and c rd ra rb, .or c rd ra rb, .xor c rd ra rb,
      .andi c rd ra imm, .ori c rd ra imm, .xori c rd ra imm, .shl c rd ra rb, .shr c rd ra rb, .sar c rd ra rb,
      .shli c rd ra m, .shri c rd ra m, .sari c rd ra m, .mul c rd ra rb, .mulhu c rd ra rb, .mulhs c rd ra rb,
      .divu c rd ra rb, .divs c rd ra rb, .remu c rd ra rb, .kset c rd k, .kapp c rd k, .cmp c ra rb, .cmpi c ra imm,
      .tst c ra rb, .nop c] →
    exec i s = .next t →
    t.mem = u.mem ∧ t.regs = u.regs ∧ t.pins = u.pins ∧ t.saf = u.saf ∧ t.mot = u.mot ∧ t.out = u.out ∧
    (∀ a, t.rdByte a = u.rdByte a) ∧
    (∀ x, x ≠ c → t.ctx x = u.ctx x) ∧ (∀ r : Fin 16, r ≠ rd → t.getK c r = u.getK c r) ∧
    (i ∈ [.cmp c ra rb, .cmpi c ra imm, .tst c ra rb, .nop c] → ∀ r : Fin 16, t.getK c r = u.getK c r) ∧
    (i ∈ [.kset c rd k, .kapp c rd k, .nop c] → Ctx.flags (t.ctx c) = Ctx.flags (u.ctx c)) ∧
    (t.ctx c).tvec = (u.ctx c).tvec ∧ (t.ctx c).tpc = (u.ctx c).tpc ∧ (t.ctx c).intrap = (u.ctx c).intrap ∧
    (t.ctx c).evpend = (u.ctx c).evpend ∧ (t.ctx c).rstate = (u.ctx c).rstate ∧ (t.ctx c).timer = (u.ctx c).timer

/-- R337, R344: an aligned store into the SEQ pool changes the bytes it stores to and nothing else of memory, no
register of the context or of another, no flag and no control register. -/
def Obligations.StoreInstructionsFrame : Prop :=
  ∀ (s u w t : State) (c pa n : Nat) (rd ra : Fin 16) (imm : BitVec 18) (va : BitVec 64) (i : Instr), s.fetched c u →
    va = u.getK c ra + imm.signExtend 64 → u.translate c va.toNat .write .sequencer = (w, .ok pa) →
    accessPlace pa = .seqPool → va.toNat % n = 0 → w.quiet →
    (i, n) ∈ [(Instr.stb c rd ra imm, 1), (.sth c rd ra imm, 2), (.stw c rd ra imm, 4), (.std c rd ra imm, 8)] →
    exec i s = .next t →
    (∀ a, (a < pa ∨ pa + n ≤ a) → t.rdByte a = w.rdByte a) ∧ t.regs = w.regs ∧ t.pins = w.pins ∧
    (∀ x, x ≠ c → t.ctx x = w.ctx x) ∧ (∀ r : Fin 16, t.getK c r = w.getK c r) ∧
    Ctx.flags (t.ctx c) = Ctx.flags (w.ctx c) ∧ (t.ctx c).tvec = (w.ctx c).tvec ∧ (t.ctx c).intrap = (w.ctx c).intrap

/-- R334 to R336: a free pair takes the READY context of highest priority; a quantum ends in a yield; a waiting context
of higher priority takes the pair of the running context of lowest priority. R332, R356: SEQ_CCMD halts, resumes,
restarts and sets the priority of a context that has a START and is not the supervisor; for context 0, the supervisor or
a context without START it only sets its event. It rests on choices of the model: log entry 15. -/
def Obligations.SchedulingAndCommandsComplete : Prop :=
  (∀ s : State, s.clk.released = true → s.boot.failed = false →
    (∀ p c, s.seq.pairs.findIdx? (fun p => p.inService && p.running = 0) = some p → s.nextReady = some c →
      exec .dispatch s = .next (State.settle (State.count { s with seq := { s.seq with
        ctxs := upd s.seq.ctxs c (fun k => { k with rstate := 2 }), ready := s.seq.ready.filter (· != c),
        pairs := s.seq.pairs.modify p (fun q => { q with running := c, used := 0 }) } } Reg.SEQ_SWITCHES 1))) ∧
    (∀ i p, s.seq.pairs[i]? = some p → p.running ≠ 0 → exec (.quantumExpiry i) s = .next (State.settle (s.yieldCtx p.running))) ∧
    (∀ v c, s.seq.pairs.any (fun p => p.inService && p.running = 0) = false → s.preemptVictim = some v → s.nextReady = some c →
      (s.ctx v).prio < (s.ctx c).prio → exec .preempt s = .next (State.settle ((s.switchOut v).count Reg.SEQ_PREEMPTS 1)))) ∧
  (∀ (s : State) (x : Nat), s.clk.released = true → s.boot.failed = false →
    (x ≠ 0 → x ≠ s.super → (s.ctx x).start ≠ 0 →
      ((s.ctx x).rstate ≠ 0 → exec (.ccmdHalt x) s = .next (State.settle (s.haltCtx x))) ∧
      ((s.ctx x).rstate = 4 → exec (.ccmdResume x) s = .next (State.settle (s.makeReady x))) ∧
      exec (.ccmdRestart x) s = .next (State.settle (s.startCtx x)) ∧
      (∀ prio, (s.ctx x).rstate ≠ 0 → exec (.ccmdPrio x prio) s =
        .next (State.settle (s.updCtx x (fun k => { k with prio := prio % 8 }))))) ∧
    (x = 0 ∨ x = s.super ∨ (s.ctx x).start = 0 →
      exec (.ccmdHalt x) s = .next (State.settle (s.event Reg.SEQ_EVENT 3)) ∧
      exec (.ccmdResume x) s = .next (State.settle (s.event Reg.SEQ_EVENT 3)) ∧
      exec (.ccmdRestart x) s = .next (State.settle (s.event Reg.SEQ_EVENT 3)) ∧
      ∀ prio, exec (.ccmdPrio x prio) s = .next (State.settle (s.event Reg.SEQ_EVENT 3))))

/-- R329, R340, R342, R351, R352, R354, R355: the supervisor takes a pending NMI; a timer that has run out raises TIMER;
a context's watchdog, a timed-out access and an illegal word trap the context; the supervisor's watchdog and a failing
lockstep pair are raised. It rests on choices of the model: log entries 16, 17. -/
def Obligations.ContextEventsComplete : Prop :=
  ∀ s : State, s.clk.released = true → s.boot.failed = false →
    (∀ m vec, s.seq.nmi = some m → (s.ctx s.super).rstate = 2 → (s.ctx s.super).innmi = false →
      vec = BitVec.ofNat 64 ((s.reg Reg.SEQ_NVEC_LO).toNat + 2 ^ 32 * (s.reg Reg.SEQ_NVEC_HI).toNat) →
      exec .nmiTaken s = .next (State.settle (State.count { s with seq := { s.seq with
        nmi := none,
        ctxs := upd s.seq.ctxs s.super (fun k => { k with
          npc := k.pc, nstat := BitVec.ofNat 16 ((Ctx.flags k).toNat + 256 * k.beat), innmi := true, pc := vec, beat := 0 }) } }
        Reg.SEQ_TRAPS 1))) ∧
    (∀ c t, (s.ctx c).timer ≠ 0 → (s.ctx c).timer.toNat ≤ (s.at_ t).now → exec (.timerExpiry c t) s =
      .next (State.settle (((s.at_ t).updCtx c (fun k => { k with timer := 0 })).raiseEvent c 4))) ∧
    (∀ c, c ≠ 0 → (s.ctx c).wdog ≠ 0 → ((s.ctx c).rstate = 1 ∨ (s.ctx c).rstate = 2) → exec (.contextWatchdog c) s =
      .next (State.settle ((s.trap c Cause.WATCHDOG 0).updCtx c (fun k => { k with wdLeft := k.wdog })))) ∧
    exec .supWatchdog s = .next (State.settle ((s.event Reg.SEQ_EVENT 2).raiseFor Src.SEQ_SUP_WDOG s.super)) ∧
    (∀ i p, s.seq.pairs[i]? = some p → bit s.seq.retired i = false → exec (.lockstepFail i) s =
      .next (State.settle (((s.pairLeaves i).event Reg.SEQ_EVENT 0).raiseFor Src.SEQ_LOCKSTEP p.running).lastPair)) ∧
    (∀ c u, c ≠ 0 → (s.ctx c).rstate = 2 → u = { s with draws := s.draws + 2 } → exec (.accessTimeout c) s =
      .next (State.settle (State.trap (if bit (Config.freeValue (s.draws + 1)) 0 then u.lateStore c else u) c Cause.BUSERR
        (Config.freeValue s.draws)))) ∧
    (∀ c w, c ≠ 0 → (s.ctx c).rstate = 2 → exec (.illegalInstruction c w) s =
      .next (State.settle (s.trap c Cause.ILLEGAL (BitVec.ofNat 64 w.toNat))))

/-- R343, R344: ADD and SUB write the sum and the difference modulo 2⁶⁴; Z and N are of the result, C is the carry out
of bit 63 or the absence of a borrow, V is signed overflow. ADDI sign-extends its immediate. CMP and CMPI set the flags
of the difference alone. Nothing else of the context changes but PC. R344: AND, OR, XOR and TST, and with a
zero-extended immediate ANDI, ORI and XORI, set Z and N and leave C and V. R344: KSET loads a sign-extended constant and
KAPP appends 16 bits below rd; both leave the flags. NOP only goes on. -/
def Obligations.SumsBitsAndConstants : Prop :=
  (∀ (s u : State) (c : Nat) (rd ra rb : Fin 16) (imm : BitVec 18) (a b i : BitVec 64), s.fetched c u →
    a = u.getK c ra → b = u.getK c rb → i = imm.signExtend 64 →
    exec (.add c rd ra rb) s = .next (State.settle ((u.updCtx c (fun k => k.result rd (a + b) (a + b = 0) (bit (a + b) 63)
      (decide (2 ^ 64 ≤ a.toNat + b.toNat)) (bit a 63 = bit b 63 && bit (a + b) 63 != bit a 63))).spend c 1)) ∧
    exec (.addi c rd ra imm) s = .next (State.settle ((u.updCtx c (fun k => k.result rd (a + i) (a + i = 0) (bit (a + i) 63)
      (decide (2 ^ 64 ≤ a.toNat + i.toNat)) (bit a 63 = bit i 63 && bit (a + i) 63 != bit a 63))).spend c 1)) ∧
    exec (.sub c rd ra rb) s = .next (State.settle ((u.updCtx c (fun k => k.result rd (a - b) (a - b = 0) (bit (a - b) 63)
      (decide (b.toNat ≤ a.toNat)) (bit a 63 != bit b 63 && bit (a - b) 63 != bit a 63))).spend c 1)) ∧
    exec (.cmp c ra rb) s = .next (State.settle ((u.updCtx c (fun k => k.tested (a - b = 0) (bit (a - b) 63)
      (decide (b.toNat ≤ a.toNat)) (bit a 63 != bit b 63 && bit (a - b) 63 != bit a 63))).spend c 1)) ∧
    exec (.cmpi c ra imm) s = .next (State.settle ((u.updCtx c (fun k => k.tested (a - i = 0) (bit (a - i) 63)
      (decide (i.toNat ≤ a.toNat)) (bit a 63 != bit i 63 && bit (a - i) 63 != bit a 63))).spend c 1))) ∧
  (∀ (s u : State) (c : Nat) (rd ra rb : Fin 16) (imm : BitVec 18) (a b i : BitVec 64), s.fetched c u →
    a = u.getK c ra → b = u.getK c rb → i = imm.zeroExtend 64 →
    exec (.and c rd ra rb) s = .next (State.settle ((u.updCtx c (fun k =>
      k.result rd (a &&& b) (a &&& b = 0) (bit (a &&& b) 63) k.c k.v)).spend c 1)) ∧
    exec (.or c rd ra rb) s = .next (State.settle ((u.updCtx c (fun k =>
      k.result rd (a ||| b) (a ||| b = 0) (bit (a ||| b) 63) k.c k.v)).spend c 1)) ∧
    exec (.xor c rd ra rb) s = .next (State.settle ((u.updCtx c (fun k =>
      k.result rd (a ^^^ b) (a ^^^ b = 0) (bit (a ^^^ b) 63) k.c k.v)).spend c 1)) ∧
    exec (.andi c rd ra imm) s = .next (State.settle ((u.updCtx c (fun k =>
      k.result rd (a &&& i) (a &&& i = 0) (bit (a &&& i) 63) k.c k.v)).spend c 1)) ∧
    exec (.ori c rd ra imm) s = .next (State.settle ((u.updCtx c (fun k =>
      k.result rd (a ||| i) (a ||| i = 0) (bit (a ||| i) 63) k.c k.v)).spend c 1)) ∧
    exec (.xori c rd ra imm) s = .next (State.settle ((u.updCtx c (fun k =>
      k.result rd (a ^^^ i) (a ^^^ i = 0) (bit (a ^^^ i) 63) k.c k.v)).spend c 1)) ∧
    exec (.tst c ra rb) s = .next (State.settle ((u.updCtx c (fun k =>
      k.tested (a &&& b = 0) (bit (a &&& b) 63) k.c k.v)).spend c 1))) ∧
  (∀ (s u : State) (c : Nat) (rd : Fin 16) (imm : BitVec 16), s.fetched c u →
    exec (.kset c rd imm) s = .next (State.settle ((u.updCtx c (fun k =>
      { k with k := k.k.set rd (imm.signExtend 64), pc := k.pc + 4, beat := 0 })).spend c 1)) ∧
    exec (.kapp c rd imm) s = .next (State.settle ((u.updCtx c (fun k =>
      { k with k := k.k.set rd ((u.getK c rd <<< 16) ||| imm.zeroExtend 64), pc := k.pc + 4, beat := 0 })).spend c 1)) ∧
    exec (.nop c) s = .next (State.settle ((u.updCtx c (fun k => { k with pc := k.pc + 4, beat := 0 })).spend c 1)))

/-- R343, R344: a shift by n from 0 to 63, of rb [5:0] or the immediate: C is the last bit shifted out and is unchanged
when n is 0; SAR fills with the sign; V is unchanged. R344: MUL gives the low and MULHU and MULHS the high 64 bits of
the product; a divisor of 0 gives all ones, and for REMU the dividend, and sets V; −2⁶³ by −1 gives −2⁶³ and sets V;
every other division clears V. C is unchanged. -/
def Obligations.ShiftsProductsAndQuotients : Prop :=
  (∀ (s u : State) (c : Nat) (rd ra rb : Fin 16) (m : Fin 64) (a : BitVec 64) (n : Nat), s.fetched c u →
    a = u.getK c ra → n = fld (u.getK c rb) 0 6 →
    exec (.shl c rd ra rb) s = .next (State.settle ((u.updCtx c (fun k => k.result rd (a <<< n) (a <<< n = 0) (bit (a <<< n) 63)
      (if n = 0 then k.c else bit a (64 - n)) k.v)).spend c 1)) ∧
    exec (.shr c rd ra rb) s = .next (State.settle ((u.updCtx c (fun k => k.result rd (a >>> n) (a >>> n = 0) (bit (a >>> n) 63)
      (if n = 0 then k.c else bit a (n - 1)) k.v)).spend c 1)) ∧
    exec (.sar c rd ra rb) s = .next (State.settle ((u.updCtx c (fun k => k.result rd (a.sshiftRight n) (a.sshiftRight n = 0)
      (bit (a.sshiftRight n) 63) (if n = 0 then k.c else bit a (n - 1)) k.v)).spend c 1)) ∧
    exec (.shli c rd ra m) s = .next (State.settle ((u.updCtx c (fun k => k.result rd (a <<< m.val) (a <<< m.val = 0)
      (bit (a <<< m.val) 63) (if m.val = 0 then k.c else bit a (64 - m.val)) k.v)).spend c 1)) ∧
    exec (.shri c rd ra m) s = .next (State.settle ((u.updCtx c (fun k => k.result rd (a >>> m.val) (a >>> m.val = 0)
      (bit (a >>> m.val) 63) (if m.val = 0 then k.c else bit a (m.val - 1)) k.v)).spend c 1)) ∧
    exec (.sari c rd ra m) s = .next (State.settle ((u.updCtx c (fun k => k.result rd (a.sshiftRight m.val)
      (a.sshiftRight m.val = 0) (bit (a.sshiftRight m.val) 63) (if m.val = 0 then k.c else bit a (m.val - 1)) k.v)).spend c 1))) ∧
  (∀ (s u : State) (c : Nat) (rd ra rb : Fin 16) (a b p q : BitVec 64), s.fetched c u → a = u.getK c ra → b = u.getK c rb →
    exec (.mul c rd ra rb) s = .next (State.settle ((u.updCtx c (fun k =>
      k.result rd (a * b) (a * b = 0) (bit (a * b) 63) k.c k.v)).spend c 3)) ∧
    (p = BitVec.ofNat 64 (a.toNat * b.toNat / 2 ^ 64) → exec (.mulhu c rd ra rb) s = .next (State.settle ((u.updCtx c (fun k =>
      k.result rd p (p = 0) (bit p 63) k.c k.v)).spend c 3))) ∧
    (p = BitVec.ofInt 64 (a.toInt * b.toInt / 2 ^ 64) → exec (.mulhs c rd ra rb) s = .next (State.settle ((u.updCtx c (fun k =>
      k.result rd p (p = 0) (bit p 63) k.c k.v)).spend c 3))) ∧
    (b = 0 → exec (.divu c rd ra rb) s = .next (State.settle ((u.updCtx c (fun k =>
        k.result rd (BitVec.allOnes 64) false true k.c true)).spend c 34)) ∧
      exec (.divs c rd ra rb) s = .next (State.settle ((u.updCtx c (fun k =>
        k.result rd (BitVec.allOnes 64) false true k.c true)).spend c 34)) ∧
      exec (.remu c rd ra rb) s = .next (State.settle ((u.updCtx c (fun k =>
        k.result rd a (a = 0) (bit a 63) k.c true)).spend c 34))) ∧
    (b ≠ 0 → (q = BitVec.ofNat 64 (a.toNat / b.toNat) → exec (.divu c rd ra rb) s = .next (State.settle ((u.updCtx c (fun k =>
        k.result rd q (q = 0) (bit q 63) k.c false)).spend c 34))) ∧
      (q = BitVec.ofNat 64 (a.toNat % b.toNat) → exec (.remu c rd ra rb) s = .next (State.settle ((u.updCtx c (fun k =>
        k.result rd q (q = 0) (bit q 63) k.c false)).spend c 34))) ∧
      (q = BitVec.ofInt 64 (Int.tdiv a.toInt b.toInt) → (a ≠ BitVec.ofNat 64 (2 ^ 63) ∨ b ≠ BitVec.allOnes 64) →
        exec (.divs c rd ra rb) s = .next (State.settle ((u.updCtx c (fun k =>
          k.result rd q (q = 0) (bit q 63) k.c false)).spend c 34)))) ∧
    (a = BitVec.ofNat 64 (2 ^ 63) → b = BitVec.allOnes 64 → exec (.divs c rd ra rb) s = .next (State.settle ((u.updCtx c (fun k =>
      k.result rd a false true k.c true)).spend c 34))))

/-- R337, R344: an aligned load whose address a cached leaf maps into an SRAM pool, to bytes without an error, writes
its register with 1, 2, 4 or 8 bytes, extended with zeros or with the sign, and nothing else of memory or of the context
but PC; LDW also reads a register of control space: one that is not listed reads 0, a read-clears one is cleared, and a
LO half captures its HI half. -/
def Obligations.LoadsComplete : Prop :=
  ∀ (s u : State) (c pa : Nat) (rd ra : Fin 16) (imm : BitVec 18) (va : BitVec 64), s.fetched c u →
    va = u.getK c ra + imm.signExtend 64 → u.mapped c va.toNat .read pa →
    (accessPlace pa = .seqPool ∨ accessPlace pa = .otherPool →
      (u.cleanAt pa 1 →
        exec (.ldb c rd ra imm) s = .next (State.settle ((u.setK c rd (BitVec.ofNat 64 (leNat (u.rd pa 1)))).nextPc c 4)) ∧
        exec (.ldbs c rd ra imm) s =
          .next (State.settle ((u.setK c rd ((BitVec.ofNat 8 (leNat (u.rd pa 1))).signExtend 64)).nextPc c 4))) ∧
      (va.toNat % 2 = 0 → u.cleanAt pa 2 →
        exec (.ldh c rd ra imm) s = .next (State.settle ((u.setK c rd (BitVec.ofNat 64 (leNat (u.rd pa 2)))).nextPc c 4)) ∧
        exec (.ldhs c rd ra imm) s =
          .next (State.settle ((u.setK c rd ((BitVec.ofNat 16 (leNat (u.rd pa 2))).signExtend 64)).nextPc c 4))) ∧
      (va.toNat % 4 = 0 → u.cleanAt pa 4 →
        exec (.ldw c rd ra imm) s = .next (State.settle ((u.setK c rd (BitVec.ofNat 64 (leNat (u.rd pa 4)))).nextPc c 4)) ∧
        exec (.ldws c rd ra imm) s =
          .next (State.settle ((u.setK c rd ((BitVec.ofNat 32 (leNat (u.rd pa 4))).signExtend 64)).nextPc c 4))) ∧
      (va.toNat % 8 = 0 → u.cleanAt pa 8 →
        exec (.ldd c rd ra imm) s = .next (State.settle ((u.setK c rd (BitVec.ofNat 64 (leNat (u.rd pa 8)))).nextPc c 4)))) ∧
    (va.toNat % 4 = 0 → accessPlace pa = .control → u.unitPresent (State.unitOf pa) = true →
      (findReg (State.unitOf pa) pa = none → exec (.ldw c rd ra imm) s = .next (State.settle ((u.setK c rd 0).nextPc c 24))) ∧
      (∀ d, findReg (State.unitOf pa) pa = some d → exec (.ldw c rd ra imm) s = .next (State.settle
        (((if d.access = .rc then u.setReg pa 0 else u.capture pa).setK c rd (BitVec.ofNat 64 (u.regView pa).toNat)).nextPc c 24))))

/-- R337, R344: an aligned store whose address a cached leaf maps into the SEQ pool writes the low bytes of its register
there; STW also writes a register of control space: one that is not listed takes nothing, a W1C register loses the bits
written as 1, and any other takes the write that its own rule lets succeed. -/
def Obligations.StoresComplete : Prop :=
  ∀ (s u : State) (c pa : Nat) (rd ra : Fin 16) (imm : BitVec 18) (va : BitVec 64) (v : BitVec 32), s.fetched c u →
    va = u.getK c ra + imm.signExtend 64 → u.mapped c va.toNat .write pa → v = BitVec.ofNat 32 (u.getK c rd).toNat →
    (accessPlace pa = .seqPool →
      exec (.stb c rd ra imm) s = .next (State.settle ((u.wrLE pa 1 (u.getK c rd).toNat).nextPc c 2)) ∧
      (va.toNat % 2 = 0 → exec (.sth c rd ra imm) s = .next (State.settle ((u.wrLE pa 2 (u.getK c rd).toNat).nextPc c 2))) ∧
      (va.toNat % 4 = 0 → exec (.stw c rd ra imm) s = .next (State.settle ((u.wrLE pa 4 (u.getK c rd).toNat).nextPc c 2))) ∧
      (va.toNat % 8 = 0 → exec (.std c rd ra imm) s = .next (State.settle ((u.wrLE pa 8 (u.getK c rd).toNat).nextPc c 2)))) ∧
    (va.toNat % 4 = 0 → accessPlace pa = .control → u.unitPresent (State.unitOf pa) = true →
      (findReg (State.unitOf pa) pa = none → exec (.stw c rd ra imm) s = .next (State.settle (u.nextPc c 24))) ∧
      (∀ d, findReg (State.unitOf pa) pa = some d →
        (d.access = .w1c → exec (.stw c rd ra imm) s =
          .next (State.settle ((u.setReg pa (u.reg pa &&& ~~~(v &&& d.mask))).nextPc c 24))) ∧
        ((u.regStore c pa v).2 = .ok → exec (.stw c rd ra imm) s = .next (State.settle ((u.regStore c pa v).1.nextPc c 24)))))

/-- R337, R344, R361, R373: an aligned load whose address translates in whatever way (from cached entries or by a walk)
into an SRAM pool, and reads without an uncorrectable error, writes its register: 1, 2, 4 or 8 bytes, extended with
zeros or with the sign; LDW also reads a register of control space. R337, R344, R361: an aligned store whose address
translates in whatever way into the SEQ pool writes the low bytes of its register there; STW also writes a register of
control space. -/
def Obligations.WalkedAccessesComplete : Prop :=
  (∀ (s u w x : State) (c pa : Nat) (rd ra : Fin 16) (imm : BitVec 18) (va : BitVec 64) (bs : Bytes), s.fetched c u →
    va = u.getK c ra + imm.signExtend 64 → u.translate c va.toNat .read .sequencer = (w, .ok pa) →
    (accessPlace pa = .seqPool ∨ accessPlace pa = .otherPool →
      (w.readMem .sequencer c pa 1 = (x, .ok bs) →
        exec (.ldb c rd ra imm) s = .next (State.settle ((x.setK c rd (BitVec.ofNat 64 (leNat bs))).nextPc c 4)) ∧
        exec (.ldbs c rd ra imm) s =
          .next (State.settle ((x.setK c rd ((BitVec.ofNat 8 (leNat bs)).signExtend 64)).nextPc c 4))) ∧
      (va.toNat % 2 = 0 → w.readMem .sequencer c pa 2 = (x, .ok bs) →
        exec (.ldh c rd ra imm) s = .next (State.settle ((x.setK c rd (BitVec.ofNat 64 (leNat bs))).nextPc c 4)) ∧
        exec (.ldhs c rd ra imm) s =
          .next (State.settle ((x.setK c rd ((BitVec.ofNat 16 (leNat bs)).signExtend 64)).nextPc c 4))) ∧
      (va.toNat % 4 = 0 → w.readMem .sequencer c pa 4 = (x, .ok bs) →
        exec (.ldw c rd ra imm) s = .next (State.settle ((x.setK c rd (BitVec.ofNat 64 (leNat bs))).nextPc c 4)) ∧
        exec (.ldws c rd ra imm) s =
          .next (State.settle ((x.setK c rd ((BitVec.ofNat 32 (leNat bs)).signExtend 64)).nextPc c 4))) ∧
      (va.toNat % 8 = 0 → w.readMem .sequencer c pa 8 = (x, .ok bs) →
        exec (.ldd c rd ra imm) s = .next (State.settle ((x.setK c rd (BitVec.ofNat 64 (leNat bs))).nextPc c 4)))) ∧
    (∀ v, va.toNat % 4 = 0 → accessPlace pa = .control → w.regLoad c pa = (x, .ok, v) →
      exec (.ldw c rd ra imm) s = .next (State.settle ((x.setK c rd (BitVec.ofNat 64 v.toNat)).nextPc c 24)))) ∧
  (∀ (s u w : State) (c pa : Nat) (rd ra : Fin 16) (imm : BitVec 18) (va : BitVec 64), s.fetched c u →
    va = u.getK c ra + imm.signExtend 64 → u.translate c va.toNat .write .sequencer = (w, .ok pa) →
    (accessPlace pa = .seqPool →
      exec (.stb c rd ra imm) s = .next (State.settle ((w.wrLE pa 1 (u.getK c rd).toNat).nextPc c 2)) ∧
      (va.toNat % 2 = 0 → exec (.sth c rd ra imm) s = .next (State.settle ((w.wrLE pa 2 (u.getK c rd).toNat).nextPc c 2))) ∧
      (va.toNat % 4 = 0 → exec (.stw c rd ra imm) s = .next (State.settle ((w.wrLE pa 4 (u.getK c rd).toNat).nextPc c 2))) ∧
      (va.toNat % 8 = 0 → exec (.std c rd ra imm) s = .next (State.settle ((w.wrLE pa 8 (u.getK c rd).toNat).nextPc c 2)))) ∧
    (∀ x, va.toNat % 4 = 0 → accessPlace pa = .control →
      w.regStore c pa (BitVec.ofNat 32 (u.getK c rd).toNat) = (x, .ok) →
      exec (.stw c rd ra imm) s = .next (State.settle (x.nextPc c 24))))

/-- R344, R348: an address that is not a multiple of the access size takes ALIGN with that address; nothing is loaded
and nothing is stored. -/
def Obligations.MisalignedAccessesTrap : Prop :=
  ∀ (s u : State) (c : Nat) (rd ra : Fin 16) (imm : BitVec 18) (va : BitVec 64), s.fetched c u →
    va = u.getK c ra + imm.signExtend 64 →
    (va.toNat % 2 ≠ 0 →
      exec (.ldh c rd ra imm) s = .next (State.settle (u.trap c Cause.ALIGN va)) ∧
      exec (.ldhs c rd ra imm) s = .next (State.settle (u.trap c Cause.ALIGN va)) ∧
      exec (.sth c rd ra imm) s = .next (State.settle (u.trap c Cause.ALIGN va))) ∧
    (va.toNat % 4 ≠ 0 →
      exec (.ldw c rd ra imm) s = .next (State.settle (u.trap c Cause.ALIGN va)) ∧
      exec (.ldws c rd ra imm) s = .next (State.settle (u.trap c Cause.ALIGN va)) ∧
      exec (.stw c rd ra imm) s = .next (State.settle (u.trap c Cause.ALIGN va))) ∧
    (va.toNat % 8 ≠ 0 →
      exec (.ldd c rd ra imm) s = .next (State.settle (u.trap c Cause.ALIGN va)) ∧
      exec (.std c rd ra imm) s = .next (State.settle (u.trap c Cause.ALIGN va)))

/-- R344 to R347: CAS at an aligned address that a cached leaf maps into the SEQ pool, to bytes without an error,
exchanges when memory equals rd, and Z says so; a beat of LDM, STM, BCOPY and BFILL, at addresses so mapped, moves its
bytes and goes on to the next; a count of 0 moves nothing. It rests on choices of the model: log entry 102. -/
def Obligations.BlockInstructionsComplete : Prop :=
  ∀ (s u : State) (c pa : Nat) (rd ra rb : Fin 16) (va : BitVec 64), s.fetched c u →
    (va = u.getK c ra → va.toNat % 8 = 0 → u.mapped c va.toNat .cas pa → accessPlace pa = .seqPool → u.cleanAt pa 8 →
      (BitVec.ofNat 64 (leNat (u.rd pa 8)) = u.getK c rd → exec (.cas c rd ra rb) s = .next (State.settle
        ((((u.wrLE pa 8 (u.getK c rb).toNat).setK c rd (BitVec.ofNat 64 (leNat (u.rd pa 8)))).updCtx c (fun k => { k with z := true })).nextPc c 4))) ∧
      (BitVec.ofNat 64 (leNat (u.rd pa 8)) ≠ u.getK c rd → exec (.cas c rd ra rb) s = .next (State.settle
        (((u.setK c rd (BitVec.ofNat 64 (leNat (u.rd pa 8)))).updCtx c (fun k => { k with z := false })).nextPc c 4)))) ∧
    (va = u.getK c ra + BitVec.ofNat 64 (8 * (u.ctx c).beat) → va.toNat % 8 = 0 → rd.val + rb.val ≤ 15 →
      (ra.val < rd.val ∨ rd.val + rb.val < ra.val) → u.mapped c va.toNat .read pa →
      (accessPlace pa = .seqPool ∨ accessPlace pa = .otherPool) → u.cleanAt pa 8 → ∀ w,
      w = u.setK c (rd.val + (u.ctx c).beat) (BitVec.ofNat 64 (leNat (u.rd pa 8))) →
      exec (.ldm c rd ra rb) s = .next (State.settle
        (if rb.val ≤ (u.ctx c).beat then w.nextPc c 4
         else (w.updCtx c (fun k => { k with beat := (u.ctx c).beat + 1 })).spend c 4))) ∧
    (va = u.getK c ra + BitVec.ofNat 64 (8 * (u.ctx c).beat) → va.toNat % 8 = 0 → rd.val + rb.val ≤ 15 →
      u.mapped c va.toNat .write pa → accessPlace pa = .seqPool → ∀ w,
      w = u.wrLE pa 8 (u.getK c (rd.val + (u.ctx c).beat)).toNat →
      exec (.stm c rd ra rb) s = .next (State.settle
        (if rb.val ≤ (u.ctx c).beat then w.nextPc c 2
         else (w.updCtx c (fun k => { k with beat := (u.ctx c).beat + 1 })).spend c 2))) ∧
    (∀ d a n m qa, d = u.getK c rd → a = u.getK c ra → n = u.getK c rb → n ≠ 0 → m = State.beatBytes n.toNat d.toNat (some a.toNat) →
      u.mapped c a.toNat .read qa → (accessPlace qa = .seqPool ∨ accessPlace qa = .otherPool) → u.cleanAt qa m →
      u.mapped c d.toNat .write pa → accessPlace pa = .seqPool → State.overlaps d.toNat a.toNat n.toNat = false →
      exec (.bcopy c rd ra rb) s = .next (State.settle ((u.wr pa (u.rd qa m)).endBeat c rd rb m (some ra.val)))) ∧
    (∀ d n m, d = u.getK c rd → n = u.getK c rb → n ≠ 0 → m = State.beatBytes n.toNat d.toNat none →
      u.mapped c d.toNat .write pa → accessPlace pa = .seqPool → exec (.bfill c rd ra rb) s = .next (State.settle
        ((u.wr pa (List.replicate m (BitVec.ofNat 8 (fld (u.getK c ra) 0 8)))).endBeat c rd rb m none))) ∧
    (u.getK c rb = 0 → exec (.bcopy c rd ra rb) s = .next (State.settle (u.nextPc c 1)) ∧
      exec (.bfill c rd ra rb) s = .next (State.settle (u.nextPc c 1)))

/-- R344: B goes to PC + 4 × sext(off22) when its condition holds and to the next instruction when not; BL does so
always and links in register 15; JR and JLR go to an aligned register, JLR with the link in rd; the flags stay. -/
def Obligations.BranchesComplete : Prop :=
  ∀ (s u : State) (c : Nat) (cond : Fin 15) (off : BitVec 22) (rd ra : Fin 16), s.fetched c u →
    (condHolds (u.ctx c) cond = true → exec (.b c cond off) s = .next (State.settle
      ((u.updCtx c (fun k => { k with pc := k.pc + (off.signExtend 64 <<< 2) })).spend c 2))) ∧
    (condHolds (u.ctx c) cond = false → exec (.b c cond off) s = .next (State.settle
      ((u.updCtx c (fun k => { k with pc := k.pc + 4, beat := 0 })).spend c 1))) ∧
    exec (.bl c off) s = .next (State.settle ((u.updCtx c (fun k =>
      { k with k := k.k.set 15 ((u.ctx c).pc + 4), pc := k.pc + (off.signExtend 64 <<< 2) })).spend c 2)) ∧
    ((u.getK c ra).toNat % 4 = 0 →
      exec (.jr c ra) s = .next (State.settle ((u.updCtx c (fun k => { k with pc := u.getK c ra })).spend c 2)) ∧
      exec (.jlr c rd ra) s = .next (State.settle ((u.updCtx c (fun k =>
        { k with k := k.k.set rd ((u.ctx c).pc + 4), pc := u.getK c ra })).spend c 2))) ∧
    ((u.getK c ra).toNat % 4 ≠ 0 →
      exec (.jr c ra) s = .next (State.settle (u.trap c Cause.ALIGN (u.getK c ra))) ∧
      exec (.jlr c rd ra) s = .next (State.settle (u.trap c Cause.ALIGN (u.getK c ra))))

/-- R335, R344, R352 to R354: WAIT with a pending event of its mask takes it, and without one waits with PC on itself;
POLL takes what is pending and Z says that nothing was; SIGNAL raises SIGNAL in itself or the supervisor; SETTMR sets
the timer; WDOG reloads the watchdog; YIELD gives way; HALT halts behind itself. R350: TRET restores PC, the flags and
BEAT from TPC, TFLAGS and TSTAT and clears INTRAP, and outside a trap is ILLEGAL; the return from an NMI restores them
from NPC and NSTAT and clears INNMI. -/
def Obligations.EventInstructionsAndReturnsComplete : Prop :=
  (∀ (s u v : State) (c : Nat) (rd ra : Fin 16) (mask : BitVec 16), s.fetched c u →
    v = u.updCtx c (fun k => { k with wdLeft := k.wdog }) →
    (mask ≠ 0 → (v.ctx c).evpend &&& mask ≠ 0 →
      exec (.wait c rd mask) s = .next (State.settle ((v.takeEvents c rd mask).nextPc c 1))) ∧
    (mask ≠ 0 → (v.ctx c).evpend &&& mask = 0 → exec (.wait c rd mask) s = .next (State.settle
      (((v.updCtx c (fun k => { k with rstate := 3, wmask := mask })).freePair c).saveCtx c))) ∧
    exec (.poll c rd mask) s = .next (State.settle (((u.takeEvents c rd mask).updCtx c (fun k =>
      { k with z := decide ((u.ctx c).evpend &&& mask = 0) })).nextPc c 1)) ∧
    (∀ x, x = fld (u.getK c ra) 0 6 → x ≠ 0 → (c = u.super ∨ x = c ∨ x = u.super) → exec (.signal c ra) s =
      .next (State.settle (((u.updCtx x (fun k => { k with sigfrom := setBit k.sigfrom c true })).raiseEvent x 13).nextPc c 1))) ∧
    exec (.settmr c ra) s = .next (State.settle ((u.updCtx c (fun k => { k with timer := nth k.k ra.val 0 })).nextPc c 1)) ∧
    exec (.wdog c) s = .next (State.settle (v.nextPc c 1)) ∧
    exec (.yield c) s = .next (State.settle ((u.nextPc c 1).yieldCtx c)) ∧
    exec (.halt c) s = .next (State.settle ((u.nextPc c 1).haltCtx c))) ∧
  (∀ (s u : State) (c : Nat), s.fetched c u →
    ((u.ctx c).intrap = true → exec (.tret c) s = .next (State.settle ((u.updCtx c (fun k =>
      { k with z := bit k.tflags 0, n := bit k.tflags 1, c := bit k.tflags 2, v := bit k.tflags 3, pc := k.tpc, beat := k.tbeat,
               intrap := false })).spend c 2))) ∧
    ((u.ctx c).intrap = false → exec (.tret c) s =
      .next (State.settle (u.trap c Cause.ILLEGAL (BitVec.ofNat 64 (0x36 * 2 ^ 26))))) ∧
    ((u.ctx c).innmi = true → exec (.tretNmi c) s = .next (State.settle ((u.updCtx c (fun k =>
      { k.setFlagBits (BitVec.ofNat 4 (fld k.nstat 0 4)) with pc := k.npc, beat := fld k.nstat 8 8, innmi := false })).spend c 2))) ∧
    ((u.ctx c).innmi = false → exec (.tretNmi c) s =
      .next (State.settle (u.trap c Cause.ILLEGAL (BitVec.ofNat 64 (0x36 * 2 ^ 26 + 1))))))

/-- R344: RDSR reads each listed special register that the context may read, CCLKS as a free value (log entry 15); WRSR
writes FLAGS, TVEC, TPC, TFLAGS and the beat of TSTAT, and the supervisor's NPC and NSTAT; another number is ILLEGAL,
and NPC or NSTAT of another context takes PERM. It rests on choices of the model: log entry 15. -/
def Obligations.SpecialRegistersComplete : Prop :=
  ∀ (s u : State) (c sr : Nat) (rd ra : Fin 16) (v : BitVec 64), s.fetched c u → v = u.getK c ra →
    (sr ≤ 15 → sr ≠ 9 → sr ≠ 13 → (c = u.super ∨ sr < 14) → exec (.rdsr c rd sr) s =
      .next (State.settle ((u.setK c rd (specialReg u c sr)).nextPc c 1))) ∧
    (∀ w : State, sr = 13 → w = State.updCtx { u with draws := u.draws + 1 } c (fun k => { k with cclks := Config.freeValue u.draws }) →
      exec (.rdsr c rd sr) s = .next (State.settle ((w.setK c rd (specialReg w c sr)).nextPc c 1))) ∧
    (sr = 9 ∨ 15 < sr → exec (.rdsr c rd sr) s =
      .next (State.settle (u.trap c Cause.ILLEGAL (BitVec.ofNat 64 (0x37 * 2 ^ 26 + rd.val * 2 ^ 22 + sr % 256))))) ∧
    (sr = 14 ∨ sr = 15 → c ≠ u.super →
      exec (.rdsr c rd sr) s = .next (State.settle (u.trap c Cause.PERM (BitVec.ofNat 64 sr))) ∧
      exec (.wrsr c ra sr) s = .next (State.settle (u.trap c Cause.PERM (BitVec.ofNat 64 sr)))) ∧
    (sr = 2 → exec (.wrsr c ra sr) s = .next (State.settle ((u.updCtx c (fun k => k.setFlagBits (v.setWidth 4))).nextPc c 1))) ∧
    (sr = 3 → exec (.wrsr c ra sr) s = .next (State.settle ((u.updCtx c (fun k => { k with tvec := v })).nextPc c 1))) ∧
    (sr = 4 → exec (.wrsr c ra sr) s = .next (State.settle ((u.updCtx c (fun k => { k with tpc := v })).nextPc c 1))) ∧
    (sr = 5 → exec (.wrsr c ra sr) s =
      .next (State.settle ((u.updCtx c (fun k => { k with tflags := v.setWidth 4 })).nextPc c 1))) ∧
    (sr = 6 → exec (.wrsr c ra sr) s =
      .next (State.settle ((u.updCtx c (fun k => { k with tbeat := fld v 8 8 })).nextPc c 1))) ∧
    (sr = 14 → c = u.super → exec (.wrsr c ra sr) s =
      .next (State.settle ((u.updCtx c (fun k => { k with npc := v })).nextPc c 1))) ∧
    (sr = 15 → c = u.super → exec (.wrsr c ra sr) s =
      .next (State.settle ((u.updCtx c (fun k => { k with nstat := v.setWidth 16 &&& 0xFF0F })).nextPc c 1)))

/-! ## Memory, movers and checks -/

/-- R367: a context drops its own translations, the supervisor those of any context or all of them; another context that
tries takes PERM. R371: the owner of a held translation slot, or the supervisor, resumes or abandons what waits on it;
another context takes PERM. It rests on choices of the model: log entry 63. -/
def Obligations.TranslationsComplete : Prop :=
  (∀ (s : State) (w : Nat) (v : Word), s.clk.released = true → s.boot.failed = false → 4 < s.boot.phase →
    (bit v 10 = false → (w = fld v 0 6 ∨ w = s.super) → exec (.xltInval w v) s = .next (State.settle
      ((s.invalidate (fld v 0 6) (fld v 8 2) (s.rfld Reg.XLT_INV_VA 0 27 * 4096)).count Reg.XLT_INVALS 1))) ∧
    (w = s.super → exec (.xltInvalAll w) s = .next (State.settle (State.count { s with tlb := [] } Reg.XLT_INVALS 1))) ∧
    (w ≠ s.super → exec (.xltInvalAll w) s = .next (State.settle (s.permTrap w Reg.XLT_INVAL))) ∧
    (bit v 10 = false → w ≠ fld v 0 6 → w ≠ s.super → exec (.xltInval w v) s =
      .next (State.settle (s.permTrap w Reg.XLT_INVAL)))) ∧
  (∀ (s : State) (w slot : Nat), s.clk.released = true → s.boot.failed = false → 4 < s.boot.phase → s.slotHolds slot = true →
    (slot < 32 → (w = s.super ∨ w = s.rfld (Reg.XLT_FS_INFO slot) 0 6) →
      exec (.xltResume w slot) s = .next (State.settle (s.resumeChan slot)) ∧
      exec (.xltResumeAbandon w slot) s = .next (State.settle (s.abandonChan slot))) ∧
    (32 ≤ slot → slot < 36 → (w = s.super ∨ w = s.rfld (Reg.XLT_FS_INFO slot) 0 6) →
      exec (.xltResume w slot) s =
        .next (State.settle ((s.clearSlot slot).updCvu (slot - 32) (fun k => { k with faultAt := none }))) ∧
      exec (.xltResumeAbandon w slot) s = .next (State.settle (s.abandonPass (slot - 32)))) ∧
    (slot < 36 → w ≠ s.super → w ≠ s.rfld (Reg.XLT_FS_INFO slot) 0 6 →
      exec (.xltResume w slot) s = .next (State.settle (s.permTrap w Reg.XLT_RESUME))))

/-- R383, R384, R388, R392 to R394: a scrub of a good range begins and goes line by line; a refresh is paid or
postponed; a temperature is noted; an idle channel enters self-refresh and leaves it; the oldest low request moves up; a
channel fails. It rests on choices of the model: log entries 31, 32. -/
def Obligations.MemoryUpkeepCompletes : Prop :=
  ∀ (s : State) (ch : Nat), s.clk.released = true → s.boot.failed = false → 4 < s.boot.phase → ch < 4 →
    (∀ a, a = (s.reg Reg.MEM_SCRUB_LO).toNat + 2 ^ 32 * s.rfld Reg.MEM_SCRUB_HI 0 8 → s.mu.scrub = none →
      s.scrubRange a (s.reg Reg.MEM_SCRUB_LEN).toNat = true → exec .scrubGo s = .next (State.settle { s with mu := { s.mu with
        scrub := some { next := a, left := (s.reg Reg.MEM_SCRUB_LEN).toNat, lines := 0, ce := 0, ue := 0, first := none } } })) ∧
    (∀ r u n bad, s.mu.scrub = some r → s.sleeping r.next = none → s.scrubAt r.next = (u, n, bad) → 1 < r.left →
      exec (.scrubLine true) s = .next (State.settle { u with mu := { u.mu with
        scrub := some { next := r.next + 64, left := r.left - 1, lines := r.lines + 1, ce := r.ce + n,
                        ue := r.ue + (if bad then 1 else 0), first := if bad && r.first.isNone then some r.next else r.first } } })) ∧
    (s.mu.scrub = none → exec (.scrubLine false) s = .next (State.settle s.backgroundLine)) ∧
    exec (.refresh ch) s = .next (State.settle { s with dmc := { s.dmc with postponed := upd s.dmc.postponed ch (fun _ =>
      if s.dmc.reqs.any (fun r => r.chan = ch && r.cls = 0) && nth s.dmc.postponed ch 0 < 4 then nth s.dmc.postponed ch 0 + 1
      else 0) } }) ∧
    (∀ temp : Int, temp ≤ 85 → ∀ d, d = { s.dmc with
        temps := upd s.dmc.temps ch (fun _ => temp), hot := setBit s.dmc.hot ch false } →
      exec (.dramTempRead ch temp) s = .next (State.settle (State.setReg { s with dmc := d } Reg.DMC_TEMP
        (BitVec.ofNat 32 (uNat 8 (d.temps.foldl max (nth d.temps 0 0))))))) ∧
    (s.dmc.reqs.any (fun r => r.chan = ch) = false → nth s.dmc.postponed ch 0 = 0 → bit s.dmc.selfRef ch = false →
      exec (.selfRefreshEntry ch) s = .next (State.settle (State.count
        { s with dmc := { s.dmc with selfRef := setBit s.dmc.selfRef ch true } } Reg.DMC_SR_ENTRIES 1))) ∧
    exec (.selfRefreshExit ch) s = .next (State.settle { s with dmc := { s.dmc with
      selfRef := setBit s.dmc.selfRef ch false, reqs := s.dmc.reqs.filter (fun r => r.chan != ch) } }) ∧
    (∀ i, s.dmc.reqs.findIdx? (fun r => r.chan = ch && 2 ≤ r.cls) = some i → exec (.requestPromotion ch) s =
      .next (State.settle (State.count { s with dmc := { s.dmc with
        reqs := upd s.dmc.reqs i (fun r => { r with cls := r.cls - 1 }) } } Reg.DMC_PROMOTED 1))) ∧
    (bit s.dmc.failed ch = false → exec (.channelFail ch) s = .next (State.settle ((State.event
      { s with dmc := { s.dmc with failed := setBit s.dmc.failed ch true } } Reg.DMC_EVENT 4).raise Src.DMC_CHANNEL_FAIL)))

/-- R405, R406: the owner of a channel, or the supervisor, starts an idle or halted one at DMA_HEAD and stops one; the
channel fetches its next descriptor, and an uncorrectable one halts it. R401, R412: a descriptor that has a status
completes: its status is written, it is counted and told of as its flags say, and the channel goes on; a channel that
waits too long for a translation with an engine gives it up with XF_TIMEOUT. It rests on choices of the model: log
entries 33, 35. -/
def Obligations.ChannelsComplete : Prop :=
  (∀ (s u : State) (w ch : Nat), s.clk.released = true → s.boot.failed = false → 4 < s.boot.phase → ch < 32 →
    ((w = s.super ∨ (w ≠ 0 ∧ w = s.chanOwner ch)) →
      (s.chanOwner ch = 0 → exec (.dmaGo w ch) s = .next s.settle) ∧
      (s.chanOwner ch ≠ 0 → (s.chan ch).st = ChanSt.IDLE ∨ (s.chan ch).st = ChanSt.HALTED →
        exec (.dmaGo w ch) s = .next (State.settle (s.updChan ch (fun k => { Chan.reset with
          st := ChanSt.RUN, last := k.last,
          nextVa := (s.reg (Reg.DMA_HEAD_LO ch)).toNat / 64 * 64 + 2 ^ 32 * (s.reg (Reg.DMA_HEAD_HI ch)).toNat })))) ∧
      exec (.dmaStop w ch) s = .next (State.settle (s.stopChan ch))) ∧
    ((s.chan ch).st = ChanSt.RUN → (s.chan ch).desc = none → (s.chan ch).hops < s.hopLimit ch →
      ∀ v bs, v = (s.setReg (Reg.DMA_CUR_LO ch) (BitVec.ofNat 32 (s.chan ch).nextVa)).setReg (Reg.DMA_CUR_HI ch)
        (BitVec.ofNat 32 ((s.chan ch).nextVa >>> 32)) →
      (v.engineRead .dma (v.chanOwner ch) (v.chanClass ch) (s.chan ch).nextVa 64 = (u, .ok bs) →
        exec (.descriptorFetch ch) s = .next (State.settle (u.updChan ch (fun k =>
          { k with desc := some (State.parseDesc (s.chan ch).nextVa bs), hops := k.hops + 1, started := false, inDone := 0, outDone := 0,
                   input := [], out := [], xf := .plain,
                   result := if (State.parseDesc (s.chan ch).nextVa bs).op = 3 then BitVec.ofNat 64 (2 ^ 64 - 1) else 0,
                   status := if State.descBad (State.parseDesc (s.chan ch).nextVa bs) bs then some DmaSt.FORMAT
                     else if (State.parseDesc (s.chan ch).nextVa bs).count = 0 then some DmaSt.OK else none })))) ∧
      (v.engineRead .dma (v.chanOwner ch) (v.chanClass ch) (s.chan ch).nextVa 64 = (u, .uncorr) →
        exec (.descriptorFetch ch) s = .next (State.settle
          ((((u.haltChan ch 3).event Reg.DMA_EVENT 3).dmaEvent ch 1).dmaFault ch Src.DMA_UNCORR DmaSt.UNCORR)))) ∧
    ((s.chan ch).st = ChanSt.RUN → (s.chan ch).desc = none → s.hopLimit ch ≤ (s.chan ch).hops →
      exec (.descriptorFetch ch) s = .next (State.settle
        ((((s.haltChan ch 2).event Reg.DMA_EVENT 1).dmaEvent ch 1).dmaFault ch Src.DMA_CHAIN_LIMIT 0)))) ∧
  (∀ (s u : State) (ch : Nat) (d : Desc), s.clk.released = true → s.boot.failed = false → 4 < s.boot.phase →
    (∀ st v, (s.chan ch).desc = some d → (s.chan ch).status = some st → (st = DmaSt.OK ∨ st = DmaSt.DIFFER) →
      s.decryptEnds ch (s.chan ch) d st = (u, true) →
      v = ((u.engineCounts (s.chan ch) st).writeStatus ch d st (s.chan ch).inDone
        (if 5 ≤ d.op then BitVec.ofNat 64 (s.chan ch).outDone else (s.chan ch).result)).count (Reg.DMA_DONES ch) 1 →
      exec (.descriptorComplete ch) s = .next (State.settle
        ((if bit d.flags 3 then (v.dmaEvent ch 0).keepersGoOn else v).chanGoesOn ch (s.chan ch) d st))) ∧
    (∀ t, (s.chan ch).st = ChanSt.FAULT → s.mv.infOwner = some ch → (s.chan ch).faultAt = some t →
      exec (.dmaXfHoldExpiry ch) s = .next (State.settle
        ((((s.at_ (t + State.msPclk (s.rfld Reg.DMA_CTRL 0 8) + 1)).abandonChan ch).event Reg.DMA_EVENT 5).dmaFault ch
          Src.DMA_XF_TIMEOUT DmaSt.XLT))))

/-- R397, R399, R408, R410, R419: a fetched descriptor of each operation starts once its destination may be written (a
COMPARE has none): COPY, FILL, COMPARE, and with their engine free INFLATE and DEFLATE; DECRYPT once its segment key is
at hand; a started one moves a beat. It rests on choices of the model: log entries 10, 59. -/
def Obligations.TransfersStart : Prop :=
  ∀ (s u : State) (ch : Nat) (d : Desc), s.clk.released = true → s.boot.failed = false → 4 < s.boot.phase →
    (s.mayStart ch 1 = some d → s.destination ch d = (u, true) → exec (.dmaCopy ch) s =
      .next (State.settle (u.updChan ch (fun k => { k with started := true })))) ∧
    (s.mayStart ch 2 = some d → s.destination ch d = (u, true) → exec (.dmaFill ch) s =
      .next (State.settle (u.updChan ch (fun k => { k with started := true })))) ∧
    (s.mayStart ch 3 = some d → exec (.dmaCompare ch) s =
      .next (State.settle (s.updChan ch (fun k => { k with started := true })))) ∧
    (∀ v w h key fresh, s.mayStart ch 4 = some d → s.destination ch d = (u, true) →
      State.engineReadAll 3 u .dma (s.chanOwner ch) (u.chanClass ch) d.param0.toNat 112 = (v, .ok h) → fieldLE h 6 2 / 2 % 2 = 0 →
      v.decryptKey (s.chanOwner ch) d.count h = (w, .ok (key, fresh)) → exec (.dmaDecrypt ch) s =
        .next (State.settle (w.updChan ch (fun k => { k with st := ChanSt.RUN, started := true, xf := .gcm key h fresh })))) ∧
    (s.mayStart ch 5 = some d → s.mv.infOwner = none → s.destination ch d = (u, true) → exec (.dmaInflate ch) s =
      .next (State.settle (State.updChan { u with mv := { u.mv with infOwner := some ch } } ch (fun k =>
        { k with st := ChanSt.RUN, started := true,
                 xf := .inflate (min (fld d.param0 0 32) (min 67108864
                     ((if fld d.param0 32 8 = 0 then 16 else fld d.param0 32 8) * d.count)))
                   (fld d.param0 0 32) (bit d.param0 40) })))) ∧
    (s.mayStart ch 6 = some d → s.mv.defOwner = none → s.destination ch d = (u, true) → exec (.dmaDeflate ch) s =
      .next (State.settle (State.updChan { u with mv := { u.mv with defOwner := some ch } } ch (fun k =>
        { k with st := ChanSt.RUN, started := true, xf := .deflate (fld d.param0 0 32) (bit d.param0 32) })))) ∧
    ((s.chan ch).desc = some d → (s.chan ch).st = ChanSt.RUN → (s.chan ch).started = true → (s.chan ch).status = none →
      (s.chan ch).xf = .plain → exec (.dmaBeat ch) s = .next (State.settle
        (if d.op = 1 then s.copyBeat ch d else if d.op = 2 then s.fillBeat ch d else s.compareBeat ch d)))

/-- R414, R415, R417: a pass is taken by an idle checking unit and otherwise waits its turn; the unit runs its pass; a
pass that waits too long for a translation is given up; CRY_CLEAR clears a key slot. It rests on choices of the model:
log entries 34, 35. -/
def Obligations.ChecksAndKeysComplete : Prop :=
  ∀ (s : State) (w n : Nat) (off v : Word), s.clk.released = true → s.boot.failed = false → 4 < s.boot.phase → n < 4 →
    (s.rbit Reg.BST_OUT n = false → (s.cvu n).cur = none → (s.cvu n).queue = [] → s.cvuInSlice n = false →
      exec (.cvuGo w n off) s = .next (State.settle (s.cvuTake n { ctx := w, off := fld off 6 17 * 64 }))) ∧
    (∀ p, s.rbit Reg.BST_OUT n = false → (s.cvu n).cur = some p → (s.cvu n).queue.any (fun q => q.ctx = w) = false →
      exec (.cvuGo w n off) s = .next (State.settle (s.updCvu n (fun k =>
        { k with queue := k.queue ++ [{ ctx := w, off := fld off 6 17 * 64 }] })))) ∧
    (s.rbit Reg.BST_OUT n = true → exec (.cvuGo w n off) s =
      .next (State.settle (s.passFails { ctx := w, off := fld off 6 17 * 64 } CvuSt.BUS))) ∧
    (∀ p u, (s.cvu n).cur = some p → s.slotHolds (32 + n) = false →
      s.readMem .cvu p.ctx (Config.seqPool + p.off) 32 = (u, .uncorr) →
      exec (.cvuPassDone n) s = .next (State.settle (u.cvuEnds n p CvuSt.UNCORR none))) ∧
    exec (.cvuPassDone n) s = .next (State.settle (s.cvuRun n)) ∧
    (∀ p t, (s.cvu n).cur = some p → (s.cvu n).faultAt = some t → s.slotHolds (32 + n) = true →
      exec (.cvuXfHoldExpiry n) s = .next (State.settle
        ((((s.at_ (t + State.msPclk (s.rfld Reg.CVU_CTRL 0 8) + 1)).abandonPass n).event Reg.CVU_EVENT 1).raiseFor
          Src.CVU_XF_TIMEOUT p.ctx))) ∧
    (bit v 8 = true → exec (.cryClear v) s = .next (State.settle (s.clearKey (fld v 0 4))))

/-! ## Ethernet, time, cameras and the OBS port -/

/-- R455, R456, R458: a context that may set the time sets an INC inside its range at once; ADJ slews by its offset or,
where a step is not barred, steps the timebase by it; holdover begins when INC has not been written for the limit. R460:
a context that may use a trigger channel arms it for its time, with LATE when that has passed; another takes PERM; an
armed channel without a period, and without a camera pipe of its own, whose time has come triggers once and disarms. It
rests on choices of the model: log entry 75. -/
def Obligations.TimebaseAndTriggersComplete : Prop :=
  (∀ (s : State) (w : Nat) (hi : Word), s.clk.released = true → s.boot.failed = false →
    (∀ inc, s.mayTime w = true → inc = (s.reg Reg.TIM_INC_LO).toNat + 2 ^ 32 * fld hi 0 3 → State.incFits inc = true →
      exec (.timIncWrite w hi) s = .next (State.settle
        { (s.setReg Reg.TIM_INC_HI (setFld 0 0 3 (fld hi 0 3))).setRfld Reg.TIM_STAT 2 1 0 with
            clk := { s.clk with inc := inc, incAt := s.now } })) ∧
    (∀ h off, h = setBit hi 8 false → s.mayTime w = true →
      off = sInt 40 ((s.reg Reg.TIM_ADJ_LO).toNat + 2 ^ 32 * fld h 0 8) * 2 ^ 32 → bit h 8 = false →
      exec (.timAdjSlew w hi) s = .next (State.settle
        { s.setReg Reg.TIM_ADJ_HI (setFld (setFld 0 0 8 (fld h 0 8)) 8 1 (fld h 8 1)) with clk := { s.clk with slew := off } })) ∧
    (∀ h off u, h = setBit hi 8 true → s.mayTime w = true →
      off = sInt 40 ((s.reg Reg.TIM_ADJ_LO).toNat + 2 ^ 32 * fld h 0 8) * 2 ^ 32 → bit h 8 = true →
      u = s.setReg Reg.TIM_ADJ_HI (setFld (setFld 0 0 8 (fld h 0 8)) 8 1 (fld h 8 1)) → u.stepBarred = false →
      exec (.timAdjStep w hi) s = .next (State.settle
        { u with clk := { s.clk with ticks := uNat 96 ((s.clk.ticks : Int) + off) } })) ∧
    (s.mayTime w = false →
      exec (.timIncWrite w hi) s = .next (State.settle (s.permTrap w Reg.TIM_INC_HI)) ∧
      exec (.timAdjSlew w hi) s = .next (State.settle (s.permTrap w Reg.TIM_ADJ_HI)) ∧
      exec (.timAdjStep w hi) s = .next (State.settle (s.permTrap w Reg.TIM_ADJ_HI))) ∧
    (∀ t, s.rfld Reg.TIM_CTRL 0 2 = 1 → s.follows = false → s.rbit Reg.TIM_STAT 2 = false →
      (s.at_ t).clk.incAt + s.rfld Reg.TIM_CTRL 8 8 * 100000000 ≤ (s.at_ t).now →
      exec (.ptpHoldover t) s = .next (State.settle
        ((((s.at_ t).setRfld Reg.TIM_STAT 2 1 1).event Reg.TIM_EVENT 2).raise Src.TIM_PTP_HOLDOVER)))) ∧
  (∀ (s v : State) (w k t : Nat) (ctl : Word), s.clk.released = true → s.boot.failed = false → v = s.at_ t →
    (∀ c g u, v.mayTrigger w k = true → c = setFld (setFld (setBit (setBit ctl 0 true) 2 false) 3 5 0) 24 8 0 → bit c 0 = true →
      g = { armed := true, nextAt := v.triggerT k : Trigger } →
      u = ((v.updTrigger k (fun _ => g)).setReg (Reg.TIM_TRG_CTL k) (setBit c 2 (decide (v.triggerT k < v.now)))).setReg
        (Reg.TIM_TRG_DONE k) 0 →
      exec (.triggerArm w k ctl t) s =
        .next (State.settle (if v.triggerT k < v.now then u.event Reg.TIM_EVENT 3 else u))) ∧
    (v.mayTrigger w k = false → exec (.triggerArm w k ctl t) s = .next (State.settle (v.permTrap w (Reg.TIM_TRG_CTL k)))) ∧
    (∀ g u, (v.trigger k).armed = true → (v.trigger k).nextAt ≤ v.now → 2 ≤ k → v.pipeOn (k - 2) = false →
      (v.reg (Reg.TIM_TRG_PER k)).toNat = 0 →
      g = { armed := false, nextAt := (v.trigger k).nextAt : Trigger } →
      u = (v.updTrigger k (fun _ => g)).setRfld (Reg.TIM_TRG_CTL k) 0 1 0 →
      exec (.triggerEdge k t) s = .next (State.settle (State.edgeOut
        (u.setReg (Reg.TIM_TRG_DONE k) (v.reg (Reg.TIM_TRG_DONE k) + 1)) k (v.trigger k).nextAt))))

/-- R462, R466, R468, R472: a frame on a port that no pipe owns is counted and raised; one on a pipe's port closes an
open frame as cut short and takes the next trigger; a packet joins the open frame; a frame end closes it; its statistics
record is written; a context that may commits settings, which are then in force. It rests on choices of the model: log
entry 46. -/
def Obligations.CamerasComplete : Prop :=
  ∀ s : State, s.clk.released = true → s.boot.failed = false →
    (∀ q t, s.unitPresent 0x28 = true → s.portPipe q = none → exec (.csiFrameStart q t) s =
      .next (State.settle ((((s.at_ t).count (Reg.CAM_UNOWNED q) 1).event Reg.CAM_EVENT 4).raise Src.CAM_UNOWNED))) ∧
    (∀ q t p e rest, s.unitPresent 0x28 = true → s.portPipe q = some p → (s.pipe p).open_ = none →
      ((((s.at_ t).dropStaleEdges p)).pipe p).queue = e :: rest → exec (.csiFrameStart q t) s =
        .next (State.settle (((s.at_ t).dropStaleEdges p).updPipe p (fun k => { k with
          queue := rest, open_ := some { entry := e, fsAt := ((s.at_ t).dropStaleEdges p).now, lines := [], flags := 0, trunc := false },
          untrig := false })))) ∧
    (∀ q p k, s.portPipe q = some p → exec (.csiLongPacket q k) s = .next (State.settle (s.longPacket p k))) ∧
    (∀ q p f, s.portPipe q = some p → (s.pipe p).open_ = some f → f.lines.length = s.camHeight p → exec (.csiFrameEnd q) s =
      .next (State.settle (s.closeFrame p f))) ∧
    (∀ p, exec (.camStatsRecord p) s = .next (State.settle (s.statsRecord p))) ∧
    (∀ w p, s.unitPresent 0x28 = true → s.mayCamera w p = true →
      ¬(fld (s.reg (Reg.CAM_EXP_C p)) 12 2 = 2 ∧
        fld (s.reg (Reg.CAM_EXP_C p)) 16 16 < max 1 (fld (s.reg (Reg.CAM_EXP_C p)) 0 12) + 32) →
      exec (.camCommit w p) s = .next (State.settle (s.updPipe p (fun k =>
        { k with gen := (k.gen + 1) % 65536, inForce := (settingRegs p).map (fun a => s.reg a) }))))

/-- R448 to R452: on a variant with ETH a link comes up and is lost with ETH_LINK; a frame that is damaged or not for
the module is dropped and counted; the doorbell hands the module the ring entries up to an index; the next one goes out.
R521 to R523, R527: the OBS port answers IDENT, BOOT, RETAIN, SNAP and READ as R522 to R525 say, a write with BADCMD,
counted and told of, and a command that is not listed with BADCMD; OBS_CS_N rising only ends the transaction. R530: with
room again the trace lane sends one LOST record with the count of dropped records, and then what has waited. It rests on
choices of the model: log entries 44, 54, 55, 58. -/
def Obligations.PortsAndTraceComplete : Prop :=
  (∀ s : State, s.clk.released = true → s.boot.failed = false → s.unitPresent 0x24 = true →
    (∀ full, s.rbit Reg.ETH_CTRL 0 = true → 8 ≤ s.boot.phase → exec (.ethAnDone full) s =
      .next (State.settle (s.setReg Reg.ETH_STAT (setBit (setBit (setBit 0 0 full) 1 true) 2 full)))) ∧
    (s.etherUp = true → exec .ethLinkLoss s =
      .next (State.settle (((s.setReg Reg.ETH_STAT 0).event Reg.ETH_EVENT 0).raise Src.ETH_ETH_LINK))) ∧
    (∀ f t, s.etherUp = true → 10 ≤ s.boot.phase → exec (.ethRxFrame f false t) s =
      .next (State.settle (((s.at_ t).count Reg.ETH_FCSERR 1).count Reg.ETH_RXDROP 1))) ∧
    (∀ f t, s.etherUp = true → 10 ≤ s.boot.phase → exec (.ethRxFrame f true t) s =
      .next (State.settle ((s.at_ t).etherIn f true))) ∧
    (∀ w idx, w ≠ 0 → exec (.ethTxdb w idx) s =
      .next (State.settle (s.setReg Reg.ETH_TXDB (setBit (setFld 0 0 4 idx) 31 true)))) ∧
    (∀ t, s.etherUp = true → s.rbit Reg.ETH_TXDB 31 = true → exec (.ethTxDone t) s =
      .next (State.settle (s.at_ t).etherOut))) ∧
  (∀ s : State, s.boot.phase ≠ 0 →
    exec .obsIdent s = .next (State.settle (s.answer ObsStatus.OK
      (s.regBytes [Reg.IDC_PART, Reg.IDC_UNITS_LO, Reg.IDC_UNITS_HI, Reg.IDC_CAP]))) ∧
    exec .obsBoot s = .next (State.settle (s.answer ObsStatus.OK
      (s.regBytes [Reg.BCL_PHASE, Reg.BCL_STATUS, Reg.BCL_SLOTS, Reg.CRU_STATE]))) ∧
    (∀ a n u bs, a % 4 = 0 → a < 2 ^ 40 → 1 ≤ n → n ≤ 256 → 2 ≤ s.boot.phase → State.portWords n s a = (u, .ok bs) →
      exec (.obsRead a n) s = .next (State.settle (u.answer ObsStatus.OK bs))) ∧
    (∀ a n, a % 4 ≠ 0 ∨ 2 ^ 40 ≤ a ∨ n = 0 ∨ 256 < n → exec (.obsRead a n) s =
      .next (State.settle (s.answer ObsStatus.BADCMD []))) ∧
    (∀ off n, off % 4 = 0 → 1 ≤ n → n ≤ 64 → off + 4 * n ≤ 256 → 2 ≤ s.boot.phase → exec (.obsRetain off n) s =
      .next (State.settle (s.answer ObsStatus.OK (slicePad s.island off (4 * n))))) ∧
    (2 ≤ s.boot.phase → exec .obsSnap s = .next (State.settle (s.answer ObsStatus.OK
      (((List.range 64).flatMap (fun i => leBytes 8 (nth s.obs.counts i 0).toNat)) ++ leBytes 8 s.now)))) ∧
    (∀ cmd : Byte, bit cmd 7 = true → exec (.obsWriteTry cmd) s = .next (State.settle
      (((s.count Reg.OBS_WRTRIES 1).event Reg.OBS_EVENT 0).answer ObsStatus.BADCMD []))) ∧
    (∀ cmd : Byte, bit cmd 7 = false → cmd.toNat = 0 ∨ 5 < cmd.toNat → exec (.obsBadcmd cmd) s =
      .next (State.settle (s.answer ObsStatus.BADCMD []))) ∧
    exec .obsCsRise s = .next { s with obs := { s.obs with inTransaction := false } }) ∧
  (∀ s : State, s.boot.phase ≠ 0 → s.obs.lost ≠ 0 → exec .traceLostSend s = .next (State.settle
    (s.obs.buffer.foldl State.sendRecord (State.sendRecord { s with obs := { s.obs with lost := 0, buffer := [] } }
      ([8, 8, 0, 0] ++ leBytes 8 s.now ++ leBytes 4 s.obs.lost ++ [0, 0, 0, 0])))))

/-- R6, R11, R12: a register write of a context: one in an absent unit's block gives ABSENT, an RO or CFG register gives
PERM, a W1C register loses the bits written as 1 and no others, and an RW register is written by its own rule. It rests
on choices of the model: log entries 52, 57. -/
def Obligations.RegisterWritesComplete : Prop :=
  ∀ (s : State) (w a u : Nat) (v : Word) (d : RegDesc), s.clk.released = true → s.boot.failed = false → 4 < s.boot.phase →
    1 ≤ w → w < 64 → a % 4 = 0 → Config.controlBase ≤ a → a < Config.controlEnd → u = State.unitOf a →
    (s.unitPresent u = false → exec (.regWrite w a v) s = .next (State.settle (s.absentTrap w a))) ∧
    (s.unitPresent u = true → findReg u a = none → exec (.regWrite w a v) s = .next (State.settle s)) ∧
    (s.unitPresent u = true → findReg u a = some d → d.access = .ro ∨ d.access = .cfg →
      exec (.regWrite w a v) s = .next (State.settle (s.permTrap w a))) ∧
    (s.unitPresent u = true → findReg u a = some d → d.access = .w1c →
      exec (.regWrite w a v) s = .next (State.settle (s.setReg a (s.reg a &&& ~~~(v &&& d.mask))))) ∧
    (s.unitPresent u = true → findReg u a = some d → d.access = .sup → w ≠ s.super →
      exec (.regWrite w a v) s = .next (State.settle (s.permTrap w a)))

/-! ## Rules of the spec stated whole -/

/-- R455: a context that may set the time has its write of TIM_INC_LO held, and its write of TIM_INC_HI puts both halves
in force; an increment outside 4.9975 to 5.0025 ns is discarded and sets INC_BAD. -/
def Obligations.TimebaseIncrementIsHeldThenApplied : Prop :=
  ∀ (s : State) (w : Nat) (lo hi : Word) (inc : Nat), s.clk.released = true → s.boot.failed = false → 4 < s.boot.phase → w < 64 →
    s.mayTime w = true → s.unitPresent 0x25 = true →
    exec (.regWrite w Reg.TIM_INC_LO lo) s = .next (State.settle (s.setReg Reg.TIM_INC_LO lo)) ∧
    (inc = (s.reg Reg.TIM_INC_LO).toNat + 2 ^ 32 * fld hi 0 3 →
      (49975 * 2 ^ 32 ≤ 10000 * inc → 10000 * inc ≤ 50025 * 2 ^ 32 → exec (.timIncWrite w hi) s = .next (State.settle
        { (s.setReg Reg.TIM_INC_HI (setFld 0 0 3 (fld hi 0 3))).setRfld Reg.TIM_STAT 2 1 0 with
            clk := { s.clk with inc := inc, incAt := s.now } })) ∧
      (10000 * inc < 49975 * 2 ^ 32 ∨ 50025 * 2 ^ 32 < 10000 * inc → exec (.timIncWrite w hi) s =
        .next (State.settle (s.event Reg.TIM_EVENT 0))))

/-- R466: a write of CAM_COMMIT[p] by a context that may copies every staged setting into force and raises GEN by one
modulo 2¹⁶; with SCOUNT 2 and SGAP below SWIDTH + 32 (a SWIDTH of 0 counts as 1) it sets COMMIT_BAD and nothing else. -/
def Obligations.CameraCommitTakesOrRefusesAll : Prop :=
  ∀ (s : State) (w p width : Nat) (c : Word), s.clk.released = true → s.boot.failed = false → s.unitPresent 0x28 = true →
    s.mayCamera w p = true → c = s.reg (Reg.CAM_EXP_C p) → width = (if fld c 0 12 = 0 then 1 else fld c 0 12) →
    (fld c 12 2 ≠ 2 ∨ width + 32 ≤ fld c 16 16 → exec (.camCommit w p) s = .next (State.settle (s.updPipe p (fun k =>
      { k with gen := (k.gen + 1) % 2 ^ 16, inForce := (settingRegs p).map (fun a => s.reg a) })))) ∧
    (fld c 12 2 = 2 → fld c 16 16 < width + 32 → exec (.camCommit w p) s =
      .next (State.settle (s.event Reg.CAM_EVENT 5)))

/-- R527: a CMD with bit 7 set is answered with BADCMD, counted in OBS_WRTRIES and flagged by WRITE_TRY in OBS_EVENT; it
changes nothing but these, the port's own count of commands and what the port has sent, and raises no fault. -/
def Obligations.ObsPortHasNoWrite : Prop :=
  ∀ (s : State) (cmd : Byte), s.boot.phase ≠ 0 → bit cmd 7 = true →
    exec (.obsWriteTry cmd) s = .next (State.settle (State.emit (State.count
      { (s.count Reg.OBS_WRTRIES 1).event Reg.OBS_EVENT 0 with
          obs := { ((s.count Reg.OBS_WRTRIES 1).event Reg.OBS_EVENT 0).obs with inTransaction := true } } Reg.OBS_CMDS 1)
      (.obs ([0x5A, BitVec.ofNat 8 ObsStatus.BADCMD] ++ [crc8 [BitVec.ofNat 8 ObsStatus.BADCMD]]))))

/-- R7: a write to an offset that the map of a present unit does not list is discarded, and a read of it gives 0;
neither changes anything or raises an error. -/
def Obligations.UnlistedOffsetsAreSilent : Prop :=
  ∀ (s : State) (w a : Nat) (v : Word), s.clk.released = true → s.boot.failed = false → 4 < s.boot.phase → 1 ≤ w → w < 64 →
    a % 4 = 0 → Config.controlBase ≤ a → a < Config.controlEnd → s.unitPresent (State.unitOf a) = true →
    findReg (State.unitOf a) a = none →
    exec (.regWrite w a v) s = .next (State.settle s) ∧ s.regLoad w a = (s, .ok, 0)
end

