-- ==== Sys2Proof/Laws/Frames.lean ====
section
/-! SUPPORT. What the shared operations behind frames and directives do: a frame of the twin link or of a cascade port that is next acts
on the state in which it has been delivered, and a directive that is next is accepted or refused. -/

namespace Sys2Proof.Machine

namespace State

/-! ## The twin link -/

@[simp] theorem twinTaken_crn (s : State) (h : FrameHdr) : (s.twinTaken h).crn = s.crn := rfl
@[simp] theorem twinTaken_mot (s : State) (h : FrameHdr) : (s.twinTaken h).mot = s.mot := rfl
@[simp] theorem twinTaken_boot (s : State) (h : FrameHdr) : (s.twinTaken h).boot = s.boot := rfl
@[simp] theorem twinTaken_csc (s : State) (h : FrameHdr) : (s.twinTaken h).csc = s.csc := rfl
@[simp] theorem twinTaken_regs (s : State) (h : FrameHdr) : (s.twinTaken h).regs = s.regs := rfl
@[simp] theorem twinTaken_role (s : State) (h : FrameHdr) : (s.twinTaken h).twn.role = s.twn.role := rfl
@[simp] theorem twinTaken_ties (s : State) (h : FrameHdr) : (s.twinTaken h).twn.ties = s.twn.ties := rfl
@[simp] theorem twinTaken_phase (s : State) (h : FrameHdr) : (s.twinTaken h).twn.phase = s.twn.phase := rfl
@[simp] theorem twinTaken_idBad (s : State) (h : FrameHdr) : (s.twinTaken h).twn.idBad = s.twn.idBad := rfl
@[simp] theorem twinTaken_follows (s : State) (h : FrameHdr) : (s.twinTaken h).follows = s.follows := rfl
@[simp] theorem twinTaken_owns (s : State) (h : FrameHdr) : (s.twinTaken h).owns = s.owns := rfl
@[simp] theorem twinTaken_applies (s : State) (h : FrameHdr) : (s.twinTaken h).twinApplies = s.twinApplies := rfl
@[simp] theorem twinTaken_ordOf (s : State) (h : FrameHdr) (p : BuildPos) : (s.twinTaken h).ordOf p = s.ordOf p := rfl
@[simp] theorem twinTaken_rline (s : State) (h : FrameHdr) (q i : Nat) : (s.twinTaken h).rline q i = s.rline q i := rfl
@[simp] theorem twinTaken_byTwin (s : State) (h : FrameHdr) (y k : Nat) : (s.twinTaken h).byTwin y k = s.byTwin y k := rfl
@[simp] theorem twinTaken_cscPort (s : State) (h : FrameHdr) (d : Bool) : (s.twinTaken h).cscPort d = s.cscPort d := rfl
@[simp] theorem twinTaken_homeStat (s : State) (h : FrameHdr) (a : Nat) : (s.twinTaken h).homeStat a = s.homeStat a := rfl

/-- The next frame of the twin link is delivered. -/
theorem twinIn_next {s : State} {h : FrameHdr} (hn : s.twinNext h = true) : s.twinIn h = (s.twinTaken h, true) := by
  have h2 : h.tseq = s.twn.rxNext := by simpa [twinNext] using (Bool.and_eq_true_iff.mp hn).2
  have h3 : h.good = true := (Bool.and_eq_true_iff.mp (Bool.and_eq_true_iff.mp hn).1).2
  simp [twinIn, twinTaken, h2, h3, twinAck, twinPump, heardOn, updLink]

end State

/-- The next frame of the twin link acts. -/
theorem twinFrame_next {s : State} {h : FrameHdr} (o : State → State) (hn : s.twinNext h = true) :
    twinFrame s h o = done (o (s.twinTaken h)) := by
  have h1 : s.twinListens = true := (Bool.and_eq_true_iff.mp (Bool.and_eq_true_iff.mp hn).1).1
  simp [twinFrame, h1, State.twinIn_next hn]

/-- The next mirrored frame acts at a module that applies it. -/
theorem twinMirror_next {s : State} {h : FrameHdr} (o : State → State) (hn : s.twinNext h = true) (ha : s.twinApplies = true) :
    twinMirror s h o = done (o (s.twinTaken h)) := by
  simp [twinMirror, twinFrame_next _ hn, ha]

namespace State

/-! ## Cascade ports -/

/-- What a frame's passage through a module leaves as it is. -/
structure SameStation (t s : State) : Prop where
  pins : t.pins = s.pins
  regs : t.regs = s.regs
  mot : t.mot = s.mot
  boot : t.boot = s.boot
  role : t.twn.role = s.twn.role
  die : t.die = s.die
  jstate : t.csc.jstate = s.csc.jstate
  timeAsked : t.csc.timeAsked = s.csc.timeAsked
  slots : t.csc.slots = s.csc.slots

theorem SameStation.refl (s : State) : SameStation s s := ⟨rfl, rfl, rfl, rfl, rfl, rfl, rfl, rfl, rfl⟩

theorem SameStation.trans {u t s : State} (h : SameStation u t) (k : SameStation t s) : SameStation u s :=
  ⟨h.1.trans k.1, h.2.trans k.2, h.3.trans k.3, h.4.trans k.4, h.5.trans k.5, h.6.trans k.6, h.7.trans k.7, h.8.trans k.8, h.9.trans k.9⟩

theorem updCsc_same (s : State) (down : Bool) (f : CscPort → CscPort) : SameStation (s.updCsc down f) s := by
  unfold updCsc
  split <;> exact ⟨rfl, rfl, rfl, rfl, rfl, rfl, rfl, rfl, rfl⟩

theorem heardOn_same (s : State) (k : LinkId) : SameStation (s.heardOn k) s := by
  unfold heardOn updLink
  exact ⟨rfl, rfl, rfl, rfl, rfl, rfl, rfl, rfl, rfl⟩

theorem cscEmit_same (s : State) (down : Bool) (f : CscSent) : SameStation (s.cscEmit down f) s := by
  unfold cscEmit emit
  exact ⟨rfl, rfl, rfl, rfl, rfl, rfl, rfl, rfl, rfl⟩

theorem cscPump_same (s : State) (down : Bool) : SameStation (s.cscPump down) s := by
  unfold cscPump updCsc
  dsimp only
  split <;> exact ⟨rfl, rfl, rfl, rfl, rfl, rfl, rfl, rfl, rfl⟩

theorem cscPass_same (s : State) (down : Bool) (typ o l : Nat) (b : Bytes) : SameStation (s.cscPass down typ o l b) s := by
  unfold cscPass
  simp only []
  generalize (if down = true then LinkId.cdn else .cup) = k
  split
  · exact (cscPump_same _ _).trans (updCsc_same s down _)
  · exact SameStation.refl s

theorem mirror_same (s : State) (typ : Nat) (b : Bytes) : SameStation (s.mirror typ b) s := by
  unfold mirror twinSend
  split
  · split <;> exact ⟨rfl, rfl, rfl, rfl, rfl, rfl, rfl, rfl, rfl⟩
  · exact SameStation.refl s

theorem cscAck_same (s : State) (down : Bool) (tack : Nat) : SameStation (s.cscAck down tack) s := by
  unfold cscAck
  exact (cscPump_same _ _).trans ((updCsc_same _ _ _).trans (heardOn_same _ _))

theorem cscTaken_same (s : State) (h : CscHdr) : SameStation (s.cscTaken h) s := by
  have h2 := SameStation.trans (updCsc_same (s.cscAck h.down h.tack) h.down (fun p => { p with rxNext := (h.tseq + 1) % 2 ^ 32 }))
    (cscAck_same s h.down h.tack)
  unfold cscTaken
  simp only []
  split
  · exact h2
  · exact ⟨h2.1, h2.2, h2.3, h2.4, h2.5, h2.6, h2.7, h2.8, h2.9⟩

theorem cscForward_same (s : State) (h : CscHdr) (typ : Nat) (b : Bytes) : SameStation (s.cscForward h typ b) s := by
  unfold cscForward
  simp only []
  split
  · split
    · exact SameStation.refl s
    · exact cscPass_same _ _ _ _ _ _
  · exact cscPass_same _ _ _ _ _ _

theorem cscArrived_same (s : State) (h : CscHdr) (typ : Nat) (b : Bytes) : SameStation (s.cscArrived h typ b) s :=
  (mirror_same _ _ _).trans ((cscForward_same _ _ _ _).trans (cscTaken_same s h))

theorem SameStation.follows {t s : State} (h : SameStation t s) : t.follows = s.follows := by unfold State.follows; rw [h.role]

theorem SameStation.isLead {t s : State} (h : SameStation t s) : t.isLead = s.isLead := by unfold State.isLead; rw [h.pins]

theorem SameStation.isMember {t s : State} (h : SameStation t s) : t.isMember = s.isMember := by
  unfold State.isMember; rw [h.isLead, h.jstate]

theorem SameStation.reg {t s : State} (h : SameStation t s) (a : Nat) : t.reg a = s.reg a := by unfold State.reg; rw [h.regs]

/-- The next frame of a cascade port is delivered. -/
theorem cscIn_next {s : State} {h : CscHdr} (hn : s.cscNext h = true) : s.cscIn h = (s.cscTaken h, true) := by
  unfold cscNext at hn
  simp only [Bool.and_eq_true, Bool.or_eq_true, decide_eq_true_eq] at hn
  obtain ⟨⟨⟨_, h1⟩, h2⟩, h3⟩ := hn
  have ha : ((s.cscAck h.down h.tack).cscPort h.down).rxNext = (s.cscPort h.down).rxNext := by cases h.down <;> rfl
  unfold cscIn cscTaken
  simp only [ha, h1, h2, bne_self_eq_false, Bool.false_eq_true, if_false, Bool.not_true]
  cases hd : h.down with
  | true => simp
  | false =>
    have h3' : (h.ltkn + 65536 - s.csc.ltkn) % 65536 < 32768 := by simpa [hd] using h3
    have hl : ((s.cscAck false h.tack).updCsc false (fun p => { p with rxNext := ((s.cscPort false).rxNext + 1) % 2 ^ 32 })).csc.ltkn =
      s.csc.ltkn := rfl
    rw [if_neg Bool.false_ne_true, hl, if_pos h3']
    rfl

end State

/-- The next frame of a cascade port acts at the module that owns the outputs. -/
theorem cscFrame_next {s : State} {h : CscHdr} (typ : Nat) (b : Bytes) (o : State → State) (hn : s.cscNext h = true)
    (hf : s.follows = false) : cscFrame s h typ b o = done (o (s.cscArrived h typ b)) := by
  have h1 : s.cscListens h.down = true := by
    unfold State.cscNext at hn
    exact (Bool.and_eq_true_iff.mp (Bool.and_eq_true_iff.mp (Bool.and_eq_true_iff.mp hn).1).1).1
  have h2 : ((s.cscTaken h).cscForward h typ b).follows = false :=
    ((State.cscForward_same _ _ _ _).trans (State.cscTaken_same s h)).follows.trans hf
  simp [cscFrame, h1, State.cscIn_next hn, h2, State.cscArrived]

/-! ## Directives -/

namespace State

/-- An accepted directive is mirrored, has its effect and leaves the stream. -/
theorem execDirective_accepts {s : State} {x : Nat} {r : PendRec} {typ : Nat} {raw : Bytes} (is : Nat → Bytes → Bool)
    (h : s.accepts x r typ raw) (hi : is typ raw = true) : s.execDirective x is =
      (((s.goOn x).mirror 4 (outcomeBytes x 0 0 r.segno r.off)).runDirective x typ raw).popRec x := by
  obtain ⟨⟨_, h2, h3, h4⟩, h5, h6⟩ := h
  simp [execDirective, h2, h3, h4, hi, judge, h5, h6, acceptDirective]

/-- A refused directive is mirrored, answered with its code, and halts its stream. -/
theorem execDirective_refused {s : State} {x : Nat} {r : PendRec} {typ : Nat} {raw : Bytes} (is : Nat → Bytes → Bool)
    (h : s.nextDirective x r typ raw) (hi : is typ raw = true) (h5 : (s.goOn x).stallsNow typ raw = false)
    (h6 : (s.goOn x).refusal x typ raw ≠ 0) : s.execDirective x is =
      (((s.goOn x).mirror 4 (outcomeBytes x 2 ((s.goOn x).refusal x typ raw) r.segno r.off)).sendStatus x
        ((s.goOn x).refusal x typ raw) r.segno r.off).haltStream x := by
  obtain ⟨_, h2, h3, h4⟩ := h
  simp [execDirective, h2, h3, h4, hi, judge, h5, h6, refuseDirective, refuse]

/-- A MODE directive that is not refused has a setting. -/
theorem parseMode_of_refusal {s : State} {x : Nat} {raw : Bytes} (h : s.refusal x Dir.MODE raw = 0) : (parseMode raw).isSome = true := by
  cases hp : parseMode raw with
  | some m => rfl
  | none =>
    have hc : s.contentCode Dir.MODE raw = Stat.INVALID := by
      simp [contentCode, hp, Dir.MODE, Dir.HOME, Dir.LAYER_BEGIN, Dir.SWATH, Dir.LAYER_END, Dir.PARK, Dir.WAIT, Dir.BANK_LOAD,
        Dir.WAVE_LOAD, Dir.MASK_LOAD, Dir.CURVE_LOAD]
    unfold refusal at h
    rw [hc] at h
    simp only [Stat.NOT_CONTROL, Stat.NOT_LEAD, Stat.STATE, Stat.ABSENT, Stat.INVALID] at h
    repeat' split at h
    all_goals cases h

end State

end Sys2Proof.Machine
end

