-- ==== Sys2Proof/Laws/State.lean ====
section
/-! SUPPORT. The fields of the state after each named update: what an operation leaves alone, and what it writes. -/

namespace Sys2Proof.Machine.State

variable (s : State)

/-! ## `setReg` -/

@[simp] theorem setReg_pending (a : Nat) (v : BitVec 32) : (s.setReg a v).pending = s.pending := rfl

@[simp] theorem setReg_die (a : Nat) (v : BitVec 32) : (s.setReg a v).die = s.die := rfl

@[simp] theorem setReg_pins (a : Nat) (v : BitVec 32) : (s.setReg a v).pins = s.pins := rfl

@[simp] theorem setReg_clk (a : Nat) (v : BitVec 32) : (s.setReg a v).clk = s.clk := rfl

@[simp] theorem setReg_regs (a : Nat) (v : BitVec 32) : (s.setReg a v).regs = Sparse.put s.regs a v := rfl

@[simp] theorem setReg_captures (a : Nat) (v : BitVec 32) : (s.setReg a v).captures = s.captures := rfl

@[simp] theorem setReg_mem (a : Nat) (v : BitVec 32) : (s.setReg a v).mem = s.mem := rfl

@[simp] theorem setReg_island (a : Nat) (v : BitVec 32) : (s.setReg a v).island = s.island := rfl

@[simp] theorem setReg_boot (a : Nat) (v : BitVec 32) : (s.setReg a v).boot = s.boot := rfl

@[simp] theorem setReg_fco (a : Nat) (v : BitVec 32) : (s.setReg a v).fco = s.fco := rfl

@[simp] theorem setReg_saf (a : Nat) (v : BitVec 32) : (s.setReg a v).saf = s.saf := rfl

@[simp] theorem setReg_bist (a : Nat) (v : BitVec 32) : (s.setReg a v).bist = s.bist := rfl

@[simp] theorem setReg_dose (a : Nat) (v : BitVec 32) : (s.setReg a v).dose = s.dose := rfl

@[simp] theorem setReg_streams (a : Nat) (v : BitVec 32) : (s.setReg a v).streams = s.streams := rfl

@[simp] theorem setReg_job (a : Nat) (v : BitVec 32) : (s.setReg a v).job = s.job := rfl

@[simp] theorem setReg_scree (a : Nat) (v : BitVec 32) : (s.setReg a v).scree = s.scree := rfl

@[simp] theorem setReg_rdg (a : Nat) (v : BitVec 32) : (s.setReg a v).rdg = s.rdg := rfl

@[simp] theorem setReg_crn (a : Nat) (v : BitVec 32) : (s.setReg a v).crn = s.crn := rfl

@[simp] theorem setReg_act (a : Nat) (v : BitVec 32) : (s.setReg a v).act = s.act := rfl

@[simp] theorem setReg_hlk (a : Nat) (v : BitVec 32) : (s.setReg a v).hlk = s.hlk := rfl

@[simp] theorem setReg_stb (a : Nat) (v : BitVec 32) : (s.setReg a v).stb = s.stb := rfl

@[simp] theorem setReg_mot (a : Nat) (v : BitVec 32) : (s.setReg a v).mot = s.mot := rfl

@[simp] theorem setReg_pos (a : Nat) (v : BitVec 32) : (s.setReg a v).pos = s.pos := rfl

@[simp] theorem setReg_stp (a : Nat) (v : BitVec 32) : (s.setReg a v).stp = s.stp := rfl

@[simp] theorem setReg_swi (a : Nat) (v : BitVec 32) : (s.setReg a v).swi = s.swi := rfl

@[simp] theorem setReg_twn (a : Nat) (v : BitVec 32) : (s.setReg a v).twn = s.twn := rfl

@[simp] theorem setReg_csc (a : Nat) (v : BitVec 32) : (s.setReg a v).csc = s.csc := rfl

@[simp] theorem setReg_seq (a : Nat) (v : BitVec 32) : (s.setReg a v).seq = s.seq := rfl

@[simp] theorem setReg_tlb (a : Nat) (v : BitVec 32) : (s.setReg a v).tlb = s.tlb := rfl

@[simp] theorem setReg_mu (a : Nat) (v : BitVec 32) : (s.setReg a v).mu = s.mu := rfl

@[simp] theorem setReg_dmc (a : Nat) (v : BitVec 32) : (s.setReg a v).dmc = s.dmc := rfl

@[simp] theorem setReg_mv (a : Nat) (v : BitVec 32) : (s.setReg a v).mv = s.mv := rfl

@[simp] theorem setReg_links (a : Nat) (v : BitVec 32) : (s.setReg a v).links = s.links := rfl

@[simp] theorem setReg_trg (a : Nat) (v : BitVec 32) : (s.setReg a v).trg = s.trg := rfl

@[simp] theorem setReg_cam (a : Nat) (v : BitVec 32) : (s.setReg a v).cam = s.cam := rfl

@[simp] theorem setReg_cal (a : Nat) (v : BitVec 32) : (s.setReg a v).cal = s.cal := rfl

@[simp] theorem setReg_obs (a : Nat) (v : BitVec 32) : (s.setReg a v).obs = s.obs := rfl

@[simp] theorem setReg_out (a : Nat) (v : BitVec 32) : (s.setReg a v).out = s.out := rfl

@[simp] theorem setReg_draws (a : Nat) (v : BitVec 32) : (s.setReg a v).draws = s.draws := rfl

/-! ## `setRfld` -/

@[simp] theorem setRfld_pending (a lo n x : Nat) : (s.setRfld a lo n x).pending = s.pending := rfl

@[simp] theorem setRfld_die (a lo n x : Nat) : (s.setRfld a lo n x).die = s.die := rfl

@[simp] theorem setRfld_pins (a lo n x : Nat) : (s.setRfld a lo n x).pins = s.pins := rfl

@[simp] theorem setRfld_clk (a lo n x : Nat) : (s.setRfld a lo n x).clk = s.clk := rfl

@[simp] theorem setRfld_regs (a lo n x : Nat) : (s.setRfld a lo n x).regs = Sparse.put s.regs a (setFld (s.reg a) lo n x) := rfl

@[simp] theorem setRfld_captures (a lo n x : Nat) : (s.setRfld a lo n x).captures = s.captures := rfl

@[simp] theorem setRfld_mem (a lo n x : Nat) : (s.setRfld a lo n x).mem = s.mem := rfl

@[simp] theorem setRfld_island (a lo n x : Nat) : (s.setRfld a lo n x).island = s.island := rfl

@[simp] theorem setRfld_boot (a lo n x : Nat) : (s.setRfld a lo n x).boot = s.boot := rfl

@[simp] theorem setRfld_fco (a lo n x : Nat) : (s.setRfld a lo n x).fco = s.fco := rfl

@[simp] theorem setRfld_saf (a lo n x : Nat) : (s.setRfld a lo n x).saf = s.saf := rfl

@[simp] theorem setRfld_bist (a lo n x : Nat) : (s.setRfld a lo n x).bist = s.bist := rfl

@[simp] theorem setRfld_dose (a lo n x : Nat) : (s.setRfld a lo n x).dose = s.dose := rfl

@[simp] theorem setRfld_streams (a lo n x : Nat) : (s.setRfld a lo n x).streams = s.streams := rfl

@[simp] theorem setRfld_job (a lo n x : Nat) : (s.setRfld a lo n x).job = s.job := rfl

@[simp] theorem setRfld_scree (a lo n x : Nat) : (s.setRfld a lo n x).scree = s.scree := rfl

@[simp] theorem setRfld_rdg (a lo n x : Nat) : (s.setRfld a lo n x).rdg = s.rdg := rfl

@[simp] theorem setRfld_crn (a lo n x : Nat) : (s.setRfld a lo n x).crn = s.crn := rfl

@[simp] theorem setRfld_act (a lo n x : Nat) : (s.setRfld a lo n x).act = s.act := rfl

@[simp] theorem setRfld_hlk (a lo n x : Nat) : (s.setRfld a lo n x).hlk = s.hlk := rfl

@[simp] theorem setRfld_stb (a lo n x : Nat) : (s.setRfld a lo n x).stb = s.stb := rfl

@[simp] theorem setRfld_mot (a lo n x : Nat) : (s.setRfld a lo n x).mot = s.mot := rfl

@[simp] theorem setRfld_pos (a lo n x : Nat) : (s.setRfld a lo n x).pos = s.pos := rfl

@[simp] theorem setRfld_stp (a lo n x : Nat) : (s.setRfld a lo n x).stp = s.stp := rfl

@[simp] theorem setRfld_swi (a lo n x : Nat) : (s.setRfld a lo n x).swi = s.swi := rfl

@[simp] theorem setRfld_twn (a lo n x : Nat) : (s.setRfld a lo n x).twn = s.twn := rfl

@[simp] theorem setRfld_csc (a lo n x : Nat) : (s.setRfld a lo n x).csc = s.csc := rfl

@[simp] theorem setRfld_seq (a lo n x : Nat) : (s.setRfld a lo n x).seq = s.seq := rfl

@[simp] theorem setRfld_tlb (a lo n x : Nat) : (s.setRfld a lo n x).tlb = s.tlb := rfl

@[simp] theorem setRfld_mu (a lo n x : Nat) : (s.setRfld a lo n x).mu = s.mu := rfl

@[simp] theorem setRfld_dmc (a lo n x : Nat) : (s.setRfld a lo n x).dmc = s.dmc := rfl

@[simp] theorem setRfld_mv (a lo n x : Nat) : (s.setRfld a lo n x).mv = s.mv := rfl

@[simp] theorem setRfld_links (a lo n x : Nat) : (s.setRfld a lo n x).links = s.links := rfl

@[simp] theorem setRfld_trg (a lo n x : Nat) : (s.setRfld a lo n x).trg = s.trg := rfl

@[simp] theorem setRfld_cam (a lo n x : Nat) : (s.setRfld a lo n x).cam = s.cam := rfl

@[simp] theorem setRfld_cal (a lo n x : Nat) : (s.setRfld a lo n x).cal = s.cal := rfl

@[simp] theorem setRfld_obs (a lo n x : Nat) : (s.setRfld a lo n x).obs = s.obs := rfl

@[simp] theorem setRfld_out (a lo n x : Nat) : (s.setRfld a lo n x).out = s.out := rfl

@[simp] theorem setRfld_draws (a lo n x : Nat) : (s.setRfld a lo n x).draws = s.draws := rfl

/-! ## `event` -/

@[simp] theorem event_pending (a i : Nat) : (s.event a i).pending = s.pending := rfl

@[simp] theorem event_die (a i : Nat) : (s.event a i).die = s.die := rfl

@[simp] theorem event_pins (a i : Nat) : (s.event a i).pins = s.pins := rfl

@[simp] theorem event_clk (a i : Nat) : (s.event a i).clk = s.clk := rfl

@[simp] theorem event_regs (a i : Nat) : (s.event a i).regs = Sparse.put s.regs a (setBit (s.reg a) i true) := rfl

@[simp] theorem event_captures (a i : Nat) : (s.event a i).captures = s.captures := rfl

@[simp] theorem event_mem (a i : Nat) : (s.event a i).mem = s.mem := rfl

@[simp] theorem event_island (a i : Nat) : (s.event a i).island = s.island := rfl

@[simp] theorem event_boot (a i : Nat) : (s.event a i).boot = s.boot := rfl

@[simp] theorem event_fco (a i : Nat) : (s.event a i).fco = s.fco := rfl

@[simp] theorem event_saf (a i : Nat) : (s.event a i).saf = s.saf := rfl

@[simp] theorem event_bist (a i : Nat) : (s.event a i).bist = s.bist := rfl

@[simp] theorem event_dose (a i : Nat) : (s.event a i).dose = s.dose := rfl

@[simp] theorem event_streams (a i : Nat) : (s.event a i).streams = s.streams := rfl

@[simp] theorem event_job (a i : Nat) : (s.event a i).job = s.job := rfl

@[simp] theorem event_scree (a i : Nat) : (s.event a i).scree = s.scree := rfl

@[simp] theorem event_rdg (a i : Nat) : (s.event a i).rdg = s.rdg := rfl

@[simp] theorem event_crn (a i : Nat) : (s.event a i).crn = s.crn := rfl

@[simp] theorem event_act (a i : Nat) : (s.event a i).act = s.act := rfl

@[simp] theorem event_hlk (a i : Nat) : (s.event a i).hlk = s.hlk := rfl

@[simp] theorem event_stb (a i : Nat) : (s.event a i).stb = s.stb := rfl

@[simp] theorem event_mot (a i : Nat) : (s.event a i).mot = s.mot := rfl

@[simp] theorem event_pos (a i : Nat) : (s.event a i).pos = s.pos := rfl

@[simp] theorem event_stp (a i : Nat) : (s.event a i).stp = s.stp := rfl

@[simp] theorem event_swi (a i : Nat) : (s.event a i).swi = s.swi := rfl

@[simp] theorem event_twn (a i : Nat) : (s.event a i).twn = s.twn := rfl

@[simp] theorem event_csc (a i : Nat) : (s.event a i).csc = s.csc := rfl

@[simp] theorem event_seq (a i : Nat) : (s.event a i).seq = s.seq := rfl

@[simp] theorem event_tlb (a i : Nat) : (s.event a i).tlb = s.tlb := rfl

@[simp] theorem event_mu (a i : Nat) : (s.event a i).mu = s.mu := rfl

@[simp] theorem event_dmc (a i : Nat) : (s.event a i).dmc = s.dmc := rfl

@[simp] theorem event_mv (a i : Nat) : (s.event a i).mv = s.mv := rfl

@[simp] theorem event_links (a i : Nat) : (s.event a i).links = s.links := rfl

@[simp] theorem event_trg (a i : Nat) : (s.event a i).trg = s.trg := rfl

@[simp] theorem event_cam (a i : Nat) : (s.event a i).cam = s.cam := rfl

@[simp] theorem event_cal (a i : Nat) : (s.event a i).cal = s.cal := rfl

@[simp] theorem event_obs (a i : Nat) : (s.event a i).obs = s.obs := rfl

@[simp] theorem event_out (a i : Nat) : (s.event a i).out = s.out := rfl

@[simp] theorem event_draws (a i : Nat) : (s.event a i).draws = s.draws := rfl

/-! ## `count` -/

@[simp] theorem count_pending (a n : Nat) : (s.count a n).pending = s.pending := rfl

@[simp] theorem count_die (a n : Nat) : (s.count a n).die = s.die := rfl

@[simp] theorem count_pins (a n : Nat) : (s.count a n).pins = s.pins := rfl

@[simp] theorem count_clk (a n : Nat) : (s.count a n).clk = s.clk := rfl

@[simp] theorem count_regs (a n : Nat) : (s.count a n).regs = Sparse.put s.regs a (BitVec.ofNat 32 (min 0xFFFFFFFF ((s.reg a).toNat + n))) := rfl

@[simp] theorem count_captures (a n : Nat) : (s.count a n).captures = s.captures := rfl

@[simp] theorem count_mem (a n : Nat) : (s.count a n).mem = s.mem := rfl

@[simp] theorem count_island (a n : Nat) : (s.count a n).island = s.island := rfl

@[simp] theorem count_boot (a n : Nat) : (s.count a n).boot = s.boot := rfl

@[simp] theorem count_fco (a n : Nat) : (s.count a n).fco = s.fco := rfl

@[simp] theorem count_saf (a n : Nat) : (s.count a n).saf = s.saf := rfl

@[simp] theorem count_bist (a n : Nat) : (s.count a n).bist = s.bist := rfl

@[simp] theorem count_dose (a n : Nat) : (s.count a n).dose = s.dose := rfl

@[simp] theorem count_streams (a n : Nat) : (s.count a n).streams = s.streams := rfl

@[simp] theorem count_job (a n : Nat) : (s.count a n).job = s.job := rfl

@[simp] theorem count_scree (a n : Nat) : (s.count a n).scree = s.scree := rfl

@[simp] theorem count_rdg (a n : Nat) : (s.count a n).rdg = s.rdg := rfl

@[simp] theorem count_crn (a n : Nat) : (s.count a n).crn = s.crn := rfl

@[simp] theorem count_act (a n : Nat) : (s.count a n).act = s.act := rfl

@[simp] theorem count_hlk (a n : Nat) : (s.count a n).hlk = s.hlk := rfl

@[simp] theorem count_stb (a n : Nat) : (s.count a n).stb = s.stb := rfl

@[simp] theorem count_mot (a n : Nat) : (s.count a n).mot = s.mot := rfl

@[simp] theorem count_pos (a n : Nat) : (s.count a n).pos = s.pos := rfl

@[simp] theorem count_stp (a n : Nat) : (s.count a n).stp = s.stp := rfl

@[simp] theorem count_swi (a n : Nat) : (s.count a n).swi = s.swi := rfl

@[simp] theorem count_twn (a n : Nat) : (s.count a n).twn = s.twn := rfl

@[simp] theorem count_csc (a n : Nat) : (s.count a n).csc = s.csc := rfl

@[simp] theorem count_seq (a n : Nat) : (s.count a n).seq = s.seq := rfl

@[simp] theorem count_tlb (a n : Nat) : (s.count a n).tlb = s.tlb := rfl

@[simp] theorem count_mu (a n : Nat) : (s.count a n).mu = s.mu := rfl

@[simp] theorem count_dmc (a n : Nat) : (s.count a n).dmc = s.dmc := rfl

@[simp] theorem count_mv (a n : Nat) : (s.count a n).mv = s.mv := rfl

@[simp] theorem count_links (a n : Nat) : (s.count a n).links = s.links := rfl

@[simp] theorem count_trg (a n : Nat) : (s.count a n).trg = s.trg := rfl

@[simp] theorem count_cam (a n : Nat) : (s.count a n).cam = s.cam := rfl

@[simp] theorem count_cal (a n : Nat) : (s.count a n).cal = s.cal := rfl

@[simp] theorem count_obs (a n : Nat) : (s.count a n).obs = s.obs := rfl

@[simp] theorem count_out (a n : Nat) : (s.count a n).out = s.out := rfl

@[simp] theorem count_draws (a n : Nat) : (s.count a n).draws = s.draws := rfl

/-! ## `emit` -/

@[simp] theorem emit_pending (o : Output) : (s.emit o).pending = s.pending := rfl

@[simp] theorem emit_die (o : Output) : (s.emit o).die = s.die := rfl

@[simp] theorem emit_pins (o : Output) : (s.emit o).pins = s.pins := rfl

@[simp] theorem emit_clk (o : Output) : (s.emit o).clk = s.clk := rfl

@[simp] theorem emit_regs (o : Output) : (s.emit o).regs = s.regs := rfl

@[simp] theorem emit_captures (o : Output) : (s.emit o).captures = s.captures := rfl

@[simp] theorem emit_mem (o : Output) : (s.emit o).mem = s.mem := rfl

@[simp] theorem emit_island (o : Output) : (s.emit o).island = s.island := rfl

@[simp] theorem emit_boot (o : Output) : (s.emit o).boot = s.boot := rfl

@[simp] theorem emit_fco (o : Output) : (s.emit o).fco = s.fco := rfl

@[simp] theorem emit_saf (o : Output) : (s.emit o).saf = s.saf := rfl

@[simp] theorem emit_bist (o : Output) : (s.emit o).bist = s.bist := rfl

@[simp] theorem emit_dose (o : Output) : (s.emit o).dose = s.dose := rfl

@[simp] theorem emit_streams (o : Output) : (s.emit o).streams = s.streams := rfl

@[simp] theorem emit_job (o : Output) : (s.emit o).job = s.job := rfl

@[simp] theorem emit_scree (o : Output) : (s.emit o).scree = s.scree := rfl

@[simp] theorem emit_rdg (o : Output) : (s.emit o).rdg = s.rdg := rfl

@[simp] theorem emit_crn (o : Output) : (s.emit o).crn = s.crn := rfl

@[simp] theorem emit_act (o : Output) : (s.emit o).act = s.act := rfl

@[simp] theorem emit_hlk (o : Output) : (s.emit o).hlk = s.hlk := rfl

@[simp] theorem emit_stb (o : Output) : (s.emit o).stb = s.stb := rfl

@[simp] theorem emit_mot (o : Output) : (s.emit o).mot = s.mot := rfl

@[simp] theorem emit_pos (o : Output) : (s.emit o).pos = s.pos := rfl

@[simp] theorem emit_stp (o : Output) : (s.emit o).stp = s.stp := rfl

@[simp] theorem emit_swi (o : Output) : (s.emit o).swi = s.swi := rfl

@[simp] theorem emit_twn (o : Output) : (s.emit o).twn = s.twn := rfl

@[simp] theorem emit_csc (o : Output) : (s.emit o).csc = s.csc := rfl

@[simp] theorem emit_seq (o : Output) : (s.emit o).seq = s.seq := rfl

@[simp] theorem emit_tlb (o : Output) : (s.emit o).tlb = s.tlb := rfl

@[simp] theorem emit_mu (o : Output) : (s.emit o).mu = s.mu := rfl

@[simp] theorem emit_dmc (o : Output) : (s.emit o).dmc = s.dmc := rfl

@[simp] theorem emit_mv (o : Output) : (s.emit o).mv = s.mv := rfl

@[simp] theorem emit_links (o : Output) : (s.emit o).links = s.links := rfl

@[simp] theorem emit_trg (o : Output) : (s.emit o).trg = s.trg := rfl

@[simp] theorem emit_cam (o : Output) : (s.emit o).cam = s.cam := rfl

@[simp] theorem emit_cal (o : Output) : (s.emit o).cal = s.cal := rfl

@[simp] theorem emit_obs (o : Output) : (s.emit o).obs = s.obs := rfl

@[simp] theorem emit_out (o : Output) : (s.emit o).out = o :: s.out := rfl

@[simp] theorem emit_draws (o : Output) : (s.emit o).draws = s.draws := rfl

/-! ## `updCtx` -/

@[simp] theorem updCtx_pending (c : Nat) (f : Ctx → Ctx) : (s.updCtx c f).pending = s.pending := rfl

@[simp] theorem updCtx_die (c : Nat) (f : Ctx → Ctx) : (s.updCtx c f).die = s.die := rfl

@[simp] theorem updCtx_pins (c : Nat) (f : Ctx → Ctx) : (s.updCtx c f).pins = s.pins := rfl

@[simp] theorem updCtx_clk (c : Nat) (f : Ctx → Ctx) : (s.updCtx c f).clk = s.clk := rfl

@[simp] theorem updCtx_regs (c : Nat) (f : Ctx → Ctx) : (s.updCtx c f).regs = s.regs := rfl

@[simp] theorem updCtx_captures (c : Nat) (f : Ctx → Ctx) : (s.updCtx c f).captures = s.captures := rfl

@[simp] theorem updCtx_mem (c : Nat) (f : Ctx → Ctx) : (s.updCtx c f).mem = s.mem := rfl

@[simp] theorem updCtx_island (c : Nat) (f : Ctx → Ctx) : (s.updCtx c f).island = s.island := rfl

@[simp] theorem updCtx_boot (c : Nat) (f : Ctx → Ctx) : (s.updCtx c f).boot = s.boot := rfl

@[simp] theorem updCtx_fco (c : Nat) (f : Ctx → Ctx) : (s.updCtx c f).fco = s.fco := rfl

@[simp] theorem updCtx_saf (c : Nat) (f : Ctx → Ctx) : (s.updCtx c f).saf = s.saf := rfl

@[simp] theorem updCtx_bist (c : Nat) (f : Ctx → Ctx) : (s.updCtx c f).bist = s.bist := rfl

@[simp] theorem updCtx_dose (c : Nat) (f : Ctx → Ctx) : (s.updCtx c f).dose = s.dose := rfl

@[simp] theorem updCtx_streams (c : Nat) (f : Ctx → Ctx) : (s.updCtx c f).streams = s.streams := rfl

@[simp] theorem updCtx_job (c : Nat) (f : Ctx → Ctx) : (s.updCtx c f).job = s.job := rfl

@[simp] theorem updCtx_scree (c : Nat) (f : Ctx → Ctx) : (s.updCtx c f).scree = s.scree := rfl

@[simp] theorem updCtx_rdg (c : Nat) (f : Ctx → Ctx) : (s.updCtx c f).rdg = s.rdg := rfl

@[simp] theorem updCtx_crn (c : Nat) (f : Ctx → Ctx) : (s.updCtx c f).crn = s.crn := rfl

@[simp] theorem updCtx_act (c : Nat) (f : Ctx → Ctx) : (s.updCtx c f).act = s.act := rfl

@[simp] theorem updCtx_hlk (c : Nat) (f : Ctx → Ctx) : (s.updCtx c f).hlk = s.hlk := rfl

@[simp] theorem updCtx_stb (c : Nat) (f : Ctx → Ctx) : (s.updCtx c f).stb = s.stb := rfl

@[simp] theorem updCtx_mot (c : Nat) (f : Ctx → Ctx) : (s.updCtx c f).mot = s.mot := rfl

@[simp] theorem updCtx_pos (c : Nat) (f : Ctx → Ctx) : (s.updCtx c f).pos = s.pos := rfl

@[simp] theorem updCtx_stp (c : Nat) (f : Ctx → Ctx) : (s.updCtx c f).stp = s.stp := rfl

@[simp] theorem updCtx_swi (c : Nat) (f : Ctx → Ctx) : (s.updCtx c f).swi = s.swi := rfl

@[simp] theorem updCtx_twn (c : Nat) (f : Ctx → Ctx) : (s.updCtx c f).twn = s.twn := rfl

@[simp] theorem updCtx_csc (c : Nat) (f : Ctx → Ctx) : (s.updCtx c f).csc = s.csc := rfl

@[simp] theorem updCtx_seq (c : Nat) (f : Ctx → Ctx) : (s.updCtx c f).seq = { s.seq with ctxs := upd s.seq.ctxs c f } := rfl

@[simp] theorem updCtx_tlb (c : Nat) (f : Ctx → Ctx) : (s.updCtx c f).tlb = s.tlb := rfl

@[simp] theorem updCtx_mu (c : Nat) (f : Ctx → Ctx) : (s.updCtx c f).mu = s.mu := rfl

@[simp] theorem updCtx_dmc (c : Nat) (f : Ctx → Ctx) : (s.updCtx c f).dmc = s.dmc := rfl

@[simp] theorem updCtx_mv (c : Nat) (f : Ctx → Ctx) : (s.updCtx c f).mv = s.mv := rfl

@[simp] theorem updCtx_links (c : Nat) (f : Ctx → Ctx) : (s.updCtx c f).links = s.links := rfl

@[simp] theorem updCtx_trg (c : Nat) (f : Ctx → Ctx) : (s.updCtx c f).trg = s.trg := rfl

@[simp] theorem updCtx_cam (c : Nat) (f : Ctx → Ctx) : (s.updCtx c f).cam = s.cam := rfl

@[simp] theorem updCtx_cal (c : Nat) (f : Ctx → Ctx) : (s.updCtx c f).cal = s.cal := rfl

@[simp] theorem updCtx_obs (c : Nat) (f : Ctx → Ctx) : (s.updCtx c f).obs = s.obs := rfl

@[simp] theorem updCtx_out (c : Nat) (f : Ctx → Ctx) : (s.updCtx c f).out = s.out := rfl

@[simp] theorem updCtx_draws (c : Nat) (f : Ctx → Ctx) : (s.updCtx c f).draws = s.draws := rfl

/-! ## `updStream` -/

@[simp] theorem updStream_pending (x : Nat) (f : Stream → Stream) : (s.updStream x f).pending = s.pending := rfl

@[simp] theorem updStream_die (x : Nat) (f : Stream → Stream) : (s.updStream x f).die = s.die := rfl

@[simp] theorem updStream_pins (x : Nat) (f : Stream → Stream) : (s.updStream x f).pins = s.pins := rfl

@[simp] theorem updStream_clk (x : Nat) (f : Stream → Stream) : (s.updStream x f).clk = s.clk := rfl

@[simp] theorem updStream_regs (x : Nat) (f : Stream → Stream) : (s.updStream x f).regs = s.regs := rfl

@[simp] theorem updStream_captures (x : Nat) (f : Stream → Stream) : (s.updStream x f).captures = s.captures := rfl

@[simp] theorem updStream_mem (x : Nat) (f : Stream → Stream) : (s.updStream x f).mem = s.mem := rfl

@[simp] theorem updStream_island (x : Nat) (f : Stream → Stream) : (s.updStream x f).island = s.island := rfl

@[simp] theorem updStream_boot (x : Nat) (f : Stream → Stream) : (s.updStream x f).boot = s.boot := rfl

@[simp] theorem updStream_fco (x : Nat) (f : Stream → Stream) : (s.updStream x f).fco = s.fco := rfl

@[simp] theorem updStream_saf (x : Nat) (f : Stream → Stream) : (s.updStream x f).saf = s.saf := rfl

@[simp] theorem updStream_bist (x : Nat) (f : Stream → Stream) : (s.updStream x f).bist = s.bist := rfl

@[simp] theorem updStream_dose (x : Nat) (f : Stream → Stream) : (s.updStream x f).dose = s.dose := rfl

@[simp] theorem updStream_streams (x : Nat) (f : Stream → Stream) : (s.updStream x f).streams = upd s.streams x f := rfl

@[simp] theorem updStream_job (x : Nat) (f : Stream → Stream) : (s.updStream x f).job = s.job := rfl

@[simp] theorem updStream_scree (x : Nat) (f : Stream → Stream) : (s.updStream x f).scree = s.scree := rfl

@[simp] theorem updStream_rdg (x : Nat) (f : Stream → Stream) : (s.updStream x f).rdg = s.rdg := rfl

@[simp] theorem updStream_crn (x : Nat) (f : Stream → Stream) : (s.updStream x f).crn = s.crn := rfl

@[simp] theorem updStream_act (x : Nat) (f : Stream → Stream) : (s.updStream x f).act = s.act := rfl

@[simp] theorem updStream_hlk (x : Nat) (f : Stream → Stream) : (s.updStream x f).hlk = s.hlk := rfl

@[simp] theorem updStream_stb (x : Nat) (f : Stream → Stream) : (s.updStream x f).stb = s.stb := rfl

@[simp] theorem updStream_mot (x : Nat) (f : Stream → Stream) : (s.updStream x f).mot = s.mot := rfl

@[simp] theorem updStream_pos (x : Nat) (f : Stream → Stream) : (s.updStream x f).pos = s.pos := rfl

@[simp] theorem updStream_stp (x : Nat) (f : Stream → Stream) : (s.updStream x f).stp = s.stp := rfl

@[simp] theorem updStream_swi (x : Nat) (f : Stream → Stream) : (s.updStream x f).swi = s.swi := rfl

@[simp] theorem updStream_twn (x : Nat) (f : Stream → Stream) : (s.updStream x f).twn = s.twn := rfl

@[simp] theorem updStream_csc (x : Nat) (f : Stream → Stream) : (s.updStream x f).csc = s.csc := rfl

@[simp] theorem updStream_seq (x : Nat) (f : Stream → Stream) : (s.updStream x f).seq = s.seq := rfl

@[simp] theorem updStream_tlb (x : Nat) (f : Stream → Stream) : (s.updStream x f).tlb = s.tlb := rfl

@[simp] theorem updStream_mu (x : Nat) (f : Stream → Stream) : (s.updStream x f).mu = s.mu := rfl

@[simp] theorem updStream_dmc (x : Nat) (f : Stream → Stream) : (s.updStream x f).dmc = s.dmc := rfl

@[simp] theorem updStream_mv (x : Nat) (f : Stream → Stream) : (s.updStream x f).mv = s.mv := rfl

@[simp] theorem updStream_links (x : Nat) (f : Stream → Stream) : (s.updStream x f).links = s.links := rfl

@[simp] theorem updStream_trg (x : Nat) (f : Stream → Stream) : (s.updStream x f).trg = s.trg := rfl

@[simp] theorem updStream_cam (x : Nat) (f : Stream → Stream) : (s.updStream x f).cam = s.cam := rfl

@[simp] theorem updStream_cal (x : Nat) (f : Stream → Stream) : (s.updStream x f).cal = s.cal := rfl

@[simp] theorem updStream_obs (x : Nat) (f : Stream → Stream) : (s.updStream x f).obs = s.obs := rfl

@[simp] theorem updStream_out (x : Nat) (f : Stream → Stream) : (s.updStream x f).out = s.out := rfl

@[simp] theorem updStream_draws (x : Nat) (f : Stream → Stream) : (s.updStream x f).draws = s.draws := rfl

/-! ## `updRidge` -/

@[simp] theorem updRidge_pending (i : Nat) (f : Ridge → Ridge) : (s.updRidge i f).pending = s.pending := rfl

@[simp] theorem updRidge_die (i : Nat) (f : Ridge → Ridge) : (s.updRidge i f).die = s.die := rfl

@[simp] theorem updRidge_pins (i : Nat) (f : Ridge → Ridge) : (s.updRidge i f).pins = s.pins := rfl

@[simp] theorem updRidge_clk (i : Nat) (f : Ridge → Ridge) : (s.updRidge i f).clk = s.clk := rfl

@[simp] theorem updRidge_regs (i : Nat) (f : Ridge → Ridge) : (s.updRidge i f).regs = s.regs := rfl

@[simp] theorem updRidge_captures (i : Nat) (f : Ridge → Ridge) : (s.updRidge i f).captures = s.captures := rfl

@[simp] theorem updRidge_mem (i : Nat) (f : Ridge → Ridge) : (s.updRidge i f).mem = s.mem := rfl

@[simp] theorem updRidge_island (i : Nat) (f : Ridge → Ridge) : (s.updRidge i f).island = s.island := rfl

@[simp] theorem updRidge_boot (i : Nat) (f : Ridge → Ridge) : (s.updRidge i f).boot = s.boot := rfl

@[simp] theorem updRidge_fco (i : Nat) (f : Ridge → Ridge) : (s.updRidge i f).fco = s.fco := rfl

@[simp] theorem updRidge_saf (i : Nat) (f : Ridge → Ridge) : (s.updRidge i f).saf = s.saf := rfl

@[simp] theorem updRidge_bist (i : Nat) (f : Ridge → Ridge) : (s.updRidge i f).bist = s.bist := rfl

@[simp] theorem updRidge_dose (i : Nat) (f : Ridge → Ridge) : (s.updRidge i f).dose = s.dose := rfl

@[simp] theorem updRidge_streams (i : Nat) (f : Ridge → Ridge) : (s.updRidge i f).streams = s.streams := rfl

@[simp] theorem updRidge_job (i : Nat) (f : Ridge → Ridge) : (s.updRidge i f).job = s.job := rfl

@[simp] theorem updRidge_scree (i : Nat) (f : Ridge → Ridge) : (s.updRidge i f).scree = s.scree := rfl

@[simp] theorem updRidge_rdg (i : Nat) (f : Ridge → Ridge) : (s.updRidge i f).rdg = { s.rdg with ridges := upd s.rdg.ridges i f } := rfl

@[simp] theorem updRidge_crn (i : Nat) (f : Ridge → Ridge) : (s.updRidge i f).crn = s.crn := rfl

@[simp] theorem updRidge_act (i : Nat) (f : Ridge → Ridge) : (s.updRidge i f).act = s.act := rfl

@[simp] theorem updRidge_hlk (i : Nat) (f : Ridge → Ridge) : (s.updRidge i f).hlk = s.hlk := rfl

@[simp] theorem updRidge_stb (i : Nat) (f : Ridge → Ridge) : (s.updRidge i f).stb = s.stb := rfl

@[simp] theorem updRidge_mot (i : Nat) (f : Ridge → Ridge) : (s.updRidge i f).mot = s.mot := rfl

@[simp] theorem updRidge_pos (i : Nat) (f : Ridge → Ridge) : (s.updRidge i f).pos = s.pos := rfl

@[simp] theorem updRidge_stp (i : Nat) (f : Ridge → Ridge) : (s.updRidge i f).stp = s.stp := rfl

@[simp] theorem updRidge_swi (i : Nat) (f : Ridge → Ridge) : (s.updRidge i f).swi = s.swi := rfl

@[simp] theorem updRidge_twn (i : Nat) (f : Ridge → Ridge) : (s.updRidge i f).twn = s.twn := rfl

@[simp] theorem updRidge_csc (i : Nat) (f : Ridge → Ridge) : (s.updRidge i f).csc = s.csc := rfl

@[simp] theorem updRidge_seq (i : Nat) (f : Ridge → Ridge) : (s.updRidge i f).seq = s.seq := rfl

@[simp] theorem updRidge_tlb (i : Nat) (f : Ridge → Ridge) : (s.updRidge i f).tlb = s.tlb := rfl

@[simp] theorem updRidge_mu (i : Nat) (f : Ridge → Ridge) : (s.updRidge i f).mu = s.mu := rfl

@[simp] theorem updRidge_dmc (i : Nat) (f : Ridge → Ridge) : (s.updRidge i f).dmc = s.dmc := rfl

@[simp] theorem updRidge_mv (i : Nat) (f : Ridge → Ridge) : (s.updRidge i f).mv = s.mv := rfl

@[simp] theorem updRidge_links (i : Nat) (f : Ridge → Ridge) : (s.updRidge i f).links = s.links := rfl

@[simp] theorem updRidge_trg (i : Nat) (f : Ridge → Ridge) : (s.updRidge i f).trg = s.trg := rfl

@[simp] theorem updRidge_cam (i : Nat) (f : Ridge → Ridge) : (s.updRidge i f).cam = s.cam := rfl

@[simp] theorem updRidge_cal (i : Nat) (f : Ridge → Ridge) : (s.updRidge i f).cal = s.cal := rfl

@[simp] theorem updRidge_obs (i : Nat) (f : Ridge → Ridge) : (s.updRidge i f).obs = s.obs := rfl

@[simp] theorem updRidge_out (i : Nat) (f : Ridge → Ridge) : (s.updRidge i f).out = s.out := rfl

@[simp] theorem updRidge_draws (i : Nat) (f : Ridge → Ridge) : (s.updRidge i f).draws = s.draws := rfl

/-! ## `updJob` -/

@[simp] theorem updJob_pending (l : Nat) (f : JobLink → JobLink) : (s.updJob l f).pending = s.pending := rfl

@[simp] theorem updJob_die (l : Nat) (f : JobLink → JobLink) : (s.updJob l f).die = s.die := rfl

@[simp] theorem updJob_pins (l : Nat) (f : JobLink → JobLink) : (s.updJob l f).pins = s.pins := rfl

@[simp] theorem updJob_clk (l : Nat) (f : JobLink → JobLink) : (s.updJob l f).clk = s.clk := rfl

@[simp] theorem updJob_regs (l : Nat) (f : JobLink → JobLink) : (s.updJob l f).regs = s.regs := rfl

@[simp] theorem updJob_captures (l : Nat) (f : JobLink → JobLink) : (s.updJob l f).captures = s.captures := rfl

@[simp] theorem updJob_mem (l : Nat) (f : JobLink → JobLink) : (s.updJob l f).mem = s.mem := rfl

@[simp] theorem updJob_island (l : Nat) (f : JobLink → JobLink) : (s.updJob l f).island = s.island := rfl

@[simp] theorem updJob_boot (l : Nat) (f : JobLink → JobLink) : (s.updJob l f).boot = s.boot := rfl

@[simp] theorem updJob_fco (l : Nat) (f : JobLink → JobLink) : (s.updJob l f).fco = s.fco := rfl

@[simp] theorem updJob_saf (l : Nat) (f : JobLink → JobLink) : (s.updJob l f).saf = s.saf := rfl

@[simp] theorem updJob_bist (l : Nat) (f : JobLink → JobLink) : (s.updJob l f).bist = s.bist := rfl

@[simp] theorem updJob_dose (l : Nat) (f : JobLink → JobLink) : (s.updJob l f).dose = s.dose := rfl

@[simp] theorem updJob_streams (l : Nat) (f : JobLink → JobLink) : (s.updJob l f).streams = s.streams := rfl

@[simp] theorem updJob_job (l : Nat) (f : JobLink → JobLink) : (s.updJob l f).job = upd s.job l f := rfl

@[simp] theorem updJob_scree (l : Nat) (f : JobLink → JobLink) : (s.updJob l f).scree = s.scree := rfl

@[simp] theorem updJob_rdg (l : Nat) (f : JobLink → JobLink) : (s.updJob l f).rdg = s.rdg := rfl

@[simp] theorem updJob_crn (l : Nat) (f : JobLink → JobLink) : (s.updJob l f).crn = s.crn := rfl

@[simp] theorem updJob_act (l : Nat) (f : JobLink → JobLink) : (s.updJob l f).act = s.act := rfl

@[simp] theorem updJob_hlk (l : Nat) (f : JobLink → JobLink) : (s.updJob l f).hlk = s.hlk := rfl

@[simp] theorem updJob_stb (l : Nat) (f : JobLink → JobLink) : (s.updJob l f).stb = s.stb := rfl

@[simp] theorem updJob_mot (l : Nat) (f : JobLink → JobLink) : (s.updJob l f).mot = s.mot := rfl

@[simp] theorem updJob_pos (l : Nat) (f : JobLink → JobLink) : (s.updJob l f).pos = s.pos := rfl

@[simp] theorem updJob_stp (l : Nat) (f : JobLink → JobLink) : (s.updJob l f).stp = s.stp := rfl

@[simp] theorem updJob_swi (l : Nat) (f : JobLink → JobLink) : (s.updJob l f).swi = s.swi := rfl

@[simp] theorem updJob_twn (l : Nat) (f : JobLink → JobLink) : (s.updJob l f).twn = s.twn := rfl

@[simp] theorem updJob_csc (l : Nat) (f : JobLink → JobLink) : (s.updJob l f).csc = s.csc := rfl

@[simp] theorem updJob_seq (l : Nat) (f : JobLink → JobLink) : (s.updJob l f).seq = s.seq := rfl

@[simp] theorem updJob_tlb (l : Nat) (f : JobLink → JobLink) : (s.updJob l f).tlb = s.tlb := rfl

@[simp] theorem updJob_mu (l : Nat) (f : JobLink → JobLink) : (s.updJob l f).mu = s.mu := rfl

@[simp] theorem updJob_dmc (l : Nat) (f : JobLink → JobLink) : (s.updJob l f).dmc = s.dmc := rfl

@[simp] theorem updJob_mv (l : Nat) (f : JobLink → JobLink) : (s.updJob l f).mv = s.mv := rfl

@[simp] theorem updJob_links (l : Nat) (f : JobLink → JobLink) : (s.updJob l f).links = s.links := rfl

@[simp] theorem updJob_trg (l : Nat) (f : JobLink → JobLink) : (s.updJob l f).trg = s.trg := rfl

@[simp] theorem updJob_cam (l : Nat) (f : JobLink → JobLink) : (s.updJob l f).cam = s.cam := rfl

@[simp] theorem updJob_cal (l : Nat) (f : JobLink → JobLink) : (s.updJob l f).cal = s.cal := rfl

@[simp] theorem updJob_obs (l : Nat) (f : JobLink → JobLink) : (s.updJob l f).obs = s.obs := rfl

@[simp] theorem updJob_out (l : Nat) (f : JobLink → JobLink) : (s.updJob l f).out = s.out := rfl

@[simp] theorem updJob_draws (l : Nat) (f : JobLink → JobLink) : (s.updJob l f).draws = s.draws := rfl

/-! ## `updHead` -/

@[simp] theorem updHead_pending (l : Nat) (f : HeadLink → HeadLink) : (s.updHead l f).pending = s.pending := rfl

@[simp] theorem updHead_die (l : Nat) (f : HeadLink → HeadLink) : (s.updHead l f).die = s.die := rfl

@[simp] theorem updHead_pins (l : Nat) (f : HeadLink → HeadLink) : (s.updHead l f).pins = s.pins := rfl

@[simp] theorem updHead_clk (l : Nat) (f : HeadLink → HeadLink) : (s.updHead l f).clk = s.clk := rfl

@[simp] theorem updHead_regs (l : Nat) (f : HeadLink → HeadLink) : (s.updHead l f).regs = s.regs := rfl

@[simp] theorem updHead_captures (l : Nat) (f : HeadLink → HeadLink) : (s.updHead l f).captures = s.captures := rfl

@[simp] theorem updHead_mem (l : Nat) (f : HeadLink → HeadLink) : (s.updHead l f).mem = s.mem := rfl

@[simp] theorem updHead_island (l : Nat) (f : HeadLink → HeadLink) : (s.updHead l f).island = s.island := rfl

@[simp] theorem updHead_boot (l : Nat) (f : HeadLink → HeadLink) : (s.updHead l f).boot = s.boot := rfl

@[simp] theorem updHead_fco (l : Nat) (f : HeadLink → HeadLink) : (s.updHead l f).fco = s.fco := rfl

@[simp] theorem updHead_saf (l : Nat) (f : HeadLink → HeadLink) : (s.updHead l f).saf = s.saf := rfl

@[simp] theorem updHead_bist (l : Nat) (f : HeadLink → HeadLink) : (s.updHead l f).bist = s.bist := rfl

@[simp] theorem updHead_dose (l : Nat) (f : HeadLink → HeadLink) : (s.updHead l f).dose = s.dose := rfl

@[simp] theorem updHead_streams (l : Nat) (f : HeadLink → HeadLink) : (s.updHead l f).streams = s.streams := rfl

@[simp] theorem updHead_job (l : Nat) (f : HeadLink → HeadLink) : (s.updHead l f).job = s.job := rfl

@[simp] theorem updHead_scree (l : Nat) (f : HeadLink → HeadLink) : (s.updHead l f).scree = s.scree := rfl

@[simp] theorem updHead_rdg (l : Nat) (f : HeadLink → HeadLink) : (s.updHead l f).rdg = s.rdg := rfl

@[simp] theorem updHead_crn (l : Nat) (f : HeadLink → HeadLink) : (s.updHead l f).crn = s.crn := rfl

@[simp] theorem updHead_act (l : Nat) (f : HeadLink → HeadLink) : (s.updHead l f).act = s.act := rfl

@[simp] theorem updHead_hlk (l : Nat) (f : HeadLink → HeadLink) : (s.updHead l f).hlk = { s.hlk with links := upd s.hlk.links l f } := rfl

@[simp] theorem updHead_stb (l : Nat) (f : HeadLink → HeadLink) : (s.updHead l f).stb = s.stb := rfl

@[simp] theorem updHead_mot (l : Nat) (f : HeadLink → HeadLink) : (s.updHead l f).mot = s.mot := rfl

@[simp] theorem updHead_pos (l : Nat) (f : HeadLink → HeadLink) : (s.updHead l f).pos = s.pos := rfl

@[simp] theorem updHead_stp (l : Nat) (f : HeadLink → HeadLink) : (s.updHead l f).stp = s.stp := rfl

@[simp] theorem updHead_swi (l : Nat) (f : HeadLink → HeadLink) : (s.updHead l f).swi = s.swi := rfl

@[simp] theorem updHead_twn (l : Nat) (f : HeadLink → HeadLink) : (s.updHead l f).twn = s.twn := rfl

@[simp] theorem updHead_csc (l : Nat) (f : HeadLink → HeadLink) : (s.updHead l f).csc = s.csc := rfl

@[simp] theorem updHead_seq (l : Nat) (f : HeadLink → HeadLink) : (s.updHead l f).seq = s.seq := rfl

@[simp] theorem updHead_tlb (l : Nat) (f : HeadLink → HeadLink) : (s.updHead l f).tlb = s.tlb := rfl

@[simp] theorem updHead_mu (l : Nat) (f : HeadLink → HeadLink) : (s.updHead l f).mu = s.mu := rfl

@[simp] theorem updHead_dmc (l : Nat) (f : HeadLink → HeadLink) : (s.updHead l f).dmc = s.dmc := rfl

@[simp] theorem updHead_mv (l : Nat) (f : HeadLink → HeadLink) : (s.updHead l f).mv = s.mv := rfl

@[simp] theorem updHead_links (l : Nat) (f : HeadLink → HeadLink) : (s.updHead l f).links = s.links := rfl

@[simp] theorem updHead_trg (l : Nat) (f : HeadLink → HeadLink) : (s.updHead l f).trg = s.trg := rfl

@[simp] theorem updHead_cam (l : Nat) (f : HeadLink → HeadLink) : (s.updHead l f).cam = s.cam := rfl

@[simp] theorem updHead_cal (l : Nat) (f : HeadLink → HeadLink) : (s.updHead l f).cal = s.cal := rfl

@[simp] theorem updHead_obs (l : Nat) (f : HeadLink → HeadLink) : (s.updHead l f).obs = s.obs := rfl

@[simp] theorem updHead_out (l : Nat) (f : HeadLink → HeadLink) : (s.updHead l f).out = s.out := rfl

@[simp] theorem updHead_draws (l : Nat) (f : HeadLink → HeadLink) : (s.updHead l f).draws = s.draws := rfl

/-! ## `updAxis` -/

@[simp] theorem updAxis_pending (a : Nat) (f : Axis → Axis) : (s.updAxis a f).pending = s.pending := rfl

@[simp] theorem updAxis_die (a : Nat) (f : Axis → Axis) : (s.updAxis a f).die = s.die := rfl

@[simp] theorem updAxis_pins (a : Nat) (f : Axis → Axis) : (s.updAxis a f).pins = s.pins := rfl

@[simp] theorem updAxis_clk (a : Nat) (f : Axis → Axis) : (s.updAxis a f).clk = s.clk := rfl

@[simp] theorem updAxis_regs (a : Nat) (f : Axis → Axis) : (s.updAxis a f).regs = s.regs := rfl

@[simp] theorem updAxis_captures (a : Nat) (f : Axis → Axis) : (s.updAxis a f).captures = s.captures := rfl

@[simp] theorem updAxis_mem (a : Nat) (f : Axis → Axis) : (s.updAxis a f).mem = s.mem := rfl

@[simp] theorem updAxis_island (a : Nat) (f : Axis → Axis) : (s.updAxis a f).island = s.island := rfl

@[simp] theorem updAxis_boot (a : Nat) (f : Axis → Axis) : (s.updAxis a f).boot = s.boot := rfl

@[simp] theorem updAxis_fco (a : Nat) (f : Axis → Axis) : (s.updAxis a f).fco = s.fco := rfl

@[simp] theorem updAxis_saf (a : Nat) (f : Axis → Axis) : (s.updAxis a f).saf = s.saf := rfl

@[simp] theorem updAxis_bist (a : Nat) (f : Axis → Axis) : (s.updAxis a f).bist = s.bist := rfl

@[simp] theorem updAxis_dose (a : Nat) (f : Axis → Axis) : (s.updAxis a f).dose = s.dose := rfl

@[simp] theorem updAxis_streams (a : Nat) (f : Axis → Axis) : (s.updAxis a f).streams = s.streams := rfl

@[simp] theorem updAxis_job (a : Nat) (f : Axis → Axis) : (s.updAxis a f).job = s.job := rfl

@[simp] theorem updAxis_scree (a : Nat) (f : Axis → Axis) : (s.updAxis a f).scree = s.scree := rfl

@[simp] theorem updAxis_rdg (a : Nat) (f : Axis → Axis) : (s.updAxis a f).rdg = s.rdg := rfl

@[simp] theorem updAxis_crn (a : Nat) (f : Axis → Axis) : (s.updAxis a f).crn = s.crn := rfl

@[simp] theorem updAxis_act (a : Nat) (f : Axis → Axis) : (s.updAxis a f).act = s.act := rfl

@[simp] theorem updAxis_hlk (a : Nat) (f : Axis → Axis) : (s.updAxis a f).hlk = s.hlk := rfl

@[simp] theorem updAxis_stb (a : Nat) (f : Axis → Axis) : (s.updAxis a f).stb = s.stb := rfl

@[simp] theorem updAxis_mot (a : Nat) (f : Axis → Axis) : (s.updAxis a f).mot = { s.mot with axes := upd s.mot.axes a f } := rfl

@[simp] theorem updAxis_pos (a : Nat) (f : Axis → Axis) : (s.updAxis a f).pos = s.pos := rfl

@[simp] theorem updAxis_stp (a : Nat) (f : Axis → Axis) : (s.updAxis a f).stp = s.stp := rfl

@[simp] theorem updAxis_swi (a : Nat) (f : Axis → Axis) : (s.updAxis a f).swi = s.swi := rfl

@[simp] theorem updAxis_twn (a : Nat) (f : Axis → Axis) : (s.updAxis a f).twn = s.twn := rfl

@[simp] theorem updAxis_csc (a : Nat) (f : Axis → Axis) : (s.updAxis a f).csc = s.csc := rfl

@[simp] theorem updAxis_seq (a : Nat) (f : Axis → Axis) : (s.updAxis a f).seq = s.seq := rfl

@[simp] theorem updAxis_tlb (a : Nat) (f : Axis → Axis) : (s.updAxis a f).tlb = s.tlb := rfl

@[simp] theorem updAxis_mu (a : Nat) (f : Axis → Axis) : (s.updAxis a f).mu = s.mu := rfl

@[simp] theorem updAxis_dmc (a : Nat) (f : Axis → Axis) : (s.updAxis a f).dmc = s.dmc := rfl

@[simp] theorem updAxis_mv (a : Nat) (f : Axis → Axis) : (s.updAxis a f).mv = s.mv := rfl

@[simp] theorem updAxis_links (a : Nat) (f : Axis → Axis) : (s.updAxis a f).links = s.links := rfl

@[simp] theorem updAxis_trg (a : Nat) (f : Axis → Axis) : (s.updAxis a f).trg = s.trg := rfl

@[simp] theorem updAxis_cam (a : Nat) (f : Axis → Axis) : (s.updAxis a f).cam = s.cam := rfl

@[simp] theorem updAxis_cal (a : Nat) (f : Axis → Axis) : (s.updAxis a f).cal = s.cal := rfl

@[simp] theorem updAxis_obs (a : Nat) (f : Axis → Axis) : (s.updAxis a f).obs = s.obs := rfl

@[simp] theorem updAxis_out (a : Nat) (f : Axis → Axis) : (s.updAxis a f).out = s.out := rfl

@[simp] theorem updAxis_draws (a : Nat) (f : Axis → Axis) : (s.updAxis a f).draws = s.draws := rfl

/-! ## `updPos` -/

@[simp] theorem updPos_pending (u : Nat) (f : PosUnit → PosUnit) : (s.updPos u f).pending = s.pending := rfl

@[simp] theorem updPos_die (u : Nat) (f : PosUnit → PosUnit) : (s.updPos u f).die = s.die := rfl

@[simp] theorem updPos_pins (u : Nat) (f : PosUnit → PosUnit) : (s.updPos u f).pins = s.pins := rfl

@[simp] theorem updPos_clk (u : Nat) (f : PosUnit → PosUnit) : (s.updPos u f).clk = s.clk := rfl

@[simp] theorem updPos_regs (u : Nat) (f : PosUnit → PosUnit) : (s.updPos u f).regs = s.regs := rfl

@[simp] theorem updPos_captures (u : Nat) (f : PosUnit → PosUnit) : (s.updPos u f).captures = s.captures := rfl

@[simp] theorem updPos_mem (u : Nat) (f : PosUnit → PosUnit) : (s.updPos u f).mem = s.mem := rfl

@[simp] theorem updPos_island (u : Nat) (f : PosUnit → PosUnit) : (s.updPos u f).island = s.island := rfl

@[simp] theorem updPos_boot (u : Nat) (f : PosUnit → PosUnit) : (s.updPos u f).boot = s.boot := rfl

@[simp] theorem updPos_fco (u : Nat) (f : PosUnit → PosUnit) : (s.updPos u f).fco = s.fco := rfl

@[simp] theorem updPos_saf (u : Nat) (f : PosUnit → PosUnit) : (s.updPos u f).saf = s.saf := rfl

@[simp] theorem updPos_bist (u : Nat) (f : PosUnit → PosUnit) : (s.updPos u f).bist = s.bist := rfl

@[simp] theorem updPos_dose (u : Nat) (f : PosUnit → PosUnit) : (s.updPos u f).dose = s.dose := rfl

@[simp] theorem updPos_streams (u : Nat) (f : PosUnit → PosUnit) : (s.updPos u f).streams = s.streams := rfl

@[simp] theorem updPos_job (u : Nat) (f : PosUnit → PosUnit) : (s.updPos u f).job = s.job := rfl

@[simp] theorem updPos_scree (u : Nat) (f : PosUnit → PosUnit) : (s.updPos u f).scree = s.scree := rfl

@[simp] theorem updPos_rdg (u : Nat) (f : PosUnit → PosUnit) : (s.updPos u f).rdg = s.rdg := rfl

@[simp] theorem updPos_crn (u : Nat) (f : PosUnit → PosUnit) : (s.updPos u f).crn = s.crn := rfl

@[simp] theorem updPos_act (u : Nat) (f : PosUnit → PosUnit) : (s.updPos u f).act = s.act := rfl

@[simp] theorem updPos_hlk (u : Nat) (f : PosUnit → PosUnit) : (s.updPos u f).hlk = s.hlk := rfl

@[simp] theorem updPos_stb (u : Nat) (f : PosUnit → PosUnit) : (s.updPos u f).stb = s.stb := rfl

@[simp] theorem updPos_mot (u : Nat) (f : PosUnit → PosUnit) : (s.updPos u f).mot = s.mot := rfl

@[simp] theorem updPos_pos (u : Nat) (f : PosUnit → PosUnit) : (s.updPos u f).pos = upd s.pos u f := rfl

@[simp] theorem updPos_stp (u : Nat) (f : PosUnit → PosUnit) : (s.updPos u f).stp = s.stp := rfl

@[simp] theorem updPos_swi (u : Nat) (f : PosUnit → PosUnit) : (s.updPos u f).swi = s.swi := rfl

@[simp] theorem updPos_twn (u : Nat) (f : PosUnit → PosUnit) : (s.updPos u f).twn = s.twn := rfl

@[simp] theorem updPos_csc (u : Nat) (f : PosUnit → PosUnit) : (s.updPos u f).csc = s.csc := rfl

@[simp] theorem updPos_seq (u : Nat) (f : PosUnit → PosUnit) : (s.updPos u f).seq = s.seq := rfl

@[simp] theorem updPos_tlb (u : Nat) (f : PosUnit → PosUnit) : (s.updPos u f).tlb = s.tlb := rfl

@[simp] theorem updPos_mu (u : Nat) (f : PosUnit → PosUnit) : (s.updPos u f).mu = s.mu := rfl

@[simp] theorem updPos_dmc (u : Nat) (f : PosUnit → PosUnit) : (s.updPos u f).dmc = s.dmc := rfl

@[simp] theorem updPos_mv (u : Nat) (f : PosUnit → PosUnit) : (s.updPos u f).mv = s.mv := rfl

@[simp] theorem updPos_links (u : Nat) (f : PosUnit → PosUnit) : (s.updPos u f).links = s.links := rfl

@[simp] theorem updPos_trg (u : Nat) (f : PosUnit → PosUnit) : (s.updPos u f).trg = s.trg := rfl

@[simp] theorem updPos_cam (u : Nat) (f : PosUnit → PosUnit) : (s.updPos u f).cam = s.cam := rfl

@[simp] theorem updPos_cal (u : Nat) (f : PosUnit → PosUnit) : (s.updPos u f).cal = s.cal := rfl

@[simp] theorem updPos_obs (u : Nat) (f : PosUnit → PosUnit) : (s.updPos u f).obs = s.obs := rfl

@[simp] theorem updPos_out (u : Nat) (f : PosUnit → PosUnit) : (s.updPos u f).out = s.out := rfl

@[simp] theorem updPos_draws (u : Nat) (f : PosUnit → PosUnit) : (s.updPos u f).draws = s.draws := rfl

/-! ## `updStp` -/

@[simp] theorem updStp_pending (m : Nat) (f : Stepper → Stepper) : (s.updStp m f).pending = s.pending := rfl

@[simp] theorem updStp_die (m : Nat) (f : Stepper → Stepper) : (s.updStp m f).die = s.die := rfl

@[simp] theorem updStp_pins (m : Nat) (f : Stepper → Stepper) : (s.updStp m f).pins = s.pins := rfl

@[simp] theorem updStp_clk (m : Nat) (f : Stepper → Stepper) : (s.updStp m f).clk = s.clk := rfl

@[simp] theorem updStp_regs (m : Nat) (f : Stepper → Stepper) : (s.updStp m f).regs = s.regs := rfl

@[simp] theorem updStp_captures (m : Nat) (f : Stepper → Stepper) : (s.updStp m f).captures = s.captures := rfl

@[simp] theorem updStp_mem (m : Nat) (f : Stepper → Stepper) : (s.updStp m f).mem = s.mem := rfl

@[simp] theorem updStp_island (m : Nat) (f : Stepper → Stepper) : (s.updStp m f).island = s.island := rfl

@[simp] theorem updStp_boot (m : Nat) (f : Stepper → Stepper) : (s.updStp m f).boot = s.boot := rfl

@[simp] theorem updStp_fco (m : Nat) (f : Stepper → Stepper) : (s.updStp m f).fco = s.fco := rfl

@[simp] theorem updStp_saf (m : Nat) (f : Stepper → Stepper) : (s.updStp m f).saf = s.saf := rfl

@[simp] theorem updStp_bist (m : Nat) (f : Stepper → Stepper) : (s.updStp m f).bist = s.bist := rfl

@[simp] theorem updStp_dose (m : Nat) (f : Stepper → Stepper) : (s.updStp m f).dose = s.dose := rfl

@[simp] theorem updStp_streams (m : Nat) (f : Stepper → Stepper) : (s.updStp m f).streams = s.streams := rfl

@[simp] theorem updStp_job (m : Nat) (f : Stepper → Stepper) : (s.updStp m f).job = s.job := rfl

@[simp] theorem updStp_scree (m : Nat) (f : Stepper → Stepper) : (s.updStp m f).scree = s.scree := rfl

@[simp] theorem updStp_rdg (m : Nat) (f : Stepper → Stepper) : (s.updStp m f).rdg = s.rdg := rfl

@[simp] theorem updStp_crn (m : Nat) (f : Stepper → Stepper) : (s.updStp m f).crn = s.crn := rfl

@[simp] theorem updStp_act (m : Nat) (f : Stepper → Stepper) : (s.updStp m f).act = s.act := rfl

@[simp] theorem updStp_hlk (m : Nat) (f : Stepper → Stepper) : (s.updStp m f).hlk = s.hlk := rfl

@[simp] theorem updStp_stb (m : Nat) (f : Stepper → Stepper) : (s.updStp m f).stb = s.stb := rfl

@[simp] theorem updStp_mot (m : Nat) (f : Stepper → Stepper) : (s.updStp m f).mot = s.mot := rfl

@[simp] theorem updStp_pos (m : Nat) (f : Stepper → Stepper) : (s.updStp m f).pos = s.pos := rfl

@[simp] theorem updStp_stp (m : Nat) (f : Stepper → Stepper) : (s.updStp m f).stp = upd s.stp m f := rfl

@[simp] theorem updStp_swi (m : Nat) (f : Stepper → Stepper) : (s.updStp m f).swi = s.swi := rfl

@[simp] theorem updStp_twn (m : Nat) (f : Stepper → Stepper) : (s.updStp m f).twn = s.twn := rfl

@[simp] theorem updStp_csc (m : Nat) (f : Stepper → Stepper) : (s.updStp m f).csc = s.csc := rfl

@[simp] theorem updStp_seq (m : Nat) (f : Stepper → Stepper) : (s.updStp m f).seq = s.seq := rfl

@[simp] theorem updStp_tlb (m : Nat) (f : Stepper → Stepper) : (s.updStp m f).tlb = s.tlb := rfl

@[simp] theorem updStp_mu (m : Nat) (f : Stepper → Stepper) : (s.updStp m f).mu = s.mu := rfl

@[simp] theorem updStp_dmc (m : Nat) (f : Stepper → Stepper) : (s.updStp m f).dmc = s.dmc := rfl

@[simp] theorem updStp_mv (m : Nat) (f : Stepper → Stepper) : (s.updStp m f).mv = s.mv := rfl

@[simp] theorem updStp_links (m : Nat) (f : Stepper → Stepper) : (s.updStp m f).links = s.links := rfl

@[simp] theorem updStp_trg (m : Nat) (f : Stepper → Stepper) : (s.updStp m f).trg = s.trg := rfl

@[simp] theorem updStp_cam (m : Nat) (f : Stepper → Stepper) : (s.updStp m f).cam = s.cam := rfl

@[simp] theorem updStp_cal (m : Nat) (f : Stepper → Stepper) : (s.updStp m f).cal = s.cal := rfl

@[simp] theorem updStp_obs (m : Nat) (f : Stepper → Stepper) : (s.updStp m f).obs = s.obs := rfl

@[simp] theorem updStp_out (m : Nat) (f : Stepper → Stepper) : (s.updStp m f).out = s.out := rfl

@[simp] theorem updStp_draws (m : Nat) (f : Stepper → Stepper) : (s.updStp m f).draws = s.draws := rfl

/-! ## `updChan` -/

@[simp] theorem updChan_pending (c : Nat) (f : Chan → Chan) : (s.updChan c f).pending = s.pending := rfl

@[simp] theorem updChan_die (c : Nat) (f : Chan → Chan) : (s.updChan c f).die = s.die := rfl

@[simp] theorem updChan_pins (c : Nat) (f : Chan → Chan) : (s.updChan c f).pins = s.pins := rfl

@[simp] theorem updChan_clk (c : Nat) (f : Chan → Chan) : (s.updChan c f).clk = s.clk := rfl

@[simp] theorem updChan_regs (c : Nat) (f : Chan → Chan) : (s.updChan c f).regs = s.regs := rfl

@[simp] theorem updChan_captures (c : Nat) (f : Chan → Chan) : (s.updChan c f).captures = s.captures := rfl

@[simp] theorem updChan_mem (c : Nat) (f : Chan → Chan) : (s.updChan c f).mem = s.mem := rfl

@[simp] theorem updChan_island (c : Nat) (f : Chan → Chan) : (s.updChan c f).island = s.island := rfl

@[simp] theorem updChan_boot (c : Nat) (f : Chan → Chan) : (s.updChan c f).boot = s.boot := rfl

@[simp] theorem updChan_fco (c : Nat) (f : Chan → Chan) : (s.updChan c f).fco = s.fco := rfl

@[simp] theorem updChan_saf (c : Nat) (f : Chan → Chan) : (s.updChan c f).saf = s.saf := rfl

@[simp] theorem updChan_bist (c : Nat) (f : Chan → Chan) : (s.updChan c f).bist = s.bist := rfl

@[simp] theorem updChan_dose (c : Nat) (f : Chan → Chan) : (s.updChan c f).dose = s.dose := rfl

@[simp] theorem updChan_streams (c : Nat) (f : Chan → Chan) : (s.updChan c f).streams = s.streams := rfl

@[simp] theorem updChan_job (c : Nat) (f : Chan → Chan) : (s.updChan c f).job = s.job := rfl

@[simp] theorem updChan_scree (c : Nat) (f : Chan → Chan) : (s.updChan c f).scree = s.scree := rfl

@[simp] theorem updChan_rdg (c : Nat) (f : Chan → Chan) : (s.updChan c f).rdg = s.rdg := rfl

@[simp] theorem updChan_crn (c : Nat) (f : Chan → Chan) : (s.updChan c f).crn = s.crn := rfl

@[simp] theorem updChan_act (c : Nat) (f : Chan → Chan) : (s.updChan c f).act = s.act := rfl

@[simp] theorem updChan_hlk (c : Nat) (f : Chan → Chan) : (s.updChan c f).hlk = s.hlk := rfl

@[simp] theorem updChan_stb (c : Nat) (f : Chan → Chan) : (s.updChan c f).stb = s.stb := rfl

@[simp] theorem updChan_mot (c : Nat) (f : Chan → Chan) : (s.updChan c f).mot = s.mot := rfl

@[simp] theorem updChan_pos (c : Nat) (f : Chan → Chan) : (s.updChan c f).pos = s.pos := rfl

@[simp] theorem updChan_stp (c : Nat) (f : Chan → Chan) : (s.updChan c f).stp = s.stp := rfl

@[simp] theorem updChan_swi (c : Nat) (f : Chan → Chan) : (s.updChan c f).swi = s.swi := rfl

@[simp] theorem updChan_twn (c : Nat) (f : Chan → Chan) : (s.updChan c f).twn = s.twn := rfl

@[simp] theorem updChan_csc (c : Nat) (f : Chan → Chan) : (s.updChan c f).csc = s.csc := rfl

@[simp] theorem updChan_seq (c : Nat) (f : Chan → Chan) : (s.updChan c f).seq = s.seq := rfl

@[simp] theorem updChan_tlb (c : Nat) (f : Chan → Chan) : (s.updChan c f).tlb = s.tlb := rfl

@[simp] theorem updChan_mu (c : Nat) (f : Chan → Chan) : (s.updChan c f).mu = s.mu := rfl

@[simp] theorem updChan_dmc (c : Nat) (f : Chan → Chan) : (s.updChan c f).dmc = s.dmc := rfl

@[simp] theorem updChan_mv (c : Nat) (f : Chan → Chan) : (s.updChan c f).mv = { s.mv with chans := upd s.mv.chans c f } := rfl

@[simp] theorem updChan_links (c : Nat) (f : Chan → Chan) : (s.updChan c f).links = s.links := rfl

@[simp] theorem updChan_trg (c : Nat) (f : Chan → Chan) : (s.updChan c f).trg = s.trg := rfl

@[simp] theorem updChan_cam (c : Nat) (f : Chan → Chan) : (s.updChan c f).cam = s.cam := rfl

@[simp] theorem updChan_cal (c : Nat) (f : Chan → Chan) : (s.updChan c f).cal = s.cal := rfl

@[simp] theorem updChan_obs (c : Nat) (f : Chan → Chan) : (s.updChan c f).obs = s.obs := rfl

@[simp] theorem updChan_out (c : Nat) (f : Chan → Chan) : (s.updChan c f).out = s.out := rfl

@[simp] theorem updChan_draws (c : Nat) (f : Chan → Chan) : (s.updChan c f).draws = s.draws := rfl

/-! ## `updCvu` -/

@[simp] theorem updCvu_pending (u : Nat) (f : Cvu → Cvu) : (s.updCvu u f).pending = s.pending := rfl

@[simp] theorem updCvu_die (u : Nat) (f : Cvu → Cvu) : (s.updCvu u f).die = s.die := rfl

@[simp] theorem updCvu_pins (u : Nat) (f : Cvu → Cvu) : (s.updCvu u f).pins = s.pins := rfl

@[simp] theorem updCvu_clk (u : Nat) (f : Cvu → Cvu) : (s.updCvu u f).clk = s.clk := rfl

@[simp] theorem updCvu_regs (u : Nat) (f : Cvu → Cvu) : (s.updCvu u f).regs = s.regs := rfl

@[simp] theorem updCvu_captures (u : Nat) (f : Cvu → Cvu) : (s.updCvu u f).captures = s.captures := rfl

@[simp] theorem updCvu_mem (u : Nat) (f : Cvu → Cvu) : (s.updCvu u f).mem = s.mem := rfl

@[simp] theorem updCvu_island (u : Nat) (f : Cvu → Cvu) : (s.updCvu u f).island = s.island := rfl

@[simp] theorem updCvu_boot (u : Nat) (f : Cvu → Cvu) : (s.updCvu u f).boot = s.boot := rfl

@[simp] theorem updCvu_fco (u : Nat) (f : Cvu → Cvu) : (s.updCvu u f).fco = s.fco := rfl

@[simp] theorem updCvu_saf (u : Nat) (f : Cvu → Cvu) : (s.updCvu u f).saf = s.saf := rfl

@[simp] theorem updCvu_bist (u : Nat) (f : Cvu → Cvu) : (s.updCvu u f).bist = s.bist := rfl

@[simp] theorem updCvu_dose (u : Nat) (f : Cvu → Cvu) : (s.updCvu u f).dose = s.dose := rfl

@[simp] theorem updCvu_streams (u : Nat) (f : Cvu → Cvu) : (s.updCvu u f).streams = s.streams := rfl

@[simp] theorem updCvu_job (u : Nat) (f : Cvu → Cvu) : (s.updCvu u f).job = s.job := rfl

@[simp] theorem updCvu_scree (u : Nat) (f : Cvu → Cvu) : (s.updCvu u f).scree = s.scree := rfl

@[simp] theorem updCvu_rdg (u : Nat) (f : Cvu → Cvu) : (s.updCvu u f).rdg = s.rdg := rfl

@[simp] theorem updCvu_crn (u : Nat) (f : Cvu → Cvu) : (s.updCvu u f).crn = s.crn := rfl

@[simp] theorem updCvu_act (u : Nat) (f : Cvu → Cvu) : (s.updCvu u f).act = s.act := rfl

@[simp] theorem updCvu_hlk (u : Nat) (f : Cvu → Cvu) : (s.updCvu u f).hlk = s.hlk := rfl

@[simp] theorem updCvu_stb (u : Nat) (f : Cvu → Cvu) : (s.updCvu u f).stb = s.stb := rfl

@[simp] theorem updCvu_mot (u : Nat) (f : Cvu → Cvu) : (s.updCvu u f).mot = s.mot := rfl

@[simp] theorem updCvu_pos (u : Nat) (f : Cvu → Cvu) : (s.updCvu u f).pos = s.pos := rfl

@[simp] theorem updCvu_stp (u : Nat) (f : Cvu → Cvu) : (s.updCvu u f).stp = s.stp := rfl

@[simp] theorem updCvu_swi (u : Nat) (f : Cvu → Cvu) : (s.updCvu u f).swi = s.swi := rfl

@[simp] theorem updCvu_twn (u : Nat) (f : Cvu → Cvu) : (s.updCvu u f).twn = s.twn := rfl

@[simp] theorem updCvu_csc (u : Nat) (f : Cvu → Cvu) : (s.updCvu u f).csc = s.csc := rfl

@[simp] theorem updCvu_seq (u : Nat) (f : Cvu → Cvu) : (s.updCvu u f).seq = s.seq := rfl

@[simp] theorem updCvu_tlb (u : Nat) (f : Cvu → Cvu) : (s.updCvu u f).tlb = s.tlb := rfl

@[simp] theorem updCvu_mu (u : Nat) (f : Cvu → Cvu) : (s.updCvu u f).mu = s.mu := rfl

@[simp] theorem updCvu_dmc (u : Nat) (f : Cvu → Cvu) : (s.updCvu u f).dmc = s.dmc := rfl

@[simp] theorem updCvu_mv (u : Nat) (f : Cvu → Cvu) : (s.updCvu u f).mv = { s.mv with cvus := upd s.mv.cvus u f } := rfl

@[simp] theorem updCvu_links (u : Nat) (f : Cvu → Cvu) : (s.updCvu u f).links = s.links := rfl

@[simp] theorem updCvu_trg (u : Nat) (f : Cvu → Cvu) : (s.updCvu u f).trg = s.trg := rfl

@[simp] theorem updCvu_cam (u : Nat) (f : Cvu → Cvu) : (s.updCvu u f).cam = s.cam := rfl

@[simp] theorem updCvu_cal (u : Nat) (f : Cvu → Cvu) : (s.updCvu u f).cal = s.cal := rfl

@[simp] theorem updCvu_obs (u : Nat) (f : Cvu → Cvu) : (s.updCvu u f).obs = s.obs := rfl

@[simp] theorem updCvu_out (u : Nat) (f : Cvu → Cvu) : (s.updCvu u f).out = s.out := rfl

@[simp] theorem updCvu_draws (u : Nat) (f : Cvu → Cvu) : (s.updCvu u f).draws = s.draws := rfl

/-! ## `updPipe` -/

@[simp] theorem updPipe_pending (p : Nat) (f : Pipe → Pipe) : (s.updPipe p f).pending = s.pending := rfl

@[simp] theorem updPipe_die (p : Nat) (f : Pipe → Pipe) : (s.updPipe p f).die = s.die := rfl

@[simp] theorem updPipe_pins (p : Nat) (f : Pipe → Pipe) : (s.updPipe p f).pins = s.pins := rfl

@[simp] theorem updPipe_clk (p : Nat) (f : Pipe → Pipe) : (s.updPipe p f).clk = s.clk := rfl

@[simp] theorem updPipe_regs (p : Nat) (f : Pipe → Pipe) : (s.updPipe p f).regs = s.regs := rfl

@[simp] theorem updPipe_captures (p : Nat) (f : Pipe → Pipe) : (s.updPipe p f).captures = s.captures := rfl

@[simp] theorem updPipe_mem (p : Nat) (f : Pipe → Pipe) : (s.updPipe p f).mem = s.mem := rfl

@[simp] theorem updPipe_island (p : Nat) (f : Pipe → Pipe) : (s.updPipe p f).island = s.island := rfl

@[simp] theorem updPipe_boot (p : Nat) (f : Pipe → Pipe) : (s.updPipe p f).boot = s.boot := rfl

@[simp] theorem updPipe_fco (p : Nat) (f : Pipe → Pipe) : (s.updPipe p f).fco = s.fco := rfl

@[simp] theorem updPipe_saf (p : Nat) (f : Pipe → Pipe) : (s.updPipe p f).saf = s.saf := rfl

@[simp] theorem updPipe_bist (p : Nat) (f : Pipe → Pipe) : (s.updPipe p f).bist = s.bist := rfl

@[simp] theorem updPipe_dose (p : Nat) (f : Pipe → Pipe) : (s.updPipe p f).dose = s.dose := rfl

@[simp] theorem updPipe_streams (p : Nat) (f : Pipe → Pipe) : (s.updPipe p f).streams = s.streams := rfl

@[simp] theorem updPipe_job (p : Nat) (f : Pipe → Pipe) : (s.updPipe p f).job = s.job := rfl

@[simp] theorem updPipe_scree (p : Nat) (f : Pipe → Pipe) : (s.updPipe p f).scree = s.scree := rfl

@[simp] theorem updPipe_rdg (p : Nat) (f : Pipe → Pipe) : (s.updPipe p f).rdg = s.rdg := rfl

@[simp] theorem updPipe_crn (p : Nat) (f : Pipe → Pipe) : (s.updPipe p f).crn = s.crn := rfl

@[simp] theorem updPipe_act (p : Nat) (f : Pipe → Pipe) : (s.updPipe p f).act = s.act := rfl

@[simp] theorem updPipe_hlk (p : Nat) (f : Pipe → Pipe) : (s.updPipe p f).hlk = s.hlk := rfl

@[simp] theorem updPipe_stb (p : Nat) (f : Pipe → Pipe) : (s.updPipe p f).stb = s.stb := rfl

@[simp] theorem updPipe_mot (p : Nat) (f : Pipe → Pipe) : (s.updPipe p f).mot = s.mot := rfl

@[simp] theorem updPipe_pos (p : Nat) (f : Pipe → Pipe) : (s.updPipe p f).pos = s.pos := rfl

@[simp] theorem updPipe_stp (p : Nat) (f : Pipe → Pipe) : (s.updPipe p f).stp = s.stp := rfl

@[simp] theorem updPipe_swi (p : Nat) (f : Pipe → Pipe) : (s.updPipe p f).swi = s.swi := rfl

@[simp] theorem updPipe_twn (p : Nat) (f : Pipe → Pipe) : (s.updPipe p f).twn = s.twn := rfl

@[simp] theorem updPipe_csc (p : Nat) (f : Pipe → Pipe) : (s.updPipe p f).csc = s.csc := rfl

@[simp] theorem updPipe_seq (p : Nat) (f : Pipe → Pipe) : (s.updPipe p f).seq = s.seq := rfl

@[simp] theorem updPipe_tlb (p : Nat) (f : Pipe → Pipe) : (s.updPipe p f).tlb = s.tlb := rfl

@[simp] theorem updPipe_mu (p : Nat) (f : Pipe → Pipe) : (s.updPipe p f).mu = s.mu := rfl

@[simp] theorem updPipe_dmc (p : Nat) (f : Pipe → Pipe) : (s.updPipe p f).dmc = s.dmc := rfl

@[simp] theorem updPipe_mv (p : Nat) (f : Pipe → Pipe) : (s.updPipe p f).mv = s.mv := rfl

@[simp] theorem updPipe_links (p : Nat) (f : Pipe → Pipe) : (s.updPipe p f).links = s.links := rfl

@[simp] theorem updPipe_trg (p : Nat) (f : Pipe → Pipe) : (s.updPipe p f).trg = s.trg := rfl

@[simp] theorem updPipe_cam (p : Nat) (f : Pipe → Pipe) : (s.updPipe p f).cam = upd s.cam p f := rfl

@[simp] theorem updPipe_cal (p : Nat) (f : Pipe → Pipe) : (s.updPipe p f).cal = s.cal := rfl

@[simp] theorem updPipe_obs (p : Nat) (f : Pipe → Pipe) : (s.updPipe p f).obs = s.obs := rfl

@[simp] theorem updPipe_out (p : Nat) (f : Pipe → Pipe) : (s.updPipe p f).out = s.out := rfl

@[simp] theorem updPipe_draws (p : Nat) (f : Pipe → Pipe) : (s.updPipe p f).draws = s.draws := rfl

/-! ## `updLink` -/

@[simp] theorem updLink_pending (k : LinkId) (f : Link → Link) : (s.updLink k f).pending = s.pending := rfl

@[simp] theorem updLink_die (k : LinkId) (f : Link → Link) : (s.updLink k f).die = s.die := rfl

@[simp] theorem updLink_pins (k : LinkId) (f : Link → Link) : (s.updLink k f).pins = s.pins := rfl

@[simp] theorem updLink_clk (k : LinkId) (f : Link → Link) : (s.updLink k f).clk = s.clk := rfl

@[simp] theorem updLink_regs (k : LinkId) (f : Link → Link) : (s.updLink k f).regs = s.regs := rfl

@[simp] theorem updLink_captures (k : LinkId) (f : Link → Link) : (s.updLink k f).captures = s.captures := rfl

@[simp] theorem updLink_mem (k : LinkId) (f : Link → Link) : (s.updLink k f).mem = s.mem := rfl

@[simp] theorem updLink_island (k : LinkId) (f : Link → Link) : (s.updLink k f).island = s.island := rfl

@[simp] theorem updLink_boot (k : LinkId) (f : Link → Link) : (s.updLink k f).boot = s.boot := rfl

@[simp] theorem updLink_fco (k : LinkId) (f : Link → Link) : (s.updLink k f).fco = s.fco := rfl

@[simp] theorem updLink_saf (k : LinkId) (f : Link → Link) : (s.updLink k f).saf = s.saf := rfl

@[simp] theorem updLink_bist (k : LinkId) (f : Link → Link) : (s.updLink k f).bist = s.bist := rfl

@[simp] theorem updLink_dose (k : LinkId) (f : Link → Link) : (s.updLink k f).dose = s.dose := rfl

@[simp] theorem updLink_streams (k : LinkId) (f : Link → Link) : (s.updLink k f).streams = s.streams := rfl

@[simp] theorem updLink_job (k : LinkId) (f : Link → Link) : (s.updLink k f).job = s.job := rfl

@[simp] theorem updLink_scree (k : LinkId) (f : Link → Link) : (s.updLink k f).scree = s.scree := rfl

@[simp] theorem updLink_rdg (k : LinkId) (f : Link → Link) : (s.updLink k f).rdg = s.rdg := rfl

@[simp] theorem updLink_crn (k : LinkId) (f : Link → Link) : (s.updLink k f).crn = s.crn := rfl

@[simp] theorem updLink_act (k : LinkId) (f : Link → Link) : (s.updLink k f).act = s.act := rfl

@[simp] theorem updLink_hlk (k : LinkId) (f : Link → Link) : (s.updLink k f).hlk = s.hlk := rfl

@[simp] theorem updLink_stb (k : LinkId) (f : Link → Link) : (s.updLink k f).stb = s.stb := rfl

@[simp] theorem updLink_mot (k : LinkId) (f : Link → Link) : (s.updLink k f).mot = s.mot := rfl

@[simp] theorem updLink_pos (k : LinkId) (f : Link → Link) : (s.updLink k f).pos = s.pos := rfl

@[simp] theorem updLink_stp (k : LinkId) (f : Link → Link) : (s.updLink k f).stp = s.stp := rfl

@[simp] theorem updLink_swi (k : LinkId) (f : Link → Link) : (s.updLink k f).swi = s.swi := rfl

@[simp] theorem updLink_twn (k : LinkId) (f : Link → Link) : (s.updLink k f).twn = s.twn := rfl

@[simp] theorem updLink_csc (k : LinkId) (f : Link → Link) : (s.updLink k f).csc = s.csc := rfl

@[simp] theorem updLink_seq (k : LinkId) (f : Link → Link) : (s.updLink k f).seq = s.seq := rfl

@[simp] theorem updLink_tlb (k : LinkId) (f : Link → Link) : (s.updLink k f).tlb = s.tlb := rfl

@[simp] theorem updLink_mu (k : LinkId) (f : Link → Link) : (s.updLink k f).mu = s.mu := rfl

@[simp] theorem updLink_dmc (k : LinkId) (f : Link → Link) : (s.updLink k f).dmc = s.dmc := rfl

@[simp] theorem updLink_mv (k : LinkId) (f : Link → Link) : (s.updLink k f).mv = s.mv := rfl

@[simp] theorem updLink_links (k : LinkId) (f : Link → Link) : (s.updLink k f).links = s.links.map (fun l => if l.id = k then f l else l) := rfl

@[simp] theorem updLink_trg (k : LinkId) (f : Link → Link) : (s.updLink k f).trg = s.trg := rfl

@[simp] theorem updLink_cam (k : LinkId) (f : Link → Link) : (s.updLink k f).cam = s.cam := rfl

@[simp] theorem updLink_cal (k : LinkId) (f : Link → Link) : (s.updLink k f).cal = s.cal := rfl

@[simp] theorem updLink_obs (k : LinkId) (f : Link → Link) : (s.updLink k f).obs = s.obs := rfl

@[simp] theorem updLink_out (k : LinkId) (f : Link → Link) : (s.updLink k f).out = s.out := rfl

@[simp] theorem updLink_draws (k : LinkId) (f : Link → Link) : (s.updLink k f).draws = s.draws := rfl

/-! ## `obsCount` -/

@[simp] theorem obsCount_pending (i : Nat) : (s.obsCount i).pending = s.pending := rfl

@[simp] theorem obsCount_die (i : Nat) : (s.obsCount i).die = s.die := rfl

@[simp] theorem obsCount_pins (i : Nat) : (s.obsCount i).pins = s.pins := rfl

@[simp] theorem obsCount_clk (i : Nat) : (s.obsCount i).clk = s.clk := rfl

@[simp] theorem obsCount_regs (i : Nat) : (s.obsCount i).regs = s.regs := rfl

@[simp] theorem obsCount_captures (i : Nat) : (s.obsCount i).captures = s.captures := rfl

@[simp] theorem obsCount_mem (i : Nat) : (s.obsCount i).mem = s.mem := rfl

@[simp] theorem obsCount_island (i : Nat) : (s.obsCount i).island = s.island := rfl

@[simp] theorem obsCount_boot (i : Nat) : (s.obsCount i).boot = s.boot := rfl

@[simp] theorem obsCount_fco (i : Nat) : (s.obsCount i).fco = s.fco := rfl

@[simp] theorem obsCount_saf (i : Nat) : (s.obsCount i).saf = s.saf := rfl

@[simp] theorem obsCount_bist (i : Nat) : (s.obsCount i).bist = s.bist := rfl

@[simp] theorem obsCount_dose (i : Nat) : (s.obsCount i).dose = s.dose := rfl

@[simp] theorem obsCount_streams (i : Nat) : (s.obsCount i).streams = s.streams := rfl

@[simp] theorem obsCount_job (i : Nat) : (s.obsCount i).job = s.job := rfl

@[simp] theorem obsCount_scree (i : Nat) : (s.obsCount i).scree = s.scree := rfl

@[simp] theorem obsCount_rdg (i : Nat) : (s.obsCount i).rdg = s.rdg := rfl

@[simp] theorem obsCount_crn (i : Nat) : (s.obsCount i).crn = s.crn := rfl

@[simp] theorem obsCount_act (i : Nat) : (s.obsCount i).act = s.act := rfl

@[simp] theorem obsCount_hlk (i : Nat) : (s.obsCount i).hlk = s.hlk := rfl

@[simp] theorem obsCount_stb (i : Nat) : (s.obsCount i).stb = s.stb := rfl

@[simp] theorem obsCount_mot (i : Nat) : (s.obsCount i).mot = s.mot := rfl

@[simp] theorem obsCount_pos (i : Nat) : (s.obsCount i).pos = s.pos := rfl

@[simp] theorem obsCount_stp (i : Nat) : (s.obsCount i).stp = s.stp := rfl

@[simp] theorem obsCount_swi (i : Nat) : (s.obsCount i).swi = s.swi := rfl

@[simp] theorem obsCount_twn (i : Nat) : (s.obsCount i).twn = s.twn := rfl

@[simp] theorem obsCount_csc (i : Nat) : (s.obsCount i).csc = s.csc := rfl

@[simp] theorem obsCount_seq (i : Nat) : (s.obsCount i).seq = s.seq := rfl

@[simp] theorem obsCount_tlb (i : Nat) : (s.obsCount i).tlb = s.tlb := rfl

@[simp] theorem obsCount_mu (i : Nat) : (s.obsCount i).mu = s.mu := rfl

@[simp] theorem obsCount_dmc (i : Nat) : (s.obsCount i).dmc = s.dmc := rfl

@[simp] theorem obsCount_mv (i : Nat) : (s.obsCount i).mv = s.mv := rfl

@[simp] theorem obsCount_links (i : Nat) : (s.obsCount i).links = s.links := rfl

@[simp] theorem obsCount_trg (i : Nat) : (s.obsCount i).trg = s.trg := rfl

@[simp] theorem obsCount_cam (i : Nat) : (s.obsCount i).cam = s.cam := rfl

@[simp] theorem obsCount_cal (i : Nat) : (s.obsCount i).cal = s.cal := rfl

@[simp] theorem obsCount_obs (i : Nat) : (s.obsCount i).obs = { s.obs with counts := upd s.obs.counts i (· + 1) } := rfl

@[simp] theorem obsCount_out (i : Nat) : (s.obsCount i).out = s.out := rfl

@[simp] theorem obsCount_draws (i : Nat) : (s.obsCount i).draws = s.draws := rfl

/-! ## `wrByte` -/

@[simp] theorem wrByte_pending (a : Nat) (v : Byte) : (s.wrByte a v).pending = s.pending := by
  unfold wrByte; split <;> rfl

@[simp] theorem wrByte_die (a : Nat) (v : Byte) : (s.wrByte a v).die = s.die := by
  unfold wrByte; split <;> rfl

@[simp] theorem wrByte_pins (a : Nat) (v : Byte) : (s.wrByte a v).pins = s.pins := by
  unfold wrByte; split <;> rfl

@[simp] theorem wrByte_clk (a : Nat) (v : Byte) : (s.wrByte a v).clk = s.clk := by
  unfold wrByte; split <;> rfl

@[simp] theorem wrByte_regs (a : Nat) (v : Byte) : (s.wrByte a v).regs = s.regs := by
  unfold wrByte; split <;> rfl

@[simp] theorem wrByte_captures (a : Nat) (v : Byte) : (s.wrByte a v).captures = s.captures := by
  unfold wrByte; split <;> rfl

@[simp] theorem wrByte_island (a : Nat) (v : Byte) : (s.wrByte a v).island = s.island := by
  unfold wrByte; split <;> rfl

@[simp] theorem wrByte_boot (a : Nat) (v : Byte) : (s.wrByte a v).boot = s.boot := by
  unfold wrByte; split <;> rfl

@[simp] theorem wrByte_fco (a : Nat) (v : Byte) : (s.wrByte a v).fco = s.fco := by
  unfold wrByte; split <;> rfl

@[simp] theorem wrByte_saf (a : Nat) (v : Byte) : (s.wrByte a v).saf = s.saf := by
  unfold wrByte; split <;> rfl

@[simp] theorem wrByte_bist (a : Nat) (v : Byte) : (s.wrByte a v).bist = s.bist := by
  unfold wrByte; split <;> rfl

@[simp] theorem wrByte_dose (a : Nat) (v : Byte) : (s.wrByte a v).dose = s.dose := by
  unfold wrByte; split <;> rfl

@[simp] theorem wrByte_streams (a : Nat) (v : Byte) : (s.wrByte a v).streams = s.streams := by
  unfold wrByte; split <;> rfl

@[simp] theorem wrByte_job (a : Nat) (v : Byte) : (s.wrByte a v).job = s.job := by
  unfold wrByte; split <;> rfl

@[simp] theorem wrByte_scree (a : Nat) (v : Byte) : (s.wrByte a v).scree = s.scree := by
  unfold wrByte; split <;> rfl

@[simp] theorem wrByte_rdg (a : Nat) (v : Byte) : (s.wrByte a v).rdg = s.rdg := by
  unfold wrByte; split <;> rfl

@[simp] theorem wrByte_crn (a : Nat) (v : Byte) : (s.wrByte a v).crn = s.crn := by
  unfold wrByte; split <;> rfl

@[simp] theorem wrByte_act (a : Nat) (v : Byte) : (s.wrByte a v).act = s.act := by
  unfold wrByte; split <;> rfl

@[simp] theorem wrByte_hlk (a : Nat) (v : Byte) : (s.wrByte a v).hlk = s.hlk := by
  unfold wrByte; split <;> rfl

@[simp] theorem wrByte_stb (a : Nat) (v : Byte) : (s.wrByte a v).stb = s.stb := by
  unfold wrByte; split <;> rfl

@[simp] theorem wrByte_mot (a : Nat) (v : Byte) : (s.wrByte a v).mot = s.mot := by
  unfold wrByte; split <;> rfl

@[simp] theorem wrByte_pos (a : Nat) (v : Byte) : (s.wrByte a v).pos = s.pos := by
  unfold wrByte; split <;> rfl

@[simp] theorem wrByte_stp (a : Nat) (v : Byte) : (s.wrByte a v).stp = s.stp := by
  unfold wrByte; split <;> rfl

@[simp] theorem wrByte_swi (a : Nat) (v : Byte) : (s.wrByte a v).swi = s.swi := by
  unfold wrByte; split <;> rfl

@[simp] theorem wrByte_twn (a : Nat) (v : Byte) : (s.wrByte a v).twn = s.twn := by
  unfold wrByte; split <;> rfl

@[simp] theorem wrByte_csc (a : Nat) (v : Byte) : (s.wrByte a v).csc = s.csc := by
  unfold wrByte; split <;> rfl

@[simp] theorem wrByte_seq (a : Nat) (v : Byte) : (s.wrByte a v).seq = s.seq := by
  unfold wrByte; split <;> rfl

@[simp] theorem wrByte_tlb (a : Nat) (v : Byte) : (s.wrByte a v).tlb = s.tlb := by
  unfold wrByte; split <;> rfl

@[simp] theorem wrByte_mu (a : Nat) (v : Byte) : (s.wrByte a v).mu = s.mu := by
  unfold wrByte; split <;> rfl

@[simp] theorem wrByte_dmc (a : Nat) (v : Byte) : (s.wrByte a v).dmc = s.dmc := by
  unfold wrByte; split <;> rfl

@[simp] theorem wrByte_mv (a : Nat) (v : Byte) : (s.wrByte a v).mv = s.mv := by
  unfold wrByte; split <;> rfl

@[simp] theorem wrByte_links (a : Nat) (v : Byte) : (s.wrByte a v).links = s.links := by
  unfold wrByte; split <;> rfl

@[simp] theorem wrByte_trg (a : Nat) (v : Byte) : (s.wrByte a v).trg = s.trg := by
  unfold wrByte; split <;> rfl

@[simp] theorem wrByte_cam (a : Nat) (v : Byte) : (s.wrByte a v).cam = s.cam := by
  unfold wrByte; split <;> rfl

@[simp] theorem wrByte_cal (a : Nat) (v : Byte) : (s.wrByte a v).cal = s.cal := by
  unfold wrByte; split <;> rfl

@[simp] theorem wrByte_obs (a : Nat) (v : Byte) : (s.wrByte a v).obs = s.obs := by
  unfold wrByte; split <;> rfl

@[simp] theorem wrByte_out (a : Nat) (v : Byte) : (s.wrByte a v).out = s.out := by
  unfold wrByte; split <;> rfl

@[simp] theorem wrByte_draws (a : Nat) (v : Byte) : (s.wrByte a v).draws = s.draws := by
  unfold wrByte; split <;> rfl

/-! ## `wrBytes` -/

@[simp] theorem wrBytes_pending (a : Nat) (bs : Bytes) : (s.wrBytes a bs).pending = s.pending := by
  induction bs generalizing s a with
  | nil => rfl
  | cons _ _ ih => simp only [wrBytes, ih, wrByte_pending]

@[simp] theorem wrBytes_die (a : Nat) (bs : Bytes) : (s.wrBytes a bs).die = s.die := by
  induction bs generalizing s a with
  | nil => rfl
  | cons _ _ ih => simp only [wrBytes, ih, wrByte_die]

@[simp] theorem wrBytes_pins (a : Nat) (bs : Bytes) : (s.wrBytes a bs).pins = s.pins := by
  induction bs generalizing s a with
  | nil => rfl
  | cons _ _ ih => simp only [wrBytes, ih, wrByte_pins]

@[simp] theorem wrBytes_clk (a : Nat) (bs : Bytes) : (s.wrBytes a bs).clk = s.clk := by
  induction bs generalizing s a with
  | nil => rfl
  | cons _ _ ih => simp only [wrBytes, ih, wrByte_clk]

@[simp] theorem wrBytes_regs (a : Nat) (bs : Bytes) : (s.wrBytes a bs).regs = s.regs := by
  induction bs generalizing s a with
  | nil => rfl
  | cons _ _ ih => simp only [wrBytes, ih, wrByte_regs]

@[simp] theorem wrBytes_captures (a : Nat) (bs : Bytes) : (s.wrBytes a bs).captures = s.captures := by
  induction bs generalizing s a with
  | nil => rfl
  | cons _ _ ih => simp only [wrBytes, ih, wrByte_captures]

@[simp] theorem wrBytes_island (a : Nat) (bs : Bytes) : (s.wrBytes a bs).island = s.island := by
  induction bs generalizing s a with
  | nil => rfl
  | cons _ _ ih => simp only [wrBytes, ih, wrByte_island]

@[simp] theorem wrBytes_boot (a : Nat) (bs : Bytes) : (s.wrBytes a bs).boot = s.boot := by
  induction bs generalizing s a with
  | nil => rfl
  | cons _ _ ih => simp only [wrBytes, ih, wrByte_boot]

@[simp] theorem wrBytes_fco (a : Nat) (bs : Bytes) : (s.wrBytes a bs).fco = s.fco := by
  induction bs generalizing s a with
  | nil => rfl
  | cons _ _ ih => simp only [wrBytes, ih, wrByte_fco]

@[simp] theorem wrBytes_saf (a : Nat) (bs : Bytes) : (s.wrBytes a bs).saf = s.saf := by
  induction bs generalizing s a with
  | nil => rfl
  | cons _ _ ih => simp only [wrBytes, ih, wrByte_saf]

@[simp] theorem wrBytes_bist (a : Nat) (bs : Bytes) : (s.wrBytes a bs).bist = s.bist := by
  induction bs generalizing s a with
  | nil => rfl
  | cons _ _ ih => simp only [wrBytes, ih, wrByte_bist]

@[simp] theorem wrBytes_dose (a : Nat) (bs : Bytes) : (s.wrBytes a bs).dose = s.dose := by
  induction bs generalizing s a with
  | nil => rfl
  | cons _ _ ih => simp only [wrBytes, ih, wrByte_dose]

@[simp] theorem wrBytes_streams (a : Nat) (bs : Bytes) : (s.wrBytes a bs).streams = s.streams := by
  induction bs generalizing s a with
  | nil => rfl
  | cons _ _ ih => simp only [wrBytes, ih, wrByte_streams]

@[simp] theorem wrBytes_job (a : Nat) (bs : Bytes) : (s.wrBytes a bs).job = s.job := by
  induction bs generalizing s a with
  | nil => rfl
  | cons _ _ ih => simp only [wrBytes, ih, wrByte_job]

@[simp] theorem wrBytes_scree (a : Nat) (bs : Bytes) : (s.wrBytes a bs).scree = s.scree := by
  induction bs generalizing s a with
  | nil => rfl
  | cons _ _ ih => simp only [wrBytes, ih, wrByte_scree]

@[simp] theorem wrBytes_rdg (a : Nat) (bs : Bytes) : (s.wrBytes a bs).rdg = s.rdg := by
  induction bs generalizing s a with
  | nil => rfl
  | cons _ _ ih => simp only [wrBytes, ih, wrByte_rdg]

@[simp] theorem wrBytes_crn (a : Nat) (bs : Bytes) : (s.wrBytes a bs).crn = s.crn := by
  induction bs generalizing s a with
  | nil => rfl
  | cons _ _ ih => simp only [wrBytes, ih, wrByte_crn]

@[simp] theorem wrBytes_act (a : Nat) (bs : Bytes) : (s.wrBytes a bs).act = s.act := by
  induction bs generalizing s a with
  | nil => rfl
  | cons _ _ ih => simp only [wrBytes, ih, wrByte_act]

@[simp] theorem wrBytes_hlk (a : Nat) (bs : Bytes) : (s.wrBytes a bs).hlk = s.hlk := by
  induction bs generalizing s a with
  | nil => rfl
  | cons _ _ ih => simp only [wrBytes, ih, wrByte_hlk]

@[simp] theorem wrBytes_stb (a : Nat) (bs : Bytes) : (s.wrBytes a bs).stb = s.stb := by
  induction bs generalizing s a with
  | nil => rfl
  | cons _ _ ih => simp only [wrBytes, ih, wrByte_stb]

@[simp] theorem wrBytes_mot (a : Nat) (bs : Bytes) : (s.wrBytes a bs).mot = s.mot := by
  induction bs generalizing s a with
  | nil => rfl
  | cons _ _ ih => simp only [wrBytes, ih, wrByte_mot]

@[simp] theorem wrBytes_pos (a : Nat) (bs : Bytes) : (s.wrBytes a bs).pos = s.pos := by
  induction bs generalizing s a with
  | nil => rfl
  | cons _ _ ih => simp only [wrBytes, ih, wrByte_pos]

@[simp] theorem wrBytes_stp (a : Nat) (bs : Bytes) : (s.wrBytes a bs).stp = s.stp := by
  induction bs generalizing s a with
  | nil => rfl
  | cons _ _ ih => simp only [wrBytes, ih, wrByte_stp]

@[simp] theorem wrBytes_swi (a : Nat) (bs : Bytes) : (s.wrBytes a bs).swi = s.swi := by
  induction bs generalizing s a with
  | nil => rfl
  | cons _ _ ih => simp only [wrBytes, ih, wrByte_swi]

@[simp] theorem wrBytes_twn (a : Nat) (bs : Bytes) : (s.wrBytes a bs).twn = s.twn := by
  induction bs generalizing s a with
  | nil => rfl
  | cons _ _ ih => simp only [wrBytes, ih, wrByte_twn]

@[simp] theorem wrBytes_csc (a : Nat) (bs : Bytes) : (s.wrBytes a bs).csc = s.csc := by
  induction bs generalizing s a with
  | nil => rfl
  | cons _ _ ih => simp only [wrBytes, ih, wrByte_csc]

@[simp] theorem wrBytes_seq (a : Nat) (bs : Bytes) : (s.wrBytes a bs).seq = s.seq := by
  induction bs generalizing s a with
  | nil => rfl
  | cons _ _ ih => simp only [wrBytes, ih, wrByte_seq]

@[simp] theorem wrBytes_tlb (a : Nat) (bs : Bytes) : (s.wrBytes a bs).tlb = s.tlb := by
  induction bs generalizing s a with
  | nil => rfl
  | cons _ _ ih => simp only [wrBytes, ih, wrByte_tlb]

@[simp] theorem wrBytes_mu (a : Nat) (bs : Bytes) : (s.wrBytes a bs).mu = s.mu := by
  induction bs generalizing s a with
  | nil => rfl
  | cons _ _ ih => simp only [wrBytes, ih, wrByte_mu]

@[simp] theorem wrBytes_dmc (a : Nat) (bs : Bytes) : (s.wrBytes a bs).dmc = s.dmc := by
  induction bs generalizing s a with
  | nil => rfl
  | cons _ _ ih => simp only [wrBytes, ih, wrByte_dmc]

@[simp] theorem wrBytes_mv (a : Nat) (bs : Bytes) : (s.wrBytes a bs).mv = s.mv := by
  induction bs generalizing s a with
  | nil => rfl
  | cons _ _ ih => simp only [wrBytes, ih, wrByte_mv]

@[simp] theorem wrBytes_links (a : Nat) (bs : Bytes) : (s.wrBytes a bs).links = s.links := by
  induction bs generalizing s a with
  | nil => rfl
  | cons _ _ ih => simp only [wrBytes, ih, wrByte_links]

@[simp] theorem wrBytes_trg (a : Nat) (bs : Bytes) : (s.wrBytes a bs).trg = s.trg := by
  induction bs generalizing s a with
  | nil => rfl
  | cons _ _ ih => simp only [wrBytes, ih, wrByte_trg]

@[simp] theorem wrBytes_cam (a : Nat) (bs : Bytes) : (s.wrBytes a bs).cam = s.cam := by
  induction bs generalizing s a with
  | nil => rfl
  | cons _ _ ih => simp only [wrBytes, ih, wrByte_cam]

@[simp] theorem wrBytes_cal (a : Nat) (bs : Bytes) : (s.wrBytes a bs).cal = s.cal := by
  induction bs generalizing s a with
  | nil => rfl
  | cons _ _ ih => simp only [wrBytes, ih, wrByte_cal]

@[simp] theorem wrBytes_obs (a : Nat) (bs : Bytes) : (s.wrBytes a bs).obs = s.obs := by
  induction bs generalizing s a with
  | nil => rfl
  | cons _ _ ih => simp only [wrBytes, ih, wrByte_obs]

@[simp] theorem wrBytes_out (a : Nat) (bs : Bytes) : (s.wrBytes a bs).out = s.out := by
  induction bs generalizing s a with
  | nil => rfl
  | cons _ _ ih => simp only [wrBytes, ih, wrByte_out]

@[simp] theorem wrBytes_draws (a : Nat) (bs : Bytes) : (s.wrBytes a bs).draws = s.draws := by
  induction bs generalizing s a with
  | nil => rfl
  | cons _ _ ih => simp only [wrBytes, ih, wrByte_draws]

/-! ## `wr` -/

@[simp] theorem wr_pending (a : Nat) (bs : Bytes) : (s.wr a bs).pending = s.pending := s.wrBytes_pending a bs

@[simp] theorem wr_die (a : Nat) (bs : Bytes) : (s.wr a bs).die = s.die := s.wrBytes_die a bs

@[simp] theorem wr_pins (a : Nat) (bs : Bytes) : (s.wr a bs).pins = s.pins := s.wrBytes_pins a bs

@[simp] theorem wr_clk (a : Nat) (bs : Bytes) : (s.wr a bs).clk = s.clk := s.wrBytes_clk a bs

@[simp] theorem wr_regs (a : Nat) (bs : Bytes) : (s.wr a bs).regs = s.regs := s.wrBytes_regs a bs

@[simp] theorem wr_captures (a : Nat) (bs : Bytes) : (s.wr a bs).captures = s.captures := s.wrBytes_captures a bs

@[simp] theorem wr_mem (a : Nat) (bs : Bytes) : (s.wr a bs).mem = (s.wrBytes a bs).mem := rfl

@[simp] theorem wr_island (a : Nat) (bs : Bytes) : (s.wr a bs).island = s.island := s.wrBytes_island a bs

@[simp] theorem wr_boot (a : Nat) (bs : Bytes) : (s.wr a bs).boot = s.boot := s.wrBytes_boot a bs

@[simp] theorem wr_fco (a : Nat) (bs : Bytes) : (s.wr a bs).fco = s.fco := s.wrBytes_fco a bs

@[simp] theorem wr_saf (a : Nat) (bs : Bytes) : (s.wr a bs).saf = s.saf := s.wrBytes_saf a bs

@[simp] theorem wr_bist (a : Nat) (bs : Bytes) : (s.wr a bs).bist = s.bist := s.wrBytes_bist a bs

@[simp] theorem wr_dose (a : Nat) (bs : Bytes) : (s.wr a bs).dose = s.dose := s.wrBytes_dose a bs

@[simp] theorem wr_streams (a : Nat) (bs : Bytes) : (s.wr a bs).streams = s.streams := s.wrBytes_streams a bs

@[simp] theorem wr_job (a : Nat) (bs : Bytes) : (s.wr a bs).job = s.job := s.wrBytes_job a bs

@[simp] theorem wr_scree (a : Nat) (bs : Bytes) : (s.wr a bs).scree = s.scree := s.wrBytes_scree a bs

@[simp] theorem wr_rdg (a : Nat) (bs : Bytes) : (s.wr a bs).rdg = s.rdg := s.wrBytes_rdg a bs

@[simp] theorem wr_crn (a : Nat) (bs : Bytes) : (s.wr a bs).crn = s.crn := s.wrBytes_crn a bs

@[simp] theorem wr_act (a : Nat) (bs : Bytes) : (s.wr a bs).act = s.act := s.wrBytes_act a bs

@[simp] theorem wr_hlk (a : Nat) (bs : Bytes) : (s.wr a bs).hlk = s.hlk := s.wrBytes_hlk a bs

@[simp] theorem wr_stb (a : Nat) (bs : Bytes) : (s.wr a bs).stb = s.stb := s.wrBytes_stb a bs

@[simp] theorem wr_mot (a : Nat) (bs : Bytes) : (s.wr a bs).mot = s.mot := s.wrBytes_mot a bs

@[simp] theorem wr_pos (a : Nat) (bs : Bytes) : (s.wr a bs).pos = s.pos := s.wrBytes_pos a bs

@[simp] theorem wr_stp (a : Nat) (bs : Bytes) : (s.wr a bs).stp = s.stp := s.wrBytes_stp a bs

@[simp] theorem wr_swi (a : Nat) (bs : Bytes) : (s.wr a bs).swi = s.swi := s.wrBytes_swi a bs

@[simp] theorem wr_twn (a : Nat) (bs : Bytes) : (s.wr a bs).twn = s.twn := s.wrBytes_twn a bs

@[simp] theorem wr_csc (a : Nat) (bs : Bytes) : (s.wr a bs).csc = s.csc := s.wrBytes_csc a bs

@[simp] theorem wr_seq (a : Nat) (bs : Bytes) : (s.wr a bs).seq = s.seq := s.wrBytes_seq a bs

@[simp] theorem wr_tlb (a : Nat) (bs : Bytes) : (s.wr a bs).tlb = s.tlb := s.wrBytes_tlb a bs

@[simp] theorem wr_dmc (a : Nat) (bs : Bytes) : (s.wr a bs).dmc = s.dmc := s.wrBytes_dmc a bs

@[simp] theorem wr_mv (a : Nat) (bs : Bytes) : (s.wr a bs).mv = s.mv := s.wrBytes_mv a bs

@[simp] theorem wr_links (a : Nat) (bs : Bytes) : (s.wr a bs).links = s.links := s.wrBytes_links a bs

@[simp] theorem wr_trg (a : Nat) (bs : Bytes) : (s.wr a bs).trg = s.trg := s.wrBytes_trg a bs

@[simp] theorem wr_cam (a : Nat) (bs : Bytes) : (s.wr a bs).cam = s.cam := s.wrBytes_cam a bs

@[simp] theorem wr_cal (a : Nat) (bs : Bytes) : (s.wr a bs).cal = s.cal := s.wrBytes_cal a bs

@[simp] theorem wr_obs (a : Nat) (bs : Bytes) : (s.wr a bs).obs = s.obs := s.wrBytes_obs a bs

@[simp] theorem wr_out (a : Nat) (bs : Bytes) : (s.wr a bs).out = s.out := s.wrBytes_out a bs

@[simp] theorem wr_draws (a : Nat) (bs : Bytes) : (s.wr a bs).draws = s.draws := s.wrBytes_draws a bs

/-! ## `tick` -/

@[simp] theorem tick_pending (n : Nat) : (s.tick n).pending = s.pending := by
  unfold tick; split <;> rfl

@[simp] theorem tick_die (n : Nat) : (s.tick n).die = s.die := by
  unfold tick; split <;> rfl

@[simp] theorem tick_pins (n : Nat) : (s.tick n).pins = s.pins := by
  unfold tick; split <;> rfl

@[simp] theorem tick_regs (n : Nat) : (s.tick n).regs = s.regs := by
  unfold tick; split <;> rfl

@[simp] theorem tick_captures (n : Nat) : (s.tick n).captures = s.captures := by
  unfold tick; split <;> rfl

@[simp] theorem tick_mem (n : Nat) : (s.tick n).mem = s.mem := by
  unfold tick; split <;> rfl

@[simp] theorem tick_island (n : Nat) : (s.tick n).island = s.island := by
  unfold tick; split <;> rfl

@[simp] theorem tick_boot (n : Nat) : (s.tick n).boot = s.boot := by
  unfold tick; split <;> rfl

@[simp] theorem tick_fco (n : Nat) : (s.tick n).fco = s.fco := by
  unfold tick; split <;> rfl

@[simp] theorem tick_saf (n : Nat) : (s.tick n).saf = s.saf := by
  unfold tick; split <;> rfl

@[simp] theorem tick_bist (n : Nat) : (s.tick n).bist = s.bist := by
  unfold tick; split <;> rfl

@[simp] theorem tick_dose (n : Nat) : (s.tick n).dose = s.dose := by
  unfold tick; split <;> rfl

@[simp] theorem tick_streams (n : Nat) : (s.tick n).streams = s.streams := by
  unfold tick; split <;> rfl

@[simp] theorem tick_job (n : Nat) : (s.tick n).job = s.job := by
  unfold tick; split <;> rfl

@[simp] theorem tick_scree (n : Nat) : (s.tick n).scree = s.scree := by
  unfold tick; split <;> rfl

@[simp] theorem tick_rdg (n : Nat) : (s.tick n).rdg = s.rdg := by
  unfold tick; split <;> rfl

@[simp] theorem tick_crn (n : Nat) : (s.tick n).crn = s.crn := by
  unfold tick; split <;> rfl

@[simp] theorem tick_act (n : Nat) : (s.tick n).act = s.act := by
  unfold tick; split <;> rfl

@[simp] theorem tick_hlk (n : Nat) : (s.tick n).hlk = s.hlk := by
  unfold tick; split <;> rfl

@[simp] theorem tick_stb (n : Nat) : (s.tick n).stb = s.stb := by
  unfold tick; split <;> rfl

@[simp] theorem tick_mot (n : Nat) : (s.tick n).mot = s.mot := by
  unfold tick; split <;> rfl

@[simp] theorem tick_pos (n : Nat) : (s.tick n).pos = s.pos := by
  unfold tick; split <;> rfl

@[simp] theorem tick_stp (n : Nat) : (s.tick n).stp = s.stp := by
  unfold tick; split <;> rfl

@[simp] theorem tick_swi (n : Nat) : (s.tick n).swi = s.swi := by
  unfold tick; split <;> rfl

@[simp] theorem tick_twn (n : Nat) : (s.tick n).twn = s.twn := by
  unfold tick; split <;> rfl

@[simp] theorem tick_csc (n : Nat) : (s.tick n).csc = s.csc := by
  unfold tick; split <;> rfl

@[simp] theorem tick_seq (n : Nat) : (s.tick n).seq = s.seq := by
  unfold tick; split <;> rfl

@[simp] theorem tick_tlb (n : Nat) : (s.tick n).tlb = s.tlb := by
  unfold tick; split <;> rfl

@[simp] theorem tick_mu (n : Nat) : (s.tick n).mu = s.mu := by
  unfold tick; split <;> rfl

@[simp] theorem tick_dmc (n : Nat) : (s.tick n).dmc = s.dmc := by
  unfold tick; split <;> rfl

@[simp] theorem tick_mv (n : Nat) : (s.tick n).mv = s.mv := by
  unfold tick; split <;> rfl

@[simp] theorem tick_links (n : Nat) : (s.tick n).links = s.links := by
  unfold tick; split <;> rfl

@[simp] theorem tick_trg (n : Nat) : (s.tick n).trg = s.trg := by
  unfold tick; split <;> rfl

@[simp] theorem tick_cam (n : Nat) : (s.tick n).cam = s.cam := by
  unfold tick; split <;> rfl

@[simp] theorem tick_cal (n : Nat) : (s.tick n).cal = s.cal := by
  unfold tick; split <;> rfl

@[simp] theorem tick_obs (n : Nat) : (s.tick n).obs = s.obs := by
  unfold tick; split <;> rfl

@[simp] theorem tick_out (n : Nat) : (s.tick n).out = s.out := by
  unfold tick; split <;> rfl

@[simp] theorem tick_draws (n : Nat) : (s.tick n).draws = s.draws := by
  unfold tick; split <;> rfl

/-! ## `at_` -/

@[simp] theorem at__pending (t : Nat) : (s.at_ t).pending = s.pending := s.tick_pending _

@[simp] theorem at__die (t : Nat) : (s.at_ t).die = s.die := s.tick_die _

@[simp] theorem at__pins (t : Nat) : (s.at_ t).pins = s.pins := s.tick_pins _

@[simp] theorem at__regs (t : Nat) : (s.at_ t).regs = s.regs := s.tick_regs _

@[simp] theorem at__captures (t : Nat) : (s.at_ t).captures = s.captures := s.tick_captures _

@[simp] theorem at__mem (t : Nat) : (s.at_ t).mem = s.mem := s.tick_mem _

@[simp] theorem at__island (t : Nat) : (s.at_ t).island = s.island := s.tick_island _

@[simp] theorem at__boot (t : Nat) : (s.at_ t).boot = s.boot := s.tick_boot _

@[simp] theorem at__fco (t : Nat) : (s.at_ t).fco = s.fco := s.tick_fco _

@[simp] theorem at__saf (t : Nat) : (s.at_ t).saf = s.saf := s.tick_saf _

@[simp] theorem at__bist (t : Nat) : (s.at_ t).bist = s.bist := s.tick_bist _

@[simp] theorem at__dose (t : Nat) : (s.at_ t).dose = s.dose := s.tick_dose _

@[simp] theorem at__streams (t : Nat) : (s.at_ t).streams = s.streams := s.tick_streams _

@[simp] theorem at__job (t : Nat) : (s.at_ t).job = s.job := s.tick_job _

@[simp] theorem at__scree (t : Nat) : (s.at_ t).scree = s.scree := s.tick_scree _

@[simp] theorem at__rdg (t : Nat) : (s.at_ t).rdg = s.rdg := s.tick_rdg _

@[simp] theorem at__crn (t : Nat) : (s.at_ t).crn = s.crn := s.tick_crn _

@[simp] theorem at__act (t : Nat) : (s.at_ t).act = s.act := s.tick_act _

@[simp] theorem at__hlk (t : Nat) : (s.at_ t).hlk = s.hlk := s.tick_hlk _

@[simp] theorem at__stb (t : Nat) : (s.at_ t).stb = s.stb := s.tick_stb _

@[simp] theorem at__mot (t : Nat) : (s.at_ t).mot = s.mot := s.tick_mot _

@[simp] theorem at__pos (t : Nat) : (s.at_ t).pos = s.pos := s.tick_pos _

@[simp] theorem at__stp (t : Nat) : (s.at_ t).stp = s.stp := s.tick_stp _

@[simp] theorem at__swi (t : Nat) : (s.at_ t).swi = s.swi := s.tick_swi _

@[simp] theorem at__twn (t : Nat) : (s.at_ t).twn = s.twn := s.tick_twn _

@[simp] theorem at__csc (t : Nat) : (s.at_ t).csc = s.csc := s.tick_csc _

@[simp] theorem at__seq (t : Nat) : (s.at_ t).seq = s.seq := s.tick_seq _

@[simp] theorem at__tlb (t : Nat) : (s.at_ t).tlb = s.tlb := s.tick_tlb _

@[simp] theorem at__mu (t : Nat) : (s.at_ t).mu = s.mu := s.tick_mu _

@[simp] theorem at__dmc (t : Nat) : (s.at_ t).dmc = s.dmc := s.tick_dmc _

@[simp] theorem at__mv (t : Nat) : (s.at_ t).mv = s.mv := s.tick_mv _

@[simp] theorem at__links (t : Nat) : (s.at_ t).links = s.links := s.tick_links _

@[simp] theorem at__trg (t : Nat) : (s.at_ t).trg = s.trg := s.tick_trg _

@[simp] theorem at__cam (t : Nat) : (s.at_ t).cam = s.cam := s.tick_cam _

@[simp] theorem at__cal (t : Nat) : (s.at_ t).cal = s.cal := s.tick_cal _

@[simp] theorem at__obs (t : Nat) : (s.at_ t).obs = s.obs := s.tick_obs _

@[simp] theorem at__out (t : Nat) : (s.at_ t).out = s.out := s.tick_out _

@[simp] theorem at__draws (t : Nat) : (s.at_ t).draws = s.draws := s.tick_draws _

/-! ## `draw` -/

@[simp] theorem draw_fst : s.draw.1 = Config.freeValue s.draws := rfl

@[simp] theorem draw_snd : s.draw.2 = { s with draws := s.draws + 1 } := rfl

end Sys2Proof.Machine.State
end

