-- ==== Sys2Proof/Laws/Isa.lean ====
section
/-! SUPPORT. What an instruction of a context comes to once it has been fetched (R332 to R352), and what one change of a unit in
a list leaves alone. -/

namespace Sys2Proof.Machine

/-! ## Lists of units -/

theorem upd_upd {α : Type} (l : List α) (i : Nat) (f g : α → α) : upd (upd l i f) i g = upd l i (fun a => g (f a)) := by
  unfold upd
  induction l generalizing i with
  | nil => simp
  | cons a l ih => cases i <;> simp_all

theorem nth_upd_ne {α : Type} (l : List α) {i j : Nat} (f : α → α) (d : α) (h : j ≠ i) : nth (upd l i f) j d = nth l j d := by
  simp [nth, upd, Ne.symm h]

theorem nth_upd_self {α : Type} (l : List α) {i : Nat} (f : α → α) (d : α) (h : i < l.length) :
    nth (upd l i f) i d = f (nth l i d) := by
  simp [nth, upd, h]

theorem length_upd {α : Type} (l : List α) (i : Nat) (f : α → α) : (upd l i f).length = l.length := by
  simp [upd]

theorem updCtx_updCtx (s : State) (c : Nat) (f g : Ctx → Ctx) :
    (s.updCtx c f).updCtx c g = s.updCtx c (fun k => g (f k)) := by
  simp [State.updCtx, upd_upd]

theorem ctx_updCtx_ne (s : State) {c d : Nat} (f : Ctx → Ctx) (h : d ≠ c) : (s.updCtx c f).ctx d = s.ctx d := by
  simp [State.ctx, State.updCtx, nth_upd_ne, h]

/-! ## Instructions -/

/-- A fetched instruction answers its own effect. -/
theorem fetched_instruction {s u : State} {c : Nat} (h : s.fetched c u) (act : State → State) :
    instruction c s act = .next (act u).settle := by
  obtain ⟨h1, h2, h3, h4⟩ := h
  simp [State.clocked] at h1
  simp [instruction, whenClocked, h1, h2, h3, h4, done]

/-- An ALU result: the register, the flags the operation defines, and the next instruction. -/
theorem aluWrite_eq (u : State) (c rd n : Nat) (r : Alu) : u.aluWrite c rd r n =
    (u.updCtx c (fun k => k.result rd r.val (r.z.getD k.z) (r.n.getD k.n) (r.c.getD k.c) (r.v.getD k.v))).spend c n := by
  simp [State.aluWrite, State.setK, State.nextPc, updCtx_updCtx, Alu.setFlags, Ctx.result]

/-! ## Translations and reads that change nothing -/

/-- A cached leaf that admits the access translates without a walk. -/
theorem mapped_translate {s : State} {c va pa : Nat} {k : AccessKind} (h : s.mapped c va k pa) :
    s.translate c va k .sequencer = (s, .ok pa) := by
  obtain ⟨l, e, ⟨h1, h2⟩, ha, rfl⟩ := h
  unfold State.translate
  rw [if_neg (Nat.not_le_of_lt h1), h2]
  simp [ha]

/-- Bytes in which no error stands read as they are. -/
theorem clean_readMem {s : State} {pa n : Nat} (r : Reader) (c : Nat) (h : s.cleanAt pa n) :
    s.readMem r c pa n = (s, .ok (s.rd pa n)) := by
  obtain ⟨h1, h2, h3, h4⟩ := h
  have hf : (List.range n).find? (fun i => s.badAt (pa + i)) = none := by
    simp only [List.find?_eq_none, List.mem_range]
    intro i hi
    simp [h3 i hi]
  have hc : s.mu.ces.filter (fun e => decide (pa ≤ e) && decide (e < pa + n)) = [] := by
    simp only [List.filter_eq_nil_iff]
    intro e he
    have := h4 e (List.mem_append_left _ he)
    simp
    omega
  have hu : s.mu.ues.filter (fun e => decide (pa ≤ e) && decide (e < pa + n) && tripled e && s.mu.ues.count e = 1) = [] := by
    simp only [List.filter_eq_nil_iff]
    intro e he
    have := h4 e (List.mem_append_right _ he)
    simp
    omega
  unfold State.readMem
  simp [h1, h2, hf, State.repairRange, hc, hu]

/-- A load from a clean place of an SRAM pool that a cached leaf maps. -/
theorem loadAt_mapped {u : State} {c n pa : Nat} {va : BitVec 64} (rd : Nat) (word : Bool) (ext : Nat → BitVec 64)
    (hal : va.toNat % n = 0) (hm : u.mapped c va.toNat .read pa) (hp : accessPlace pa = .seqPool ∨ accessPlace pa = .otherPool)
    (hc : u.cleanAt pa n) : u.loadAt c rd n va word ext = (u.setK c rd (ext (leNat (u.rd pa n)))).nextPc c 4 := by
  unfold State.loadAt
  rw [mapped_translate hm]
  rcases hp with hp | hp <;> simp [hal, hp, clean_readMem _ _ hc]

/-- A store to a place of the SEQ pool that a cached leaf maps. -/
theorem storeAt_mapped {u : State} {c n pa : Nat} {va : BitVec 64} (word : Bool) (v : BitVec 64) (hal : va.toNat % n = 0)
    (hm : u.mapped c va.toNat .write pa) (hp : accessPlace pa = .seqPool) :
    u.storeAt c n va word v = (u.wrLE pa n v.toNat).nextPc c 2 := by
  unfold State.storeAt
  rw [mapped_translate hm]
  simp [hal, hp]

/-- The source of a beat in a place of an SRAM pool that a cached leaf maps. -/
theorem beatFrom_mapped {u : State} {c pa : Nat} {va : BitVec 64} (hm : u.mapped c va.toNat .read pa)
    (hp : accessPlace pa = .seqPool ∨ accessPlace pa = .otherPool) : u.beatFrom c va = (u, some pa) := by
  unfold State.beatFrom
  rw [mapped_translate hm]
  rcases hp with hp | hp <;> simp [hp]

/-- A source that is clean is read. -/
theorem beatRead_clean {u : State} {c n pa : Nat} {va : BitVec 64} (hc : u.cleanAt pa n) :
    u.beatRead c va pa n = (u, some (u.rd pa n)) := by
  unfold State.beatRead
  simp [clean_readMem _ _ hc]

/-- The destination of a beat in a place of the SEQ pool that a cached leaf maps. -/
theorem beatDest_mapped {u : State} {c pa : Nat} {va : BitVec 64} (hm : u.mapped c va.toNat .write pa)
    (hp : accessPlace pa = .seqPool) : u.beatDest c va = (u, some pa) := by
  unfold State.beatDest
  rw [mapped_translate hm]
  simp [hp]

end Sys2Proof.Machine
end

