-- ==== Sys2Proof/Laws/Settle.lean ====
section
/-! SUPPORT. What `settle` guarantees: the fire gate and the build state follow the causes from whatever state a command's effect
leaves (R98, R483), and it changes nothing in a quiet state. -/

namespace Sys2Proof.Machine.State

variable (s : State)

/-! ## The gate -/

theorem permitted_eq : s.permitted = !s.saf.anyCause := rfl

@[simp] theorem settleGate_mot : s.settleGate.mot = s.mot := by
  unfold settleGate; split <;> split <;> rfl

@[simp] theorem settleGate_fco : s.settleGate.fco = s.fco := by
  unfold settleGate; split <;> split <;> rfl

@[simp] theorem settleGate_mem : s.settleGate.mem = s.mem := by
  unfold settleGate; split <;> split <;> rfl

@[simp] theorem settleGate_regs : s.settleGate.regs = s.regs := by
  unfold settleGate; split <;> split <;> rfl

@[simp] theorem settleGate_twn : s.settleGate.twn = s.twn := by
  unfold settleGate; split <;> split <;> rfl

@[simp] theorem settleGate_pending : s.settleGate.pending = s.pending := by
  unfold settleGate; split <;> split <;> rfl

@[simp] theorem settleGate_die : s.settleGate.die = s.die := by
  unfold settleGate; split <;> split <;> rfl

@[simp] theorem settleGate_heldCause : s.settleGate.heldCause = s.heldCause := by
  unfold settleGate; split <;> split <;> rfl

@[simp] theorem settleGate_anyCause : s.settleGate.saf.anyCause = s.saf.anyCause := by
  unfold settleGate; split <;> split <;> rfl

/-- The gate outputs are what the causes and the role say. -/
theorem settleGate_fireGate : s.settleGate.pins.fireGate = (s.permitted && s.twn.role != 5) := by
  unfold settleGate
  split
  · split <;> simp_all
  · split <;> simp_all

theorem settleGate_gateSound : s.settleGate.gateSound = true := by
  simp only [gateSound, settleGate_fireGate, settleGate_anyCause, settleGate_twn, permitted_eq]
  cases s.saf.anyCause <;> cases (s.twn.role != 5) <;> rfl

theorem settle_gateSound : s.settle.gateSound = true := settleGate_gateSound _

/-! ## The build state -/

theorem foldl_bstate {α : Type} {f : State → α → State} (h : ∀ s a, (f s a).mot.bstate = s.mot.bstate) (l : List α) (s : State) :
    (l.foldl f s).mot.bstate = s.mot.bstate := by
  induction l generalizing s with
  | nil => rfl
  | cons a l ih => rw [List.foldl_cons, ih, h]

theorem makeReady_mot (c : Nat) : (s.makeReady c).mot = s.mot := by
  unfold makeReady; dsimp only; rfl

theorem raiseEvent_mot (c e : Nat) : (s.raiseEvent c e).mot = s.mot := by
  unfold raiseEvent; dsimp only
  split
  · rfl
  · split
    · rw [makeReady_mot]; rfl
    · rfl

theorem lineEvents_bstate : s.lineEvents.mot.bstate = s.mot.bstate := by
  refine foldl_bstate (fun s x => ?_) _ _
  dsimp only
  split
  · rw [raiseEvent_mot]; rfl
  · rfl

theorem fillWindow_mot : s.fillWindow.mot = s.mot := rfl

theorem freeLines_bstate : s.freeLines.mot.bstate = s.mot.bstate := by
  unfold freeLines; dsimp only
  rw [fillWindow_mot]
  exact foldl_bstate (f := fun s _ => s.obsCount 1) (fun s _ => rfl) _ s

theorem endHoming_bstate : s.endHoming.mot.bstate = s.mot.bstate := by
  unfold endHoming; dsimp only
  apply foldl_bstate
  exact fun s _ => rfl

theorem cscSend_mot (down : Bool) (typ : Nat) (body : Bytes) : (s.cscSend down typ body).mot = s.mot := by
  unfold cscSend cscPass; dsimp only
  split <;> split <;> rfl

theorem setBuild_bstate (b : Nat) : (s.setBuild b).mot.bstate = b := by
  unfold setBuild distribute; dsimp only
  split
  · rw [cscSend_mot]
  · rfl

theorem enterHeld_bstate : s.enterHeld.mot.bstate = Build.HELD := by
  unfold enterHeld; dsimp only
  rw [endHoming_bstate, setBuild_bstate]

/-- After a reset no cause but STARTUP stands. -/
theorem crstReset_heldCause : s.crstReset.heldCause = false := by
  unfold crstReset; dsimp only
  split <;> split <;> rfl

theorem consequences_heldSound : s.consequences.heldSound = true := by
  have hr : ∀ u : State, u.crstReset.heldSound = true := fun u => by simp [heldSound, crstReset_heldCause]
  have hh : ∀ u : State, u.enterHeld.lineEvents.freeLines.heldSound = true := fun u => by
    simp [heldSound, freeLines_bstate, lineEvents_bstate, enterHeld_bstate]
  unfold consequences
  split
  · exact hr _
  · dsimp only
    generalize freeBodies _ = u
    split
    · exact hr _
    · split
      · exact hh _
      · rename_i h
        unfold heldSound
        revert h
        cases u.heldCause <;> simp

theorem settle_heldSound : s.settle.heldSound = true := by
  have h := s.consequences_heldSound
  simpa [heldSound, settle] using h

theorem settle_sound : s.settle.sound = true := by
  simp [sound, settle_gateSound, settle_heldSound]

/-! ## A quiet state -/

theorem foldl_same {α : Type} {f : State → α → State} {s : State} (l : List α) (h : ∀ a ∈ l, f s a = s) : l.foldl f s = s := by
  induction l with
  | nil => rfl
  | cons a l ih =>
    rw [List.foldl_cons, h a (by simp)]
    exact ih (fun b hb => h b (by simp [hb]))

theorem quotas_same (h : ∀ x, x < 64 → (s.ctx x).quota = 0) (hd : s.scree.due = []) : s.quotas = s := by
  unfold quotas
  split
  · rfl
  refine foldl_same _ (fun x hx => ?_)
  simp [h x (List.mem_range.mp hx), hd]

theorem lineEvents_same (h : ∀ x, x < 64 → bit (s.reg (Reg.CRN_LW_CTRL x)) 0 = false) : s.lineEvents = s := by
  refine foldl_same _ (fun x hx => ?_)
  simp [h x (List.mem_range.mp hx)]

theorem freeBodies_same (h : ∀ x, x < 64 → (s.stream x).bodies = []) : s.freeBodies = s := by
  refine foldl_same _ (fun x hx => ?_)
  simp [h x (List.mem_range.mp hx)]

theorem fillWindow_same (hc : s.mot.current = none) (hq : s.mot.queue = []) : s.fillWindow = s := by
  have hn : ∀ q, s.newLine q = none := fun q => by simp [newLine, swathAt, planned, hc, hq]
  have he : ∀ l : List Nat, l.filterMap (fun k => s.newLine (s.windowEnd + k)) = [] := fun l => by
    simp [hn]
  unfold fillWindow; dsimp only
  rw [he, List.append_nil]

theorem freeLines_same (hw : s.crn.window = []) (hc : s.mot.current = none) (hq : s.mot.queue = []) : s.freeLines = s := by
  unfold freeLines
  simp only [hw, List.filter_nil, List.map_nil, List.takeWhile_nil, List.length_nil, List.drop_nil, Nat.add_zero,
    List.append_nil, List.foldl_nil, List.getLast?_nil]
  have e : ({ s with crn := { s.crn with window := [] } } : State) = s := by rw [← hw]
  rw [e]
  exact s.fillWindow_same hc hq

theorem settleGate_same (h : s.pins.fireGate = (s.permitted && s.twn.role != 5)) : s.settleGate = s := by
  unfold settleGate
  rw [← h]
  cases hf : s.pins.fireGate <;> simp

/-- R98, R483: from a quiet state nothing follows. -/
theorem settle_quiet (h : s.quiet) : s.settle = s := by
  obtain ⟨h1, h2, h3, h4, h5, h6, hd, h7, h8, h9, h10, h11, h12⟩ := h
  have hc : s.heldCause = false := by
    revert h2; unfold heldSound; cases s.heldCause <;> simp [h3]
  have e1 : s.leaveHeld = s := by simp [leaveHeld, h3]
  have e2 : s.testGate = s := by simp [testGate, h5]
  have e3 : s.closeLayer = s := by simp [closeLayer, h4]
  have e4 : s.leaveHeld.testGate.quotas.lineEvents.freeLines.closeLayer.freeBodies = s := by
    rw [e1, e2, s.quotas_same h6 hd, s.lineEvents_same h7, s.freeLines_same h8 h9 h10, e3, s.freeBodies_same h11]
  have e5 : s.consequences = s := by
    unfold consequences
    simp only [h1, hc, e4, Bool.false_and, Bool.false_eq_true, ↓reduceIte]
  rw [settle, e5, s.settleGate_same h12]

end Sys2Proof.Machine.State
end

