-- ==== Sys2Proof/Laws/Sparse.lean ====
section
/-! SUPPORT. The canonical form of memory and of the register file: every write keeps it, a read after a write gives what was
written, and every other place keeps its value. -/

namespace Sys2Proof.Machine

variable {w : Nat}

namespace Sparse

theorem mem_del {l : List (Nat × BitVec w)} {a : Nat} {p : Nat × BitVec w} : p ∈ del l a ↔ p ∈ l ∧ p.1 ≠ a := by
  simp [del, List.mem_filter]

/-- A part of a list in canonical form is in canonical form. -/
theorem wf_filter (f : Nat × BitVec w → Bool) : ∀ {l : List (Nat × BitVec w)}, wf l = true → wf (l.filter f) = true
  | [], _ => rfl
  | (a, v) :: l, h => by
    simp only [wf, Bool.and_eq_true, List.all_eq_true, decide_eq_true_eq] at h
    rw [List.filter_cons]
    split
    · simp only [wf, Bool.and_eq_true, List.all_eq_true, decide_eq_true_eq]
      exact ⟨⟨h.1.1, fun p hp => h.1.2 p (List.mem_filter.mp hp).1⟩, wf_filter f h.2⟩
    · exact wf_filter f h.2

theorem mem_ins {l : List (Nat × BitVec w)} {a : Nat} {v : BitVec w} {p : Nat × BitVec w} (h : p ∈ ins l a v) :
    p = (a, v) ∨ p ∈ l := by
  induction l with
  | nil => simpa [ins] using h
  | cons q l ih =>
    unfold ins at h
    split at h
    · simpa using h
    · rcases List.mem_cons.mp h with rfl | h
      · simp
      · rcases ih h with rfl | h <;> simp [*]

theorem wf_ins {a : Nat} {v : BitVec w} (hv : v ≠ 0) :
    ∀ {l : List (Nat × BitVec w)}, wf l = true → (∀ p ∈ l, p.1 ≠ a) → wf (ins l a v) = true
  | [], _, _ => by simpa [ins, wf] using hv
  | (b, x) :: l, h, hn => by
    have hb : b ≠ a := hn (b, x) (by simp)
    have h0 := h
    simp only [wf, Bool.and_eq_true, List.all_eq_true, decide_eq_true_eq] at h
    unfold ins
    split
    · rename_i hlt
      unfold wf
      simp only [Bool.and_eq_true, List.all_eq_true, decide_eq_true_eq]
      refine ⟨⟨by simpa using hv, fun p hp => ?_⟩, h0⟩
      rcases List.mem_cons.mp hp with rfl | hp
      · exact hlt
      · exact Nat.lt_trans hlt (h.1.2 p hp)
    · simp only [wf, Bool.and_eq_true, List.all_eq_true, decide_eq_true_eq]
      refine ⟨⟨h.1.1, fun p hp => ?_⟩, wf_ins hv h.2 (fun q hq => hn q (by simp [hq]))⟩
      rcases mem_ins hp with rfl | hp
      · show b < a
        omega
      · exact h.1.2 p hp

/-- A write keeps the canonical form. -/
theorem wf_put {l : List (Nat × BitVec w)} (a : Nat) (v : BitVec w) (h : wf l = true) : wf (put l a v) = true := by
  unfold put
  split
  · exact wf_filter _ h
  · rename_i hv
    exact wf_ins hv (wf_filter _ h) (fun p hp => (mem_del.mp hp).2)

theorem wf_foldl_put (ps : List (Nat × BitVec w)) : ∀ {l : List (Nat × BitVec w)}, wf l = true →
    wf (ps.foldl (fun l p => put l p.1 p.2) l) = true := by
  induction ps with
  | nil => exact fun h => h
  | cons p ps ih => exact fun h => ih (wf_put p.1 p.2 h)

theorem get_cons (b a : Nat) (v : BitVec w) (l : List (Nat × BitVec w)) :
    get ((b, v) :: l) a = if a = b then v else get l a := rfl

theorem get_del_self (l : List (Nat × BitVec w)) (a : Nat) : get (del l a) a = 0 := by
  induction l with
  | nil => rfl
  | cons p l ih =>
    obtain ⟨b, v⟩ := p
    unfold del at *
    rw [List.filter_cons]
    split
    · rename_i h
      have hb : b ≠ a := by simpa using h
      rw [get_cons, if_neg (Ne.symm hb), ih]
    · exact ih

theorem get_del_ne (l : List (Nat × BitVec w)) {a b : Nat} (h : b ≠ a) : get (del l a) b = get l b := by
  induction l with
  | nil => rfl
  | cons p l ih =>
    obtain ⟨c, v⟩ := p
    unfold del at *
    rw [List.filter_cons]
    split
    · rw [get_cons, get_cons, ih]
    · rename_i hp
      have e : c = a := by simpa using hp
      rw [ih, get_cons, if_neg (by omega)]

theorem get_ins_self {a : Nat} {v : BitVec w} : ∀ {l : List (Nat × BitVec w)}, (∀ p ∈ l, p.1 ≠ a) → get (ins l a v) a = v
  | [], _ => by simp [ins, get]
  | (b, x) :: l, hn => by
    have hb : b ≠ a := hn (b, x) (by simp)
    unfold ins
    split
    · rw [get_cons, if_pos rfl]
    · rw [get_cons, if_neg (Ne.symm hb)]
      exact get_ins_self (fun q hq => hn q (by simp [hq]))

theorem get_ins_ne {a b : Nat} {v : BitVec w} (h : b ≠ a) : ∀ {l : List (Nat × BitVec w)}, get (ins l a v) b = get l b
  | [] => by rw [ins, get_cons, if_neg h]
  | (c, x) :: l => by
    unfold ins
    split
    · rw [get_cons, if_neg h]
    · rw [get_cons, get_cons, get_ins_ne h]

/-- A read after a write to the same place gives the value written. -/
@[simp] theorem get_put_self (l : List (Nat × BitVec w)) (a : Nat) (v : BitVec w) : get (put l a v) a = v := by
  unfold put
  split
  · rename_i h
    rw [get_del_self, h]
  · exact get_ins_self (fun p hp => (mem_del.mp hp).2)

/-- A write leaves every other place alone. -/
theorem get_put_ne (l : List (Nat × BitVec w)) {a b : Nat} (v : BitVec w) (h : b ≠ a) : get (put l a v) b = get l b := by
  unfold put
  split
  · exact get_del_ne l h
  · rw [get_ins_ne h, get_del_ne l h]

end Sparse

namespace State

variable (s : State)

/-! ## Memory -/

theorem reset_memory_wf : Memory.wf reset.mem = true := rfl

theorem wrByte_wf (a : Nat) (b : Byte) (h : Sparse.wf s.mem = true) : Sparse.wf (s.wrByte a b).mem = true := by
  unfold wrByte
  split
  · exact Sparse.wf_put a b h
  · exact h

theorem wrBytes_wf (bs : Bytes) : ∀ (s : State) (a : Nat), Sparse.wf s.mem = true → Sparse.wf (wrBytes s a bs).mem = true := by
  induction bs with
  | nil => exact fun _ _ h => h
  | cons b bs ih => exact fun s a h => ih _ _ (s.wrByte_wf a b h)

/-- Every write to memory keeps its canonical form. -/
theorem wr_wf (a : Nat) (bs : Bytes) (h : Sparse.wf s.mem = true) : Sparse.wf (s.wr a bs).mem = true :=
  wrBytes_wf bs s a h

theorem wrLE_wf (a n x : Nat) (h : Sparse.wf s.mem = true) : Sparse.wf (s.wrLE a n x).mem = true :=
  s.wr_wf a _ h

/-- Every write to a register keeps the canonical form of the register file. -/
theorem setReg_wf (a : Nat) (v : BitVec 32) (h : Sparse.wf s.regs = true) : Sparse.wf (s.setReg a v).regs = true :=
  Sparse.wf_put a v h

/-- A unit's reset keeps the canonical form of the register file. -/
theorem resetUnitRegs_wf (u : Nat) (h : Sparse.wf s.regs = true) : Sparse.wf (s.resetUnitRegs u) = true :=
  Sparse.wf_foldl_put _ (Sparse.wf_foldl_put _ (Sparse.wf_filter _ h))

theorem rdByte_wrByte_self (a : Nat) (b : Byte) (h : s.writable a = true) : (s.wrByte a b).rdByte a = b := by
  simp [wrByte, h, rdByte]

theorem rdByte_wrByte_ne {a c : Nat} (b : Byte) (h : c ≠ a) : (s.wrByte a b).rdByte c = s.rdByte c := by
  unfold wrByte
  split
  · exact Sparse.get_put_ne s.mem b h
  · rfl

theorem wrByte_writable (a : Nat) (b : Byte) (c : Nat) : (s.wrByte a b).writable c = s.writable c := by
  unfold wrByte
  split <;> rfl

/-- A write leaves every byte outside what it covers alone. -/
theorem rdByte_wrBytes_outside (bs : Bytes) : ∀ (s : State) (a c : Nat), (c < a ∨ a + bs.length ≤ c) →
    (wrBytes s a bs).rdByte c = s.rdByte c := by
  induction bs with
  | nil => exact fun _ _ _ _ => rfl
  | cons b bs ih =>
    intro s a c h
    simp only [List.length_cons] at h
    rw [wrBytes, ih _ _ _ (by omega), s.rdByte_wrByte_ne b (by omega)]

theorem rdByte_wr_outside (a c : Nat) (bs : Bytes) (h : c < a ∨ a + bs.length ≤ c) : (s.wr a bs).rdByte c = s.rdByte c :=
  rdByte_wrBytes_outside bs s a c h

/-- A write that memory takes stores its bytes in rising order. -/
theorem rdByte_wrBytes_inside (bs : Bytes) : ∀ (s : State) (a i : Nat), i < bs.length →
    (∀ k, k < bs.length → s.writable (a + k) = true) → (wrBytes s a bs).rdByte (a + i) = bs.getD i 0 := by
  induction bs with
  | nil => intro s a i h; simp at h
  | cons b bs ih =>
    intro s a i h hw
    simp only [List.length_cons] at h hw
    rw [wrBytes]
    cases i with
    | zero =>
      rw [rdByte_wrBytes_outside bs _ _ _ (by omega)]
      exact s.rdByte_wrByte_self a b (hw 0 (by omega))
    | succ i =>
      have e : a + (i + 1) = a + 1 + i := by omega
      rw [e, ih _ _ _ (by omega) (fun k hk => by
        rw [wrByte_writable]
        have := hw (k + 1) (by omega)
        rwa [show a + 1 + k = a + (k + 1) by omega])]
      simp

/-! ## Registers -/

@[simp] theorem reg_setReg_self (a : Nat) (v : BitVec 32) : (s.setReg a v).reg a = v := by
  simp [setReg, reg]

theorem reg_setReg_ne {a b : Nat} (v : BitVec 32) (h : b ≠ a) : (s.setReg a v).reg b = s.reg b :=
  Sparse.get_put_ne s.regs v h

end State

end Sys2Proof.Machine
end

