-- ==== Sys2Proof/Laws/Time.lean ====
section
/-! SUPPORT. What the clock's running on leaves alone: every reading that does not look at the time. -/

namespace Sys2Proof.Machine.State

variable (s : State) (t : Nat)

@[simp] theorem at_reg_eq (a : Nat) : (s.at_ t).reg a = s.reg a := by
  unfold at_ tick; split <;> rfl

@[simp] theorem at_rfld_eq (a lo n : Nat) : (s.at_ t).rfld a lo n = s.rfld a lo n := by
  unfold at_ tick; split <;> rfl

@[simp] theorem at_rbit_eq (a i : Nat) : (s.at_ t).rbit a i = s.rbit a i := by
  unfold at_ tick; split <;> rfl

@[simp] theorem at_rd_eq (a n : Nat) : (s.at_ t).rd a n = s.rd a n := by
  unfold at_ tick; split <;> rfl

@[simp] theorem at_rdByte_eq (a : Nat) : (s.at_ t).rdByte a = s.rdByte a := by
  unfold at_ tick; split <;> rfl

@[simp] theorem at_ctx_eq (c : Nat) : (s.at_ t).ctx c = s.ctx c := by
  unfold at_ tick; split <;> rfl

@[simp] theorem at_stream_eq (x : Nat) : (s.at_ t).stream x = s.stream x := by
  unfold at_ tick; split <;> rfl

@[simp] theorem at_ridge_eq (i : Nat) : (s.at_ t).ridge i = s.ridge i := by
  unfold at_ tick; split <;> rfl

@[simp] theorem at_joblink_eq (l : Nat) : (s.at_ t).joblink l = s.joblink l := by
  unfold at_ tick; split <;> rfl

@[simp] theorem at_headlink_eq (l : Nat) : (s.at_ t).headlink l = s.headlink l := by
  unfold at_ tick; split <;> rfl

@[simp] theorem at_axis_eq (a : Nat) : (s.at_ t).axis a = s.axis a := by
  unfold at_ tick; split <;> rfl

@[simp] theorem at_posu_eq (u : Nat) : (s.at_ t).posu u = s.posu u := by
  unfold at_ tick; split <;> rfl

@[simp] theorem at_stepper_eq (m : Nat) : (s.at_ t).stepper m = s.stepper m := by
  unfold at_ tick; split <;> rfl

@[simp] theorem at_chan_eq (c : Nat) : (s.at_ t).chan c = s.chan c := by
  unfold at_ tick; split <;> rfl

@[simp] theorem at_cvu_eq (u : Nat) : (s.at_ t).cvu u = s.cvu u := by
  unfold at_ tick; split <;> rfl

@[simp] theorem at_pipe_eq (p : Nat) : (s.at_ t).pipe p = s.pipe p := by
  unfold at_ tick; split <;> rfl

@[simp] theorem at_link_eq (k : LinkId) : (s.at_ t).link k = s.link k := by
  unfold at_ tick; split <;> rfl

@[simp] theorem at_trigger_eq (k : Nat) : (s.at_ t).trigger k = s.trigger k := by
  unfold at_ tick; split <;> rfl

@[simp] theorem at_isX_eq : (s.at_ t).isX = s.isX := by
  unfold at_ tick; split <;> rfl

@[simp] theorem at_hasAxis_eq : (s.at_ t).hasAxis = s.hasAxis := by
  unfold at_ tick; split <;> rfl

@[simp] theorem at_ridgeCount_eq : (s.at_ t).ridgeCount = s.ridgeCount := by
  unfold at_ tick; split <;> rfl

@[simp] theorem at_unitPresent_eq (u : Nat) : (s.at_ t).unitPresent u = s.unitPresent u := by
  unfold at_ tick; split <;> rfl

@[simp] theorem at_super_eq : (s.at_ t).super = s.super := by
  unfold at_ tick; split <;> rfl

@[simp] theorem at_running_eq : (s.at_ t).running = s.running := by
  unfold at_ tick; split <;> rfl

@[simp] theorem at_owns_eq : (s.at_ t).owns = s.owns := by
  unfold at_ tick; split <;> rfl

@[simp] theorem at_follows_eq : (s.at_ t).follows = s.follows := by
  unfold at_ tick; split <;> rfl

@[simp] theorem at_permitted_eq : (s.at_ t).permitted = s.permitted := by
  unfold at_ tick; split <;> rfl

@[simp] theorem at_isLead_eq : (s.at_ t).isLead = s.isLead := by
  unfold at_ tick; split <;> rfl

@[simp] theorem at_isMember_eq : (s.at_ t).isMember = s.isMember := by
  unfold at_ tick; split <;> rfl

@[simp] theorem at_linkActive_eq (k : LinkId) : (s.at_ t).linkActive k = s.linkActive k := by
  unfold at_ tick; split <;> rfl

@[simp] theorem at_lanesRun_eq : (s.at_ t).lanesRun = s.lanesRun := by
  unfold at_ tick; split <;> rfl

@[simp] theorem at_homingNow_eq : (s.at_ t).homingNow = s.homingNow := by
  unfold at_ tick; split <;> rfl

@[simp] theorem at_planOf_eq (layer swath : Nat) : (s.at_ t).planOf layer swath = s.planOf layer swath := by
  unfold at_ tick; split <;> rfl

@[simp] theorem at_headDirective_eq (x : Nat) : (s.at_ t).headDirective x = s.headDirective x := by
  unfold at_ tick; split <;> rfl

@[simp] theorem at_stallsNow_eq (typ : Nat) (raw : Bytes) : (s.at_ t).stallsNow typ raw = s.stallsNow typ raw := by
  unfold at_ tick; split <;> rfl

@[simp] theorem at_plans_eq : (s.at_ t).plans = s.plans := by
  unfold at_ tick; split <;> rfl

@[simp] theorem at_posPresent_eq (u : Nat) : (s.at_ t).posPresent u = s.posPresent u := by
  unfold at_ tick; split <;> rfl

@[simp] theorem at_etherUp_eq : (s.at_ t).etherUp = s.etherUp := by
  unfold at_ tick; split <;> rfl

@[simp] theorem at_portPipe_eq (p : Nat) : (s.at_ t).portPipe p = s.portPipe p := by
  unfold at_ tick; split <;> rfl

@[simp] theorem at_statusUsed_eq (k : Nat) (portB : Bool) : (s.at_ t).statusUsed k portB = s.statusUsed k portB := by
  unfold at_ tick; split <;> rfl

@[simp] theorem at_strobePlan_eq : (s.at_ t).strobePlan = s.strobePlan := by
  unfold at_ tick; split <;> rfl

@[simp] theorem at_switchOf_eq (k : Nat) : (s.at_ t).switchOf k = s.switchOf k := by
  unfold at_ tick; split <;> rfl

@[simp] theorem at_homeStat_eq (a : Nat) : (s.at_ t).homeStat a = s.homeStat a := by
  unfold at_ tick; split <;> rfl

end Sys2Proof.Machine.State
end

