-- ==== Sys2Proof/WellFormed.lean ====
section
/-! DEFINITION. Which commands name things the module has: contexts 1 to 63, pairs, links, rows, channels and so on
(the index ranges of the register maps). -/

namespace Sys2Proof

/-- Contexts are 1 to 63; 0 is the module itself (00_scope.md, Conventions). -/
def isContext (x : Nat) : Bool := 1 ≤ x && x < 64

/-- The links of R422. -/
def LinkId.wf : LinkId → Bool
  | .head l => l < 16
  | .job l => l < 4
  | .twin => true
  | .cup => true
  | .cdn => true

/-- A command whose operands lie in the ranges of the spec. -/
def Instr.wellFormed : Instr → Bool
  | .powerUp _ _ => true
  | .rstNLow => true
  | .modEnLow => true
  | .presentNRise => true
  | .rpllLock => true
  | .rpllLockTimeout => true
  | .lbistDone _ _ _ => true
  | .mbistDone _ => true
  | .dramInitDone _ _ => true
  | .imageVerified _ _ _ => true
  | .keysLoaded => true
  | .loadDone => true
  | .calDone _ => true
  | .lanesDone => true
  | .lanesTimeout => true
  | .vmonEvent => true
  | .clkMonEvent => true
  | .rpllUnlock => true
  | .dieHot _ => true
  | .faultMessage src kind ctx _ => src < 1024 && kind < 64 && ctx < 64
  | .fcoErrclr _ => true
  | .fcoInject _ => true
  | .fcoLogTail _ => true
  | .interlockDemand pair _ _ => pair < 4
  | .interlockPermit pair _ _ => pair < 4
  | .discrepancy pair _ => pair < 4
  | .gateRb => true
  | .safXchk => true
  | .safRearm _ _ => true
  | .bistSliceDone kind _ => kind < 3
  | .bistBudgetCut kind => kind < 3
  | .jobDataFrame l _ _ _ => l < 4
  | .jobIdleAck l _ _ => l < 4
  | .jobRetxTimeout l => l < 4
  | .jobIdleDue l => l < 4
  | .jobLinkSilent l => l < 4
  | .segment l _ => l < 4
  | .segmentStored x => isContext x
  | .screeAck l _ => l < 4
  | .retry l x => l < 4 && isContext x
  | .resume l x _ _ => l < 4 && isContext x
  | .abort l x => l < 4 && isContext x
  | .closedStatusRepeat => true
  | .jobTxq w _ => isContext w
  | .jobFree x buf => isContext x && buf < 64
  | .jobHalt x => isContext x
  | .jobOpen x => isContext x
  | .jobClose x => isContext x
  | .segmentAccept x _ => isContext x
  | .binding x => isContext x
  | .geomEnd x => isContext x
  | .cairn x => isContext x
  | .cairnAck x => isContext x
  | .home x => isContext x
  | .layerBegin x => isContext x
  | .swath x => isContext x
  | .layerEnd x => isContext x
  | .park x => isContext x
  | .waitDirective x => isContext x
  | .waitTimeout x _ => isContext x
  | .directiveStallRelease x => isContext x
  | .bankLoad x => isContext x
  | .waveLoad x => isContext x
  | .maskLoad x => isContext x
  | .curveLoad x => isContext x
  | .modeBankSel x => isContext x
  | .modeRowmap x => isContext x
  | .modeMaskSel x => isContext x
  | .modeHalftone x => isContext x
  | .region x => isContext x
  | .rdgPost w _ => isContext w
  | .rdgRetry w x => isContext w && isContext x
  | .rdgRetryAbandon w x => isContext w && isContext x
  | .bandFetchDone ridge => ridge < 16
  | .slicePosted ridge => ridge < 16
  | .haloValue ridge _ row => ridge < 16 && row < 16
  | .transmitPoint _ => true
  | .lineTake => true
  | .crnLwCtrl w x _ => isContext w && isContext x
  | .carriageInPlace _ => true
  | .gateEdge row _ => row < 16
  | .testWindowsClosed _ => true
  | .holdTimeout => true
  | .actEditMask idx _ => idx < 1048576
  | .actEditUnmask idx _ => idx < 1048576
  | .actEditRevive idx _ => idx < 1048576
  | .actEditDgain idx _ => idx < 1048576
  | .actEditFdelay idx _ => idx < 1048576
  | .fireAck l _ _ => l < 16
  | .fireAckTimeout l _ => l < 16
  | .voidAck l _ _ _ _ => l < 16
  | .orderAck l _ _ _ => l < 16
  | .temp l _ _ => l < 16
  | .nozzleFault l _ _ => l < 16
  | .driverFault l _ _ _ _ => l < 16
  | .testDone l _ _ _ => l < 16
  | .decisionCrossing _ _ => true
  | .strobeEdge row _ _ => row < 16
  | .skipWindowEnd _ => true
  | .servoTick _ => true
  | .axpDriveFrame port _ => port < 2
  | .plnLimitWrite w axis which _ => isContext w && axis < 4 && which < 3
  | .plnEdit w _ => isContext w
  | .axisMoveDone axis _ => axis < 4
  | .colStart _ => true
  | .firingSpanStart _ => true
  | .quadEdge u _ _ _ => u < 4
  | .amplitude u _ => u < 4
  | .ssiRead u _ _ _ => u < 4
  | .probeEdge u _ _ => u < 4
  | .posCmpArm u _ _ => u < 4
  | .compareFire u _ => u < 4
  | .comparePulseEnd u _ => u < 4
  | .stepEdge m _ => m < 2
  | .stall m _ => m < 2
  | .stepperHoldCurrent m _ => m < 2
  | .axisRecordWrite a _ => a < 4
  | .switchChange k _ => k < 8
  | .switchChatter k _ => k < 8
  | .switchRecover k => k < 8
  | .tpeerSilent _ => true
  | .twinWaitExpiry => true
  | .twinIdleAck _ => true
  | .twinRetxTimeout => true
  | .twinLinkLost => true
  | .twinRole _ _ _ _ _ _ _ => true
  | .twinSegment _ x link _ _ _ _ => isContext x && link < 4
  | .twinCrc _ _ ridge _ _ => ridge < 16
  | .shadowValue ridge _ _ => ridge < 16
  | .twinOutcome _ x _ _ _ _ => isContext x
  | .twinTxrec _ _ => true
  | .twinScree _ _ => true
  | .twinActrec _ _ => true
  | .twinAxis _ _ _ _ => true
  | .twinLinkmsg _ link _ => link < 4
  | .twinTime _ _ _ _ _ => true
  | .twinTimeSend _ => true
  | .twinWrite _ _ _ => true
  | .twinCascade _ _ _ => true
  | .twinSync _ _ _ _ _ _ => true
  | .twinTiebreak _ _ ridge _ _ _ => ridge < 16
  | .tiebreakCheck _ ridge _ => ridge < 16
  | .twinHandover _ _ _ => true
  | .twnCmdRetire w => isContext w
  | .twnCmdHandover w => isContext w
  | .syncTimeout => true
  | .cscJoin _ _ _ _ axis _ => axis < 4
  | .cscAccept _ _ _ => true
  | .cscTime _ _ _ _ _ _ => true
  | .cscPlan _ _ => true
  | .cscEdit _ _ => true
  | .cscMode _ _ _ _ => true
  | .cscAxis _ _ _ _ => true
  | .cscCol _ _ _ => true
  | .cscSwgate _ _ _ => true
  | .cscState _ _ _ => true
  | .cscReport _ _ _ _ _ => true
  | .cscHb _ _ => true
  | .leadLost => true
  | .cscLost _ => true
  | .joinRetry => true
  | .dispatch => true
  | .quantumExpiry pair => pair < 4
  | .preempt => true
  | .nmiTaken => true
  | .timerExpiry c _ => isContext c
  | .contextWatchdog c => isContext c
  | .supWatchdog => true
  | .lockstepFail pair => pair < 4
  | .accessTimeout c => isContext c
  | .ccmdHalt x => isContext x
  | .ccmdResume x => isContext x
  | .ccmdRestart x => isContext x
  | .ccmdPrio x prio => isContext x && prio < 8
  | .add c _ _ _ => isContext c
  | .sub c _ _ _ => isContext c
  | .and c _ _ _ => isContext c
  | .or c _ _ _ => isContext c
  | .xor c _ _ _ => isContext c
  | .shl c _ _ _ => isContext c
  | .shr c _ _ _ => isContext c
  | .sar c _ _ _ => isContext c
  | .mul c _ _ _ => isContext c
  | .mulhu c _ _ _ => isContext c
  | .mulhs c _ _ _ => isContext c
  | .divu c _ _ _ => isContext c
  | .divs c _ _ _ => isContext c
  | .remu c _ _ _ => isContext c
  | .cmp c _ _ => isContext c
  | .tst c _ _ => isContext c
  | .addi c _ _ _ => isContext c
  | .andi c _ _ _ => isContext c
  | .ori c _ _ _ => isContext c
  | .xori c _ _ _ => isContext c
  | .shli c _ _ _ => isContext c
  | .shri c _ _ _ => isContext c
  | .sari c _ _ _ => isContext c
  | .cmpi c _ _ => isContext c
  | .kset c _ _ => isContext c
  | .kapp c _ _ => isContext c
  | .ldb c _ _ _ => isContext c
  | .ldh c _ _ _ => isContext c
  | .ldw c _ _ _ => isContext c
  | .ldd c _ _ _ => isContext c
  | .ldbs c _ _ _ => isContext c
  | .ldhs c _ _ _ => isContext c
  | .ldws c _ _ _ => isContext c
  | .stb c _ _ _ => isContext c
  | .sth c _ _ _ => isContext c
  | .stw c _ _ _ => isContext c
  | .std c _ _ _ => isContext c
  | .cas c _ _ _ => isContext c
  | .ldm c _ _ _ => isContext c
  | .stm c _ _ _ => isContext c
  | .bcopy c _ _ _ => isContext c
  | .bfill c _ _ _ => isContext c
  | .b c _ _ => isContext c
  | .bl c _ => isContext c
  | .jr c _ => isContext c
  | .jlr c _ _ => isContext c
  | .wait c _ _ => isContext c
  | .poll c _ _ => isContext c
  | .signal c _ => isContext c
  | .settmr c _ => isContext c
  | .yield c => isContext c
  | .halt c => isContext c
  | .tret c => isContext c
  | .tretNmi c => isContext c
  | .rdsr c _ sr => isContext c && sr < 64
  | .wrsr c _ sr => isContext c && sr < 64
  | .wdog c => isContext c
  | .nop c => isContext c
  | .xltInval w _ => isContext w
  | .xltInvalAll w => isContext w
  | .xltResume w slot => isContext w && slot < 36
  | .xltResumeAbandon w slot => isContext w && slot < 36
  | .scrubGo => true
  | .scrubLine _ => true
  | .refresh ch => ch < 4
  | .dramTempRead ch _ => ch < 4
  | .selfRefreshEntry ch => ch < 4
  | .selfRefreshExit ch => ch < 4
  | .requestPromotion ch => ch < 4
  | .channelFail ch => ch < 4
  | .dmaGo w ch => isContext w && ch < 32
  | .dmaStop w ch => isContext w && ch < 32
  | .descriptorFetch ch => ch < 32
  | .dmaCopy ch => ch < 32
  | .dmaFill ch => ch < 32
  | .dmaCompare ch => ch < 32
  | .dmaDecrypt ch => ch < 32
  | .dmaInflate ch => ch < 32
  | .dmaDeflate ch => ch < 32
  | .dmaBeat ch => ch < 32
  | .descriptorComplete ch => ch < 32
  | .dmaXfHoldExpiry ch => ch < 32
  | .cvuGo w u _ => isContext w && u < 4
  | .cvuPassDone u => u < 4
  | .cvuXfHoldExpiry u => u < 4
  | .cryClear _ => true
  | .linkEnable k => k.wf
  | .linkDisable k => k.wf
  | .detectRetry k _ => k.wf
  | .trnReceived k stateField => k.wf && stateField < 8
  | .trainTimeout k => k.wf
  | .capxReceived k _ => k.wf
  | .eyeWindow k lane _ e => k.wf && lane < 89 && e.idle ≤ 65536
  | .deskewError k => k.wf
  | .lossOfSignal k => k.wf
  | .failedRetry k => k.wf
  | .linkDown k => k.wf
  | .blindStartActive k => k.wf
  | .ethRxFrame _ _ _ => true
  | .ethTxdb w idx => isContext w && idx < 16
  | .ethTxDone _ => true
  | .ethLinkLoss => true
  | .timIncWrite w _ => isContext w
  | .timAdjSlew w _ => isContext w
  | .timAdjStep w _ => isContext w
  | .ptpHoldover _ => true
  | .triggerArm w k _ _ => isContext w && k < 4
  | .triggerEdge k _ => k < 4
  | .csiFrameStart port _ => port < 2
  | .csiLongPacket port _ => port < 2
  | .csiFrameEnd port => port < 2
  | .camStatsRecord p => p < 2
  | .camCommit w p => isContext w && p < 2
  | .converterRotation _ _ _ => true
  | .converterHandover _ _ => true
  | .delayLineCal line _ _ => line < 18
  | .terminationCal lane _ _ => lane < 88
  | .obsIdent => true
  | .obsBoot => true
  | .obsRead _ _ => true
  | .obsRetain _ _ => true
  | .obsSnap => true
  | .obsWriteTry _ => true
  | .obsCsRise => true
  | .traceLostSend => true
  | .regWrite w addr _ => isContext w && Config.controlBase ≤ addr && addr < Config.controlEnd && addr % 4 = 0
  | .twinIdleDue => true
  | .cscIdleAck _ => true
  | .cscRetxTimeout _ => true
  | .cscIdleDue _ => true
  | .cscLinkSilent _ => true
  | .sincosSample u _ _ _ => u < 4
  | .ethAnDone _ => true
  | .illegalInstruction c _ => isContext c
  | .obsBadcmd _ => true
  | .tdeltaExceeded _ _ _ => true

end Sys2Proof
end

