-- ==== Sys2Proof/Tests/Slice0.lean ====
section
/-! SUPPORT. Tests: what is not well formed, a few results taken from the spec, and for every statement a state and operands that
meet its hypotheses. -/

open Sys2Proof Sys2Proof.Machine

namespace Sys2Proof.Tests

/-! ## Small states -/

/-- A module in phase `p` whose clocks run. -/
def inPhase (p : Nat) : State :=
  { State.reset with boot := { State.reset.boot with phase := p }, clk := { State.reset.clk with released := true } }

/-- A module in READY that runs alone and owns the outputs. -/
def alone : State := { inPhase 13 with twn := { State.reset.twn with role := 1 } }

/-- `s` with link `k` in state `st`. -/
def linkIn (s : State) (k : LinkId) (st : Nat) : State := s.updLink k (fun l => { l with st := st })

/-- `s` in twin role `r`. -/
def inRole (s : State) (r : Nat) : State := { s with twn := { s.twn with role := r } }

def failedState : State := { inPhase 7 with boot := { (inPhase 7).boot with failed := true } }

/-! ## What is not well formed: one ill-formed command for each check -/

set_option maxRecDepth 8000 in
theorem test_ill_formed_00 : ([
  .faultMessage 1024 0 1 0, .faultMessage 1 64 1 0, .faultMessage 1 0 64 0,
  .interlockDemand 4 false 1, .interlockPermit 4 false 1, .discrepancy 4 1,
  .bistSliceDone 3 false, .bistBudgetCut 3, .jobDataFrame 4 ⟨false, false, 0, 0, 0⟩ [] false,
  .jobIdleAck 4 1 1, .jobRetxTimeout 4, .jobIdleDue 4,
  .jobLinkSilent 4, .segment 4 [], .segmentStored 64,
  .segmentStored 0, .screeAck 4 0, .retry 4 1,
  .retry 1 64, .resume 4 1 0 0, .resume 1 64 0 0,
  .abort 4 1, .abort 1 64, .jobTxq 64 0,
  .jobTxq 0 0, .jobFree 64 1, .jobFree 1 64,
  .jobFree 0 1, .jobHalt 64, .jobHalt 0,
  .jobOpen 64, .jobOpen 0, .jobClose 64,
  .jobClose 0, .segmentAccept 64 ⟨0, 0, 0, 0, [], [], []⟩, .segmentAccept 0 ⟨0, 0, 0, 0, [], [], []⟩,
  .binding 64, .binding 0, .geomEnd 64] : List Instr).all (fun i => !i.wellFormed) = true := by
  decide

set_option maxRecDepth 8000 in
theorem test_ill_formed_01 : ([
  .geomEnd 0, .cairn 64, .cairn 0,
  .cairnAck 64, .cairnAck 0, .home 64,
  .home 0, .layerBegin 64, .layerBegin 0,
  .swath 64, .swath 0, .layerEnd 64,
  .layerEnd 0, .park 64, .park 0,
  .waitDirective 64, .waitDirective 0, .waitTimeout 64 1,
  .waitTimeout 0 1, .directiveStallRelease 64, .directiveStallRelease 0,
  .bankLoad 64, .bankLoad 0, .waveLoad 64,
  .waveLoad 0, .maskLoad 64, .maskLoad 0,
  .curveLoad 64, .curveLoad 0, .modeBankSel 64,
  .modeBankSel 0, .modeRowmap 64, .modeRowmap 0,
  .modeMaskSel 64, .modeMaskSel 0, .modeHalftone 64,
  .modeHalftone 0, .region 64, .region 0] : List Instr).all (fun i => !i.wellFormed) = true := by
  decide

set_option maxRecDepth 8000 in
theorem test_ill_formed_02 : ([
  .rdgPost 64 0, .rdgPost 0 0, .rdgRetry 64 1,
  .rdgRetry 1 64, .rdgRetry 0 1, .rdgRetryAbandon 64 1,
  .rdgRetryAbandon 1 64, .rdgRetryAbandon 0 1, .bandFetchDone 16,
  .slicePosted 16, .haloValue 16 false 1, .haloValue 1 false 16,
  .crnLwCtrl 64 1 0, .crnLwCtrl 1 64 0, .crnLwCtrl 0 1 0,
  .gateEdge 16 1, .actEditMask 1048576 0, .actEditUnmask 1048576 0,
  .actEditRevive 1048576 0, .actEditDgain 1048576 0, .actEditFdelay 1048576 0,
  .fireAck 16 ⟨false, true⟩ [], .fireAckTimeout 16 1, .voidAck 16 ⟨false, true⟩ 1 0 0,
  .orderAck 16 ⟨false, true⟩ 1 1, .temp 16 ⟨false, true⟩ [], .nozzleFault 16 ⟨false, true⟩ [],
  .driverFault 16 ⟨false, true⟩ 1 0 1, .testDone 16 ⟨false, true⟩ 1 1, .strobeEdge 16 0 1,
  .axpDriveFrame 2 [], .plnLimitWrite 64 0 0 0, .plnLimitWrite 1 4 0 0,
  .plnLimitWrite 1 0 3 0, .plnLimitWrite 0 0 0 0, .plnEdit 64 0,
  .plnEdit 0 0, .axisMoveDone 4 1, .quadEdge 4 false false 1] : List Instr).all (fun i => !i.wellFormed) = true := by
  decide

set_option maxRecDepth 8000 in
theorem test_ill_formed_03 : ([
  .amplitude 4 [], .ssiRead 4 1 false 1, .probeEdge 4 false 1,
  .posCmpArm 4 0 1, .compareFire 4 1, .comparePulseEnd 4 1,
  .stepEdge 2 false, .stall 2 0, .stepperHoldCurrent 2 1,
  .axisRecordWrite 4 1, .switchChange 8 false, .switchChatter 8 1,
  .switchRecover 8, .twinSegment ⟨0, 0, true⟩ 64 1 1 1 1 [], .twinSegment ⟨0, 0, true⟩ 1 4 1 1 1 [],
  .twinSegment ⟨0, 0, true⟩ 0 1 1 1 1 [], .twinCrc ⟨0, 0, true⟩ ⟨0, 0, 0⟩ 16 1 0, .shadowValue 16 ⟨0, 0, 0⟩ none,
  .twinOutcome ⟨0, 0, true⟩ 64 1 1 1 1, .twinOutcome ⟨0, 0, true⟩ 0 1 1 1 1, .twinLinkmsg ⟨0, 0, true⟩ 4 [],
  .twinTiebreak ⟨0, 0, true⟩ ⟨0, 0, 0⟩ 16 1 0 1, .tiebreakCheck ⟨0, 0, 0⟩ 16 none, .twnCmdRetire 64,
  .twnCmdRetire 0, .twnCmdHandover 64, .twnCmdHandover 0,
  .cscJoin ⟨false, 0, 0, 0, 0, true⟩ 1 1 1 4 0, .quantumExpiry 4, .timerExpiry 64 1,
  .timerExpiry 0 1, .contextWatchdog 64, .contextWatchdog 0,
  .lockstepFail 4, .accessTimeout 64, .accessTimeout 0,
  .ccmdHalt 64, .ccmdHalt 0, .ccmdResume 64] : List Instr).all (fun i => !i.wellFormed) = true := by
  decide

set_option maxRecDepth 8000 in
theorem test_ill_formed_04 : ([
  .ccmdResume 0, .ccmdRestart 64, .ccmdRestart 0,
  .ccmdPrio 64 1, .ccmdPrio 1 8, .ccmdPrio 0 1,
  .add 64 0 0 0, .add 0 0 0 0, .sub 64 0 0 0,
  .sub 0 0 0 0, .and 64 0 0 0, .and 0 0 0 0,
  .or 64 0 0 0, .or 0 0 0 0, .xor 64 0 0 0,
  .xor 0 0 0 0, .shl 64 0 0 0, .shl 0 0 0 0,
  .shr 64 0 0 0, .shr 0 0 0 0, .sar 64 0 0 0,
  .sar 0 0 0 0, .mul 64 0 0 0, .mul 0 0 0 0,
  .mulhu 64 0 0 0, .mulhu 0 0 0 0, .mulhs 64 0 0 0,
  .mulhs 0 0 0 0, .divu 64 0 0 0, .divu 0 0 0 0,
  .divs 64 0 0 0, .divs 0 0 0 0, .remu 64 0 0 0,
  .remu 0 0 0 0, .cmp 64 0 0, .cmp 0 0 0,
  .tst 64 0 0, .tst 0 0 0, .addi 64 0 0 0] : List Instr).all (fun i => !i.wellFormed) = true := by
  decide

set_option maxRecDepth 8000 in
theorem test_ill_formed_05 : ([
  .addi 0 0 0 0, .andi 64 0 0 0, .andi 0 0 0 0,
  .ori 64 0 0 0, .ori 0 0 0 0, .xori 64 0 0 0,
  .xori 0 0 0 0, .shli 64 0 0 0, .shli 0 0 0 0,
  .shri 64 0 0 0, .shri 0 0 0 0, .sari 64 0 0 0,
  .sari 0 0 0 0, .cmpi 64 0 0, .cmpi 0 0 0,
  .kset 64 0 0, .kset 0 0 0, .kapp 64 0 0,
  .kapp 0 0 0, .ldb 64 0 0 0, .ldb 0 0 0 0,
  .ldh 64 0 0 0, .ldh 0 0 0 0, .ldw 64 0 0 0,
  .ldw 0 0 0 0, .ldd 64 0 0 0, .ldd 0 0 0 0,
  .ldbs 64 0 0 0, .ldbs 0 0 0 0, .ldhs 64 0 0 0,
  .ldhs 0 0 0 0, .ldws 64 0 0 0, .ldws 0 0 0 0,
  .stb 64 0 0 0, .stb 0 0 0 0, .sth 64 0 0 0,
  .sth 0 0 0 0, .stw 64 0 0 0, .stw 0 0 0 0] : List Instr).all (fun i => !i.wellFormed) = true := by
  decide

set_option maxRecDepth 8000 in
theorem test_ill_formed_06 : ([
  .std 64 0 0 0, .std 0 0 0 0, .cas 64 0 0 0,
  .cas 0 0 0 0, .ldm 64 0 0 0, .ldm 0 0 0 0,
  .stm 64 0 0 0, .stm 0 0 0 0, .bcopy 64 0 0 0,
  .bcopy 0 0 0 0, .bfill 64 0 0 0, .bfill 0 0 0 0,
  .b 64 0 0, .b 0 0 0, .bl 64 0,
  .bl 0 0, .jr 64 0, .jr 0 0,
  .jlr 64 0 0, .jlr 0 0 0, .wait 64 0 0,
  .wait 0 0 0, .poll 64 0 0, .poll 0 0 0,
  .signal 64 0, .signal 0 0, .settmr 64 0,
  .settmr 0 0, .yield 64, .yield 0,
  .halt 64, .halt 0, .tret 64,
  .tret 0, .tretNmi 64, .tretNmi 0,
  .rdsr 64 0 1, .rdsr 1 0 64, .rdsr 0 0 1] : List Instr).all (fun i => !i.wellFormed) = true := by
  decide

set_option maxRecDepth 8000 in
theorem test_ill_formed_07 : ([
  .wrsr 64 0 1, .wrsr 1 0 64, .wrsr 0 0 1,
  .wdog 64, .wdog 0, .nop 64,
  .nop 0, .xltInval 64 0, .xltInval 0 0,
  .xltInvalAll 64, .xltInvalAll 0, .xltResume 64 1,
  .xltResume 1 36, .xltResume 0 1, .xltResumeAbandon 64 1,
  .xltResumeAbandon 1 36, .xltResumeAbandon 0 1, .refresh 4,
  .dramTempRead 4 0, .selfRefreshEntry 4, .selfRefreshExit 4,
  .requestPromotion 4, .channelFail 4, .dmaGo 64 1,
  .dmaGo 1 32, .dmaGo 0 1, .dmaStop 64 1,
  .dmaStop 1 32, .dmaStop 0 1, .descriptorFetch 32,
  .dmaCopy 32, .dmaFill 32, .dmaCompare 32,
  .dmaDecrypt 32, .dmaInflate 32, .dmaDeflate 32,
  .dmaBeat 32, .descriptorComplete 32, .dmaXfHoldExpiry 32] : List Instr).all (fun i => !i.wellFormed) = true := by
  decide

set_option maxRecDepth 8000 in
theorem test_ill_formed_08 : ([
  .cvuGo 64 0 0, .cvuGo 1 4 0, .cvuGo 0 0 0,
  .cvuPassDone 4, .cvuXfHoldExpiry 4, .linkEnable (.job 4),
  .linkDisable (.job 4), .detectRetry (.job 4) false, .trnReceived (.job 4) 1,
  .trnReceived .twin 8, .trainTimeout (.job 4), .capxReceived (.job 4) [],
  .eyeWindow (.job 4) 1 1 ⟨1, 0⟩, .eyeWindow .twin 89 1 ⟨1, 0⟩, .eyeWindow .twin 1 1 ⟨1, 65537⟩, .deskewError (.job 4),
  .lossOfSignal (.job 4), .failedRetry (.job 4), .linkDown (.job 4),
  .blindStartActive (.job 4), .ethTxdb 64 1, .ethTxdb 1 16,
  .ethTxdb 0 1, .timIncWrite 64 0, .timIncWrite 0 0,
  .timAdjSlew 64 0, .timAdjSlew 0 0, .timAdjStep 64 0,
  .timAdjStep 0 0, .triggerArm 64 0 0 1, .triggerArm 1 4 0 1,
  .triggerArm 0 0 0 1, .triggerEdge 4 1, .csiFrameStart 2 1,
  .csiLongPacket 2 ⟨0, 0, 0, [], 0, true⟩, .csiFrameEnd 2, .camStatsRecord 2,
  .camCommit 64 0, .camCommit 1 2, .camCommit 0 0] : List Instr).all (fun i => !i.wellFormed) = true := by
  decide

set_option maxRecDepth 8000 in
theorem test_ill_formed_09 : ([
  .delayLineCal 18 1 [], .terminationCal 88 1 ⟨[], []⟩, .regWrite 64 0x5000000000 0,
  .regWrite 1 0x4FFFFFFFFC 0, .regWrite 1 Config.controlEnd 0, .regWrite 1 0x5000000001 0,
  .regWrite 0 0x5000000000 0, .sincosSample 4 0 0 1, .illegalInstruction 64 0,
  .illegalInstruction 0 0] : List Instr).all (fun i => !i.wellFormed) = true := by
  decide


/-! ## Results taken from the spec -/

set_option maxRecDepth 20000 in
/-- R1: a module right after reset is in RESET with no command waiting. -/
theorem test_reset_phase : State.reset.boot.phase = 0 ∧ State.reset.pending = [] := by decide

set_option maxRecDepth 20000 in
/-- Well-formed commands at the ends of their ranges are well formed. -/
theorem test_well_formed : ([.interlockDemand 3 false 1, .jobTxq 63 0xFFFFFFFF, .addi 63 15 15 0x3FFFF, .triggerEdge 3 0] : List Instr).all
    (fun i => i.wellFormed) = true := by decide

set_option maxRecDepth 20000 in
/-- Chapter 18, example of line 9: tap 7 is skipped, so position 7 takes tap 8 and position 8 tap 9. -/
theorem test_line_taps : (lineTaps [71, 148, 215, 290, 362, 437, 505, 579, 650]).take 9 = [0, 1, 2, 3, 4, 5, 6, 8, 9] := by decide

set_option maxRecDepth 20000 in
/-- Chapter 12, example of the bound: 1 MiB of input needs OUTMAX 1,048,667. -/
theorem test_deflate_bound : deflateBound false 1048576 = 1048667 := by decide

set_option maxRecDepth 20000 in
/-- Chapter 13, example: the increment 0x4_FFFF_F0E7 is in range. -/
theorem test_increment_in_range : State.incFits 0x4FFFFF0E7 = true := by decide

/-- The grid of the example of chapter 2 with the limits of chapter 15's. -/
def exampleGrid : State :=
  { State.reset with dose := { State.reset.dose with grid := { State.reset.dose.grid with pitch := 2774357, origin := 0x4B00000, maxInterval := 84667 } } }

set_option maxRecDepth 20000 in
/-- Chapter 15, example: SAF_EDGEMAX of that grid is 2,251 PCLK. -/
theorem test_edge_max : exampleGrid.edgeMax = 2251 := by decide

set_option maxRecDepth 20000 in
/-- Chapter 2, example: line 0 lies at count 1,200, in units of 1/256 count. -/
theorem test_line_zero : exampleGrid.gridPoint 0 = 1200 * 256 := by decide

set_option maxRecDepth 20000 in
/-- R343: a sum past the word wraps, with carry and no overflow; the largest positive number plus 1 overflows. -/
theorem test_add_flags : aluAdd 0xFFFFFFFFFFFFFFFF 1 = { val := 0, z := some true, n := some false, c := some true, v := some false } ∧
    (aluAdd 0x7FFFFFFFFFFFFFFF 1).v = some true := by decide

set_option maxRecDepth 20000 in
/-- R343: a right shift leaves the last bit shifted out in C; an arithmetic one keeps the sign. -/
theorem test_shift : (aluShr 0xC 3).c = some true ∧ (aluSar 0x8000000000000000 63).val = 0xFFFFFFFFFFFFFFFF := by decide


set_option maxRecDepth 20000 in
/-- Chapter 8, example of the run-out: from 2,710,000 counts/s the stop is 77.75 ms on and 52.68 mm ahead (105,351 counts of 0.5 µm). -/
theorem test_run_out : segsTime (velTo 2710000 0 0 40000000 4000000000) = 77750000 ∧
    segsDist (velTo 2710000 0 0 40000000 4000000000) / 256 = 105351 := by decide +kernel

def exampleBank : DoseBank := { highest := 15, entries := (List.range 15).map (fun m => (m + 1, 300 * (m + 1))) }

def exampleHalftone : Halftone := { dither := 1, gain := 8, eshift := 2, phaseA := 0, phaseB := 0 }

set_option maxRecDepth 20000 in
/-- Chapter 4, example of line 18,400: codes 6 and 11, and the errors -64 and 7 carried on. -/
theorem test_halftone :
    halftoneStep exampleBank exampleHalftone (threshold exampleHalftone 0 40900 18400) 1520 12 = (6, -64) ∧
    halftoneStep exampleBank exampleHalftone (threshold exampleHalftone 0 40962 18400) 3340 (-5) = (11, 7) := by decide

/-- The command and the answer of chapter 17's example, but for the CRC-8. -/
def txLines : State := (inPhase 13).setReg Reg.HLK_TXLINES 76864

set_option maxRecDepth 20000 in
/-- Chapter 17, example: the words that READ returns for HLK_TXLINES. -/
theorem test_obs_read : (State.portWords 1 txLines 0x5000130020).2.toOption = some [0x40, 0x2C, 0x01, 0x00] := by decide
/-! ## Witnesses: the block and start-up -/

theorem witness_StepRunsTheFrontCommand : ({ State.reset with pending := [.rstNLow] } : State).pending = .rstNLow :: [] := rfl

theorem witness_IdleStepIsOneTick : State.reset.pending = [] ∧ State.reset.clk.released = false ∧
    (inPhase 13).pending = [] ∧ (inPhase 13).clk.released = true := by decide

theorem witness_EveryStepKeepsTheGateSound : State.reset.sound = true ∧ step State.reset = .next State.reset := ⟨by decide, rfl⟩

theorem witness_FailedModuleIgnoresCommands : failedState.boot.failed = true ∧ actsInFailed .lineTake = false := by decide

def flashTable : Sfdp := { log2Bytes := 24, khz111 := some 50000, khz114 := none, khz144 := none }

set_option maxRecDepth 8000 in
theorem witness_StartupPhasesComplete :
    (inPhase 0).boot.failed = false ∧ (inPhase 0).boot.phase = 0 ∧ (inPhase 1).boot.phase = 1 ∧ (inPhase 2).boot.phase = 2 ∧
    ((inPhase 3).boot.phase = 3 ∧ (inPhase 3).mapElements [] = some (inPhase 3)) ∧ (inPhase 4).boot.phase = 4 ∧
    ((inPhase 5).boot.phase = 5 ∧ (flashMode flashTable).isSome = true) ∧ (inPhase 6).boot.phase = 6 ∧ (inPhase 7).boot.phase = 7 ∧
    (inPhase 8).boot.phase = 8 ∧ (inPhase 9).boot.phase = 9 ∧ (inPhase 9).lateLinks = [] ∧
    ((inPhase 9).setReg (Reg.HLK_LINK 0) 0x08000000).lateLinks ≠ [] := by
  decide

theorem witness_ResetsComplete : State.reset.boot.failed = false ∧ failedState.boot.failed = true := by decide

def goodConv : ConvMeas := { ladder := [], cells := [], gainErr := 0, offset := 0 }

set_option maxRecDepth 8000 in
theorem witness_CalibrationsComplete :
    9 ≤ (inPhase 13).boot.phase ∧ (inPhase 13).boot.failed = false ∧ State.refvFits 12500 = true ∧ ConvMeas.passes goodConv = true ∧
    (inPhase 13).hasAxis = true ∧
    (((inPhase 13).measureRefv 12500).convSpare false).isSome = true ∧
    (((inPhase 13).measureRefv 12500).convSpare true).isSome = true ∧
    (((inPhase 13).setReady false true).convSpare false).isSome = true ∧
    (((inPhase 13).setReady false true).serving false ((inPhase 13).setReady false true |>.nextChannel false)).isSome = true ∧
    ((inPhase 13).setReady false true).cal.encReady = true ∧
    (0 : Int).natAbs ≤ (((inPhase 13).setReady false true).setReady false false).rfld Reg.CAL_CTRL 16 4 ∧
    (16 < (inPhase 13).delayLines ∧ (inPhase 13).lineFree 16 = true) ∧ (inPhase 13).lanePresent 0 = true ∧
    (((inPhase 13).setReg Reg.CRU_TEMP (BitVec.ofNat 32 (uNat 16 900))).elementReg 2 0).isSome = true ∧
    ((inPhase 13).setReg Reg.CRU_TEMP (BitVec.ofNat 32 (uNat 16 900))).rfld Reg.CAL_CTRL 8 8 <
      ((900 : Int) - 10 * sInt 8 (((inPhase 13).setReg Reg.CRU_TEMP (BitVec.ofNat 32 (uNat 16 900))).rfld (Reg.CAL_DLY 0) 24 8)).natAbs := by
  decide

set_option maxRecDepth 8000 in
theorem witness_MonitorsAndCollectorComplete :
    (inPhase 13).clk.released = true ∧ (inPhase 13).boot.failed = false ∧ (inPhase 13).boot.phase ≠ 0 ∧
    ((inPhase 13).boot.hot = false ∧
      (((inPhase 13).setReg Reg.CRU_TEMP (BitVec.ofNat 32 (uNat 16 2000))).rfld Reg.CRU_TLIM 0 12 : Int) < 2000) ∧
    (1 : Nat) < 1024 ∧ (1 : Nat) / 16 ≠ 0x0B ∧ 1 ≠ Src.SAF_CEIL_XCHK ∧ bit (1 : Word) 0 = true ∧
    (bit (0x10000 + BitVec.ofNat 32 Src.SAF_INTERLOCK : Word) 16 = true ∧ (inPhase 13).mot.bstate = Build.UNHOMED ∧
      fld (0x10000 + BitVec.ofNat 32 Src.SAF_INTERLOCK : Word) 0 10 ∈ faultSources) := by
  decide

/-- Pair 0 has disagreed since PCLK 0. -/
def disagreeing : State := { inPhase 13 with saf := { State.reset.saf with disagreeAt := [some 0, none, none, none] } }

set_option maxRecDepth 8000 in
theorem witness_SafetyAndBistComplete_safety :
    (inPhase 13).clk.released = true ∧ (inPhase 13).boot.failed = false ∧ bit (inPhase 13).saf.levA 0 = false ∧
    bit (inPhase 13).saf.levB 0 = false ∧
    (disagreeing.clk.released = true ∧ disagreeing.boot.failed = false ∧ nth disagreeing.saf.disagreeAt 0 none = some 0 ∧
      0 + State.msPclk 1 ≤ (disagreeing.at_ 200000).clk.pclk ∧ bit disagreeing.saf.dlatch 0 = false) ∧
    (bit (1 : Word) 0 = true ∧ (inPhase 13).saf.levA = 0 ∧ (inPhase 13).saf.levB = 0 ∧ (inPhase 13).saf.dlatch = 0 ∧
      (inPhase 13).fco.sev3Gate = false ∧ (inPhase 13).running = true ∧ (inPhase 13).mot.bstate = Build.UNHOMED) := by
  decide

/-- A slice of kind `k` runs on target 0. -/
def slicing (k : Nat) : State :=
  { inPhase 13 with bist := { State.reset.bist with slices := [{ kind := k, idx := 0, st := 2 }] } }

set_option maxRecDepth 8000 in
theorem witness_SafetyAndBistComplete_bist : (slicing 0).running = true ∧ ((slicing 0).runningSlice 0).isSome = true ∧
    ((slicing 1).bist.slices.find? (fun x => x.kind = 1)).isSome = true := by decide

set_option maxRecDepth 8000 in
theorem witness_LinksComplete :
    (inPhase 13).lanesRun = true ∧
    (((inPhase 13).setReg (Reg.HLK_LINK 0) 0x08000000).linkEnabled (.head 0) = true ∧
      (((inPhase 13).setReg (Reg.HLK_LINK 0) 0x08000000).link (.head 0)).st = 0) ∧
    (((linkIn (inPhase 13) (.job 0) 1).setReg Reg.LNP_CTRL 0x20000000).rbit Reg.LNP_CTRL 29 = true ∧
      (((linkIn (inPhase 13) (.job 0) 1).setReg Reg.LNP_CTRL 0x20000000).link (.job 0)).st ≠ 0 ∧
      ((linkIn (inPhase 13) (.job 0) 1).setReg Reg.LNP_CTRL 0x20000000).linkActive (.job 0) = false) ∧
    (((linkIn (inPhase 13) (.job 0) 5).setReg Reg.LNP_CTRL 0x20000000).rbit Reg.LNP_CTRL 29 = true ∧
      ((linkIn (inPhase 13) (.job 0) 5).setReg Reg.LNP_CTRL 0x20000000).linkActive (.job 0) = true) ∧
    ((linkIn (inPhase 13) (.job 0) 1).link (.job 0)).st = 1 ∧ ((linkIn (inPhase 13) (.job 0) 2).link (.job 0)).st = 2 ∧
    ((linkIn (inPhase 13) (.job 0) 3).link (.job 0)).st = 3 ∧
    (((linkIn (inPhase 13) (.job 0) 3).updLink (.job 0) (fun l => { l with wasActive := true })).link (.job 0)).wasActive = true ∧
    (((linkIn (inPhase 13) (.job 0) 4).link (.job 0)).st = 4 ∧
      (linkIn (inPhase 13) (.job 0) 4).compatible (.job 0) (slicePad [1, 1, 1] 0 16) = true ∧
      (linkIn (inPhase 13) (.job 0) 4).compatible (.job 0) (slicePad [1, 1, 2] 0 16) = false) ∧
    ((linkIn (inPhase 13) (.job 0) 5).linkActive (.job 0) = true ∧ 52 ∈ State.rxLanes (.job 0)) ∧
    ((linkIn (inPhase 13) (.job 0) 6).link (.job 0)).st = 6 ∧ (inPhase 13).linkActive (.job 0) = false ∧
    ((linkIn (inPhase 13) (.job 0) 7).link (.job 0)).st = 7 := by
  decide

/-! ## Witnesses: job links, streams and directives -/

/-- Job link 0 is ACTIVE, with an unacknowledged frame. -/
def jobUp : State := (linkIn alone (.job 0) 5).updJob 0 (fun j => { j with unacked := [(0, [1])] })

set_option maxRecDepth 8000 in
theorem witness_JobFramesComplete : jobUp.clk.released = true ∧ jobUp.boot.failed = false ∧ jobUp.linkActive (.job 0) = true ∧
    ([] : Bytes).length ≤ 4096 ∧ (((jobUp.heardOn (.job 0)).jobAck 0 0 0).joblink 0).rxNext = 0 ∧
    1 ≠ (((jobUp.heardOn (.job 0)).jobAck 0 0 0).joblink 0).rxNext ∧
    (jobUp.joblink 0).unacked ≠ [] := by decide

set_option maxRecDepth 8000 in
theorem witness_JobMessagesComplete : (jobUp.linkActive (.job 0) = true ∧ jobUp.running = true ∧ jobUp.owns = true) ∧
    ((linkIn (inPhase 12) (.job 0) 5).linkActive (.job 0) = true ∧ (linkIn (inPhase 12) (.job 0) 5).running = false ∧
      (linkIn (inPhase 12) (.job 0) 5).boot.failed = false) := by decide

/-- Context 2 carries the control stream on job link 0; record `body` heads it. -/
def streaming (s : State) (body : JRec) : State :=
  s.updStream 2 (fun st => { st with
    desc := some { link := 0, credits := 4, maxRatio := 16, retries := 3, control := true, plainMax := 64 },
    opened := true, recs := [{ segno := 0, off := 0, body := body }] })

def storing : State := (streaming alone .nop).updStream 2 (fun st => { st with arriving := some 0, full := [(1, 0)] })

/-- A status message of context 2 at the start of the SEQ pool. -/
def statusReady : State := storing.wr Config.seqPool [1, 2]

set_option maxRecDepth 8000 in
theorem witness_KeeperRegistersComplete : storing.running = true ∧ storing.clk.released = true ∧
    (storing.stream 2).arriving = some 0 ∧ ((storing.stream 2).desc.isSome = true ∧ 0 < 4) ∧
    (upLength (statusReady.rdByte Config.seqPool).toNat = some 12 ∧ fld (0 : Word) 0 3 = 0 ∧
      Config.seqPool + 12 ≤ Config.poolEnd ∧ (statusReady.rdByte (Config.seqPool + 1)).toNat = 2 ∧
      statusReady.streamLink 2 = some 0) := by decide

/-- Whether the head record of context 2's stream is `body` once it goes on. -/
def heads (s : State) (body : JRec) : Bool := s.running && ((s.goOn 2).headRec 2 = some ⟨0, 0, body⟩)

def waitRecord : Bytes := [0x45, 0, 16, 0, 0, 0, 0, 0, 3, 0, 0, 0, 1, 0, 0, 0]

def waiting : State := (streaming alone (.directive Dir.WAIT waitRecord)).updStream 2
  (fun st => { st with stalled := true, waitStart := some 0 })

def parking : State := (streaming alone (.directive Dir.PARK [])).updStream 2 (fun st => { st with stalled := true })

/-- A record of the type, whose header is 8 bytes, with the payload. -/
def record (typ : Nat) (payload : Bytes) : Bytes := [BitVec.ofNat 8 typ, 0, 0, 0, 0, 0, 0, 0] ++ payload

/-- Context 2's control stream with the directive at its head. -/
def directed (s : State) (typ : Nat) (payload : Bytes) : State := streaming s (.directive typ (record typ payload))

/-- The record of that directive. -/
def headOf (typ : Nat) (payload : Bytes) : PendRec := ⟨0, 0, .directive typ (record typ payload)⟩

/-- Whether a directive at the head of the control stream is next. -/
def next (s : State) (typ : Nat) (payload : Bytes) : Bool :=
  let z := directed s typ payload
  z.running && !(z.goOn 2).follows && !((z.goOn 2).stream 2).stalled &&
    ((z.goOn 2).headDirective 2 = some (headOf typ payload, typ, record typ payload))

/-- Whether a directive at the head of the control stream neither stalls nor is refused. -/
def passes (s : State) (typ : Nat) (payload : Bytes) : Bool :=
  let u := (directed s typ payload).goOn 2
  next s typ payload && !u.stallsNow typ (record typ payload) && u.refusal 2 typ (record typ payload) = 0

/-- Whether one does not stall, and is refused. -/
def refuses (s : State) (typ : Nat) (payload : Bytes) : Bool :=
  let u := (directed s typ payload).goOn 2
  next s typ payload && !u.stallsNow typ (record typ payload) && u.refusal 2 typ (record typ payload) != 0

theorem next_directive (s : State) (typ : Nat) (payload : Bytes) (h : next s typ payload = true) :
    (directed s typ payload).nextDirective 2 (headOf typ payload) typ (record typ payload) := by
  simp only [next, Bool.and_eq_true, Bool.not_eq_true', decide_eq_true_eq] at h
  exact ⟨h.1.1.1, h.1.1.2, h.1.2, h.2⟩

/-- What the statements about an accepted directive ask for. -/
theorem passes_accepts (s : State) (typ : Nat) (payload : Bytes) (h : passes s typ payload = true) :
    (directed s typ payload).accepts 2 (headOf typ payload) typ (record typ payload) := by
  simp only [passes, Bool.and_eq_true, Bool.not_eq_true', decide_eq_true_eq] at h
  exact ⟨next_directive s typ payload h.1.1, h.1.2, h.2⟩

/-- The build state is `b`, in layer 7. -/
def building (b : Nat) : State := { alone with mot := { alone.mot with bstate := b, layer := some 7 } }

set_option maxRecDepth 20000 in
theorem witness_StreamRecordsAndStallsComplete :
    (storing.running = true ∧ (storing.stream 2).full = [(1, 0)] ∧ (storing.stream 2).desc.isSome = true ∧
      (storing.stream 2).halted = false ∧ (storing.stream 2).lastSeg = none ∧
      headerOk (storing.rd (storing.bufHead 2 1) 112) 2 (decide ((storing.ctx 2).keyslot = 255)) (storing.stream 2).passedEnd =
        false) ∧
    heads (streaming alone (.binding 1 1 1 ⟨0, 0, 0⟩)) (.binding 1 1 1 ⟨0, 0, 0⟩) = true ∧
    heads (streaming alone (.geomEnd 1)) (.geomEnd 1) = true ∧ heads (streaming alone (.cairn 1 true)) (.cairn 1 true) = true ∧
    (waiting.running = true ∧ waiting.follows = false ∧
      waiting.headDirective 2 = some (⟨0, 0, .directive Dir.WAIT waitRecord⟩, Dir.WAIT, waitRecord) ∧
      (waiting.stream 2).stalled = true ∧ (waiting.stream 2).waitStart = some 0 ∧ waiting.stallsNow Dir.WAIT waitRecord = true ∧
      0 + 200000 * fieldLE waitRecord 12 4 ≤ (waiting.at_ 200000).clk.pclk) ∧
    (parking.running = true ∧ parking.follows = false ∧ parking.headDirective 2 = some (⟨0, 0, .directive Dir.PARK []⟩, Dir.PARK, []) ∧
      (parking.stream 2).stalled = true ∧ parking.stallsNow Dir.PARK [] = false) ∧
    ([(Dir.HOME, 8), (Dir.LAYER_BEGIN, 16), (Dir.SWATH, 24), (Dir.LAYER_END, 8), (Dir.PARK, 8), (Dir.WAIT, 8), (Dir.BANK_LOAD, 72),
        (Dir.WAVE_LOAD, 72), (Dir.MASK_LOAD, 136), (Dir.CURVE_LOAD, 144), (Dir.REGION, 32)].all (fun z =>
      refuses (building Build.UNHOMED) z.1 (List.replicate z.2 0)) = true) ∧
    [1, 2, 3, 4].all (fun k => refuses alone Dir.MODE (k :: 9 :: List.replicate 14 0 ++ [0xFF, 0xFF] ++ List.replicate 6 0)) = true := by
  decide

/-- In LAYER, with a scan speed and limits that a swath of line 0 keeps. -/
def printing : State :=
  [(Reg.PLN_VMAX 0, 64000), (Reg.PLN_AMAX 0, 64000), (Reg.PLN_JMAX 0, 64000), (Reg.PLN_SOFTHI 0, 1000000),
    (Reg.PLN_SOFTLO 0, BitVec.ofInt 32 (-1000000)), (Reg.PLN_SCALE, (100000000 : Word))].foldl (fun s z => s.setReg z.1 z.2)
    (building Build.LAYER)

/-- Group 0 jets, and waveform 1 is loaded. -/
def waved : State := { alone with dose := { alone.dose with
  groups := { RowGroup.reset with kind := 1 } :: List.replicate 7 RowGroup.reset,
  waves := [{ id := 1, kind := 1, pulses := 1, wend := 1, slots := [⟨0, 0, 0, 1, 0⟩] }] } }

/-- The rows' group 0 has a class in its selected bank. -/
def banked : State := { waved with dose := { waved.dose with banks := upd waved.dose.banks 0 (fun _ => { highest := 1, entries := [(1, 1)] }) } }

def bankRecord : Bytes := [0, 1, 0, 0, 0, 0, 0, 0] ++ [1, 0, 1, 0, 1, 0, 1, 0] ++ List.replicate 56 0

def waveRecord : Bytes := List.replicate 8 0 ++ [1, 1, 1, 0, 1, 0, 0, 0] ++ [0, 0, 0, 0, 1, 0, 0, 0] ++ List.replicate 48 0

def curveRecord : Bytes := List.replicate 8 0 ++ [1, 1] ++ List.replicate 134 0

set_option maxRecDepth 20000 in
/-- A state and a directive for each, which `passes_accepts` makes one that is accepted. -/
theorem witness_DirectivesExecute :
    passes (building Build.UNHOMED) Dir.HOME [1, 0, 0, 0, 0, 0, 0, 0] = true ∧
    passes (building Build.READY) Dir.LAYER_BEGIN (leBytes 4 8 ++ List.replicate 12 0) = true ∧
    passes printing Dir.SWATH (List.replicate 16 0 ++ leBytes 2 64000 ++ List.replicate 6 0) = true ∧
    passes (building Build.LAYER) Dir.LAYER_END (leBytes 4 7 ++ List.replicate 4 0) = true ∧
    passes (building Build.READY) Dir.PARK (List.replicate 8 0) = true ∧
    passes (building Build.READY) Dir.WAIT [2, 0, 0, 0, 1, 0, 0, 0] = true ∧
    (passes waved Dir.BANK_LOAD bankRecord = true ∧ (parseBank (slicePad (record Dir.BANK_LOAD bankRecord) 16 64)).isSome = true) ∧
    (passes alone Dir.WAVE_LOAD waveRecord = true ∧ (parseWave (slicePad (record Dir.WAVE_LOAD waveRecord) 16 64)).isSome = true) ∧
    (passes alone Dir.MASK_LOAD ([1, 0, 0, 0, 0, 0, 0, 0] ++ List.replicate 128 0) = true ∧
      (parseMask (slicePad (record Dir.MASK_LOAD ([1, 0, 0, 0, 0, 0, 0, 0] ++ List.replicate 128 0)) 16 128)).isSome = true) ∧
    (passes alone Dir.CURVE_LOAD curveRecord = true ∧
      (parseCurve (slicePad (record Dir.CURVE_LOAD curveRecord) 16 136)).isSome = true) ∧
    passes alone Dir.REGION ([2, 0, 0, 0] ++ List.replicate 28 0) = true := by decide

theorem witness_DirectivesExecute_accepts : (directed (building Build.READY) Dir.PARK (List.replicate 8 0)).accepts 2
    (headOf Dir.PARK (List.replicate 8 0)) Dir.PARK (record Dir.PARK (List.replicate 8 0)) :=
  passes_accepts _ _ _ witness_DirectivesExecute.2.2.2.2.1

set_option maxRecDepth 20000 in
/-- A state and a MODE record for each setting, which `passes_accepts` makes one that is accepted. -/
theorem witness_ModesComplete :
    passes alone Dir.MODE ([1, 1] ++ List.replicate 22 0) = true ∧ passes banked Dir.MODE ([2, 0] ++ List.replicate 22 0) = true ∧
    passes alone Dir.MODE ([3, 0] ++ List.replicate 22 0) = true ∧ passes alone Dir.MODE ([4, 0] ++ List.replicate 22 0) = true ∧
    [1, 2, 3, 4].all (fun k => fieldLE (record Dir.MODE ([BitVec.ofNat 8 k, 0] ++ List.replicate 22 0)) 8 1 = k) = true := by decide
/-! ## Witnesses: ridges, cornice, strobes, actuators and head links -/

/-- A post of context 2 for layer 7 at the start of the SEQ pool. -/
def postReady : State := alone.wr Config.seqPool ([2, 0, 0, 0, 7, 0, 0, 0, 0x20, 0, 0, 0, 0, 0, 0, 0, 1, 0, 0, 0] ++ List.replicate 12 0)

def plan10 : SwathPlan :=
  { layer := 7, swath := 0, dir := 0, pass := 0, lineFirst := 0, lineLast := 9, indexOffset := 0, speed := 64000, swtag := 0,
    indexTarget := 0 }

def swath10 : Swath := { plan := plan10, firstOrd := 0, afterCairn := 0, issued := 0 }

/-- A swath of ten lines passes. -/
def passing : State :=
  { alone with mot := { alone.mot with bstate := Build.LAYER, layer := some 7, current := some swath10 },
               crn := { alone.crn with nextOrd := 10 } }

/-- Ridge 0 holds the first band, and the window the ten lines. -/
def banded : State := passing.fillWindow.updRidge 0 (fun g => { g with band := some (0, 0) })

def bandedNoWindow : State := passing.updRidge 0 (fun g => { g with band := some (0, 0) })

def ridgesOn : State := passing.setReg Reg.RDG_CTRL 1

/-- The whole fetch of the first band. -/
def firstFetch : BandFetch :=
  ((ridgesOn.useNext 0).fetchBand ((ridgesOn.useNext 0).fillHalf 0) ((ridgesOn.useNext 0).sampleRect 0 plan10 0)
    (State.bandFirst swath10 0) ((ridgesOn.useNext 0).newPass 0 swath10 0)
    (((ridgesOn.useNext 0).ridge 0).stops.map FetchStop.ctx)).2

/-- Ridge 0 is in the fetch pass of the first band. -/
def fetchingBand : State := ridgesOn.updRidge 0 (fun g => { g with pass := some { key := (0, 0), recs := [], bytes := 0, work := [] } })

set_option maxRecDepth 20000 in
theorem witness_RidgesComplete :
    (postReady.clk.released = true ∧ postReady.boot.failed = false ∧ fld (0 : Word) 0 3 = 0 ∧ Config.seqPool + 32 ≤ Config.poolEnd ∧
      fieldLE (postReady.rd Config.seqPool 32) 0 1 = 2 ∧ fieldLE (postReady.rd Config.seqPool 32) 1 1 ≤ 1 ∧
      fieldLE (postReady.rd Config.seqPool 32) 2 2 = 0 ∧ fieldLE (postReady.rd Config.seqPool 32) 4 4 < 2 ^ 24 ∧
      fieldLE (postReady.rd Config.seqPool 32) 24 8 = 0 ∧ fieldLE (postReady.rd Config.seqPool 32) 8 8 % 32 = 0 ∧
      fieldLE (postReady.rd Config.seqPool 32) 16 4 ≤ 1048576 ∧ postReady.rdg.posts.length < 512) ∧
    (ridgesOn.running = true ∧ 0 < ridgesOn.ridgeCount ∧ 
      (ridgesOn.useNext 0).fetchTarget 0 = some (swath10, 0, 0) ∧ ridgesOn.rbit Reg.RDG_CTRL 0 = true ∧
      ridgesOn.bandWaits 0 plan10 0 = [] ∧ (ridgesOn.ridge 0).pass = none ∧
      firstFetch.wait.isNone = true ∧ firstFetch.bad = [] ∧ firstFetch.stops = [] ∧ firstFetch.left = []) ∧
    ((fetchingBand.useNext 0).fetchTarget 0 = some (swath10, 0, 0) ∧
      ((fetchingBand.ridge 0).pass.map BandPass.key) = some (State.bandKey swath10 0)) ∧
    (banded.running = true ∧ banded.ridgeAt 0 = some (swath10, 0, 0) ∧ (banded.ridge 0).stops = [] ∧ banded.rdg.leaving = none ∧
      (banded.ridge 0).band = some (State.bandKey swath10 0) ∧ 0 < banded.windowEnd ∧ 0 ≤ banded.firstUntx + 112 ∧
      banded.haloWaits 0 0 = false ∧ (((banded.voidActuators 0 swath10 0 0).voidCached 0 swath10 0).ridge 0).nextOrd = 0) ∧
    (bandedNoWindow.ridgeAt 0 = some (swath10, 0, 0) ∧ (bandedNoWindow.ridge 0).stops = [] ∧ bandedNoWindow.rdg.leaving = none ∧
      (bandedNoWindow.ridge 0).band = some (State.bandKey swath10 0) ∧ bandedNoWindow.windowEnd ≤ 0) :=
  ⟨by decide, by decide, by decide, by decide, by decide⟩

/-- POS0 has just come to count 0, where the transmit point of line `n` lies. -/
def atPoint (n : Int) : State :=
  State.updPos { passing with dose := { passing.dose with grid := { passing.dose.grid with pitch := 65536, origin := 65536 * (8 - n) } } } 0
    (fun p => { p with changeAt := 0, beforeX := -1 })

/-- The first line has crossed its transmit point. -/
def crossing : State :=
  { banded with pins := { banded.pins with town := true }, crn := { banded.crn with crossed := 1 } }

/-- The pulse of row 0 of the first line is decided. -/
def decided : State :=
  { banded with crn := { banded.crn with window := banded.crn.window.modify 0 (fun l =>
    { l with rows := .toFire :: List.replicate 15 .none }) } }

/-- Whether a line waits for a pulse of row 0. -/
def dueInRow0 (l : CLine) : Bool :=
  match l.rows[(0 : Nat)]? with
  | some .toFire => true
  | some (.toSkip _) => true
  | _ => false

/-- The gate has opened at PCLK 0. -/
def opened : State :=
  { alone with saf := { alone.saf with startup := false, openedAt := some 0, skipWindow := true } }

set_option maxRecDepth 20000 in
theorem witness_LinesAndStrobesComplete :
    ((atPoint 1).running = true ∧ (atPoint 1).owns = true ∧ (atPoint 1).mot.current = some swath10 ∧ planHas plan10 1 = true ∧
      1 ≠ planFirst plan10 ∧ ((atPoint 1).at_ 0).crosses 0 (((atPoint 1).at_ 0).gridPoint (1 - 8)) = true) ∧
    (planHas plan10 (planFirst plan10) = true ∧ ((atPoint 0).at_ 0).crosses 0 (((atPoint 0).at_ 0).gridPoint (planFirst plan10 - 8)) = true ∧
      (atPoint 0).crn.crossed ≤ 0 + (planIndex plan10 (planFirst plan10)).toNat) ∧
    (planHas plan10 10 = false ∧ (passing.at_ 1).crosses 0 ((passing.at_ 1).gridPoint (1 - 8)) = false) ∧
    (crossing.running = true ∧ crossing.owns = true ∧ crossing.mot.current = some swath10 ∧
      ((crossing.crn.window.find? (fun l => !l.taken && !l.dropped)).map (fun l => (l.ord, l.layer, l.swath))) = some (0, 7, 0) ∧
      crossing.pins.town = true ∧ crossing.hlk.selecting = false ∧ 0 < crossing.crn.crossed) ∧
    (decided.running = true ∧ decided.owns = true ∧
      ((decided.crn.window.find? dueInRow0).map (fun l => (l.line, l.rows[0]?))) = some (0, some .toFire) ∧
      ((decided.at_ 1).planOf 7 0).isSome = true) ∧
    (opened.clk.released = true ∧ opened.boot.failed = false ∧ opened.saf.openedAt = some 0 ∧ opened.saf.skipWindow = true ∧
      opened.permitted = true ∧ 0 + 10000 ≤ 10000) := by decide

/-- A drop test without shots, whose first shot would have come at PCLK 0. -/
def oneTest (aborted : Bool) : TestState :=
  { t0 := 0, shots := [], edges := [], fires := [], next := 0, gate := true, order := 0, aborted := aborted }

def testing (aborted : Bool) : State := { alone with act := { alone.act with phase := 2, test := some (oneTest aborted) } }

/-- The carriage is on its way to the station, after a swath. -/
def approaching : State := { passing with act := { alone.act with phase := 1 }, crn := { passing.crn with lastPlan := some plan10 } }

/-- The station zone lies from count 5 on. -/
def farStation : State := (approaching.setReg Reg.PLN_STN_PLO 5).setReg Reg.PLN_STN_PHI 6

def holding : State := { alone with act := { alone.act with hold := some 0 } }

set_option maxRecDepth 20000 in
theorem witness_DropTestsComplete :
    (approaching.running = true ∧ approaching.clk.released = true ∧ approaching.act.phase = 1 ∧ (approaching.at_ 1).inZone = true ∧
      approaching.owns = true) ∧
    (farStation.running = true ∧ farStation.act.phase = 1 ∧ (farStation.at_ 1).inZone = false) ∧
    ((testing false).running = true ∧ (testing false).act.test = some (oneTest false) ∧ (testing false).act.phase = 2 ∧
      (testing false).owns = true ∧
      ((testing false).at_ 1000000).windowsEnd (oneTest false) ≤ ((testing false).at_ 1000000).clk.pclk) ∧
    ((testing true).act.test = some (oneTest true) ∧ (oneTest true).aborted = true ∧
      ((testing true).at_ 1000000).windowsEnd (oneTest true) ≤ ((testing true).at_ 1000000).clk.pclk) ∧
    (holding.running = true ∧ holding.act.hold = some 0) ∧ alone.follows = false := by decide

/-- Head link 0 runs, and carries the window's first line, sent as LSEQ 0, whose rows are done; an order is out on it, and a
void order covers the line. -/
def sent : State :=
  let s := (banded.setReg (Reg.HLK_LINK 0) 0x08000000).updHead 0 (fun h => { h with orders := [{ order := 0, typ := 0x21, arg := 1 }] })
  { s with crn := { s.crn with
    window := s.crn.window.modify 0 (fun l => { l with lseq := some 0, taken := true, rows := List.replicate 16 .fired }),
    groups := [{ kind := 1, layer := 7, swath := 0, pend := [(0, 0)], entries := [] }] } }

set_option maxRecDepth 20000 in
theorem witness_HeadStatusCompletes :
    sent.running = true ∧ (sent.heardOn (.head 0)).statusUsed 0 sent.hlk.portB = true ∧ (sent.heardOn (.head 0)).linkRate 0 ≠ 0 ∧
    (((sent.heardOn (.head 0)).lineOfSeq 0).map CLine.ord = some 0 ∧
      (sent.heardOn (.head 0)).crn.groups.any (fun g => g.pend.contains (0, 0)) = true ∧ (1 : BitVec 16) ≠ 0) ∧
    (((sent.heardOn (.head 0)).headlink 0).orders.find? (fun o => o.order = 0)).isSome = true ∧
    (((sent.lineOfSeq 0).map (fun l => (l.closedLinks, State.rowsDone l))) = some ([], true) ∧ sent.owns = true ∧
      sent.linkRate 0 ≠ 0) := by decide

/-! ## Witnesses: motion and positions -/

/-- Axis `a` moves. -/
def moving (a : Nat) : State := alone.updAxis a (fun x => { x with moving := true, stopping := false })

/-- The swath passes and its last line has left the window. -/
def passed : State := { passing with crn := { passing.crn with freed := 10 } }

/-- Axis `a` stops. -/
def stopping (a : Nat) : State := (moving a).updAxis a (fun x => { x with stopping := true })

set_option maxRecDepth 20000 in
theorem witness_PlannerAndMovesComplete :
    (alone.clk.released = true ∧ alone.boot.failed = false ∧ alone.hasAxis = true ∧ 1 = alone.super ∧ alone.follows = false ∧
      (alone.axis 1).moving = false) ∧
    (1 = (moving 1).super ∧ (moving 1).follows = false ∧ ((moving 1).axis 1).moving = true ∧ ((moving 1).axis 1).pend = [] ∧
      ((moving 1).axis 1).asks = []) ∧
    ((moving 1).running = true ∧ ((moving 1).at_ 1).atRest 1 = true ∧ ((moving 1).axis 1).stopping = false ∧
      ((stopping 1).axis 1).moving = true ∧ ((stopping 1).at_ 1).atRest 1 = true ∧ ((stopping 1).axis 1).stopping = true) ∧
    ((moving 2).mot.platformMove = false ∧ ((moving 2).at_ 1).atRest 2 = true ∧ (moving 3).mot.recoats = 0 ∧
      ((moving 3).at_ 1).atRest 3 = true) ∧
    ((inRole passing 3).running = true ∧ (inRole passing 3).mot.current = some swath10 ∧ (inRole passing 3).mot.spanOn = false ∧
      (inRole passing 3).plans = false) ∧
    (passing.running = true ∧ passing.mot.current = some swath10 ∧ passing.mot.spanOn = false ∧ passing.plans = true ∧
      (passing.axis 1).moving = false ∧ (passing.axis 1).pos = 256 * plan10.indexTarget) ∧
    (passed.mot.current = some swath10 ∧ (passed.at_ 1).lastDone swath10 = true) ∧
    (alone.at_ 100000000).clk.nextTick * (alone.at_ 100000000).servoPeriod ≤ (alone.at_ 100000000).now := by decide

/-- A drive frame with sequence 15: the drive's state 0 and no following error. -/
def driveFrame : Bytes := let f : Bytes := [0, 0, 0, 0, 15, 0, 0, 0, 0]; f ++ [crc8 f]

def driving : State := alone.setReg (Reg.PLN_AXP 0) 1

def stepping : State := alone.setReg (Reg.STP_CTRL 0) 1

/-- Axis `a` has rested since PCLK 0 and is homed. -/
def resting (a : Nat) : State :=
  (alone.updAxis a (fun x => { x with restAt := some 0, moving := false })).setReg (Reg.PLN_HSTAT a) 2

set_option maxRecDepth 20000 in
theorem witness_DrivesAndSteppersComplete :
    (driving.running = true ∧ driving.clk.released = true ∧ driving.rbit (Reg.PLN_AXP 0) 0 = true ∧ driving.drives = true ∧
      driving.driveFrameBad 0 driveFrame = false ∧ (fieldLE driveFrame 0 2).testBit 2 = false) ∧
    (stepping.plans = true ∧ stepping.rbit (Reg.STP_CTRL 0) 0 = true ∧ stepping.homingNow ≠ some (0 + 2)) ∧
    (((moving 2).axis (0 + 2)).moving = true ∧ (moving 2).rfld (Reg.STP_STALL 0) 0 10 ≤ (1000 : Int).natAbs ∧
      ((moving 2).reg (Reg.STP_SVMIN 0)).toNat ≤ ((moving 2).axis (0 + 2)).vel.natAbs ∧
      (((((moving 2).updAxis (0 + 2) (fun x => { x with pos := 256 * (moving 2).stepAt 0 })).updStp 0 (fun p => { p with
        pos := (moving 2).stepAt 0, elec := uNat 10 ((moving 2).stepAt 0), stalled := true, hold := true, load := 1000 })).event
          Reg.STP_EVENT 0).freezeAxis (0 + 2)).homingNow ≠ some (0 + 2)) ∧
    (((resting 2).axis (0 + 2)).restAt = some 0 ∧ 0 + 20000000 ≤ ((resting 2).at_ 20000000).clk.pclk) ∧
    (((resting 1).axis 1).restAt = some 0 ∧ (resting 1).hasAxis = true ∧ ((resting 1).axis 1).moving = false ∧
      (resting 1).homeStat 1 = 2 ∧ 0 + 20000000 ≤ ((resting 1).at_ 20000000).clk.pclk) := by decide

/-- Position unit 0 in MODE `m`. -/
def posIn (m : Nat) : State := alone.setRfld (Reg.POS_CFG 0) 0 2 m

set_option maxRecDepth 20000 in
theorem witness_SwitchesAndEncodersComplete :
    (alone.running = true ∧ alone.hasAxis = true ∧
      (alone.switchOf 0).active ≠ ((!bit (alone.reg (Reg.SWI_CFG 0)) 5) != bit (alone.reg (Reg.SWI_CFG 0)) 5) ∧
      fld (alone.reg (Reg.SWI_CFG 0)) 0 3 ≠ 1 ∧ (alone.switchOf 0).faulty = false ∧
      fld (alone.reg (Reg.SWI_CFG 0)) 16 8 < 256) ∧
    ((posIn 1).clk.released = true ∧ (posIn 1).boot.failed = false ∧ (posIn 1).posPresent 0 = true ∧ posMode (posIn 1) 0 = 1 ∧
      (!((posIn 1).posu 0).aLine) ≠ ((posIn 1).posu 0).aLine ∧ (!((posIn 1).posu 0).bLine) ≠ ((posIn 1).posu 0).bLine) ∧
    posMode (posIn 2) 0 = 2 ∧ posMode (posIn 3) 0 = 3 := by decide

def probing : State := alone.setReg (Reg.POS_PRBCTRL 0) 1

/-- Comparator 0 is armed at 0 in direction `dir`, and last saw `prev`. -/
def comparing (dir : Nat) (prev : Bool) : State :=
  (alone.updPos 0 (fun p => { p with cmpVal := 0, cmpArmed := true, cmpPrev := prev })).setReg (Reg.POS_CMPCTRL 0)
    (BitVec.ofNat 32 dir)

def pulsing : State := alone.updPos 0 (fun p => { p with cmpEnd := some 0 })

set_option maxRecDepth 20000 in
theorem witness_ProbesAndComparatorsComplete :
    (probing.clk.released = true ∧ probing.boot.failed = false ∧ probing.hasAxis = true ∧
      bit (probing.reg (Reg.POS_PRBCTRL 0)) 0 = true ∧ bit (probing.reg (Reg.POS_PRBCTRL 0)) 1 = !true) ∧
    (decide (((comparing 1 false).posu 0).cmpVal ≤ ((comparing 1 false).at_ 1).posX 0) = true ∧
      ((comparing 1 false).posu 0).cmpArmed = true ∧ true ≠ ((comparing 1 false).posu 0).cmpPrev ∧
      fld ((comparing 1 false).reg (Reg.POS_CMPCTRL 0)) 0 2 ≠ 2) ∧
    ((pulsing.posu 0).cmpEnd = some 0 ∧ 0 ≤ (pulsing.at_ 1).clk.pclk) := by decide

/-! ## Witnesses: twin pairs and cascades -/

/-- `s` with the twin link up, in role `r`, with an unacknowledged frame. -/
def paired (s : State) (r : Nat) : State :=
  let s := inRole (linkIn s .twin 5) r
  { s with twn := { s.twn with linkUp := true, unacked := [(0, 1, [])] } }

def twinUp (r : Nat) : State := paired alone r

set_option maxRecDepth 20000 in
theorem witness_TwinLinkAndMirrorsComplete :
    ((twinUp 3).twinListens = true ∧ (⟨1, 0, true⟩ : FrameHdr).good = true ∧ (⟨1, 0, false⟩ : FrameHdr).good = false ∧ 1 ≠ (twinUp 3).twn.rxNext ∧ (twinUp 3).twn.unacked ≠ [] ∧ (twinUp 3).clk.released = true ∧
      (twinUp 3).boot.failed = false ∧ (twinUp 3).twn.linkUp = true) ∧
    ((twinUp 3).twinNext ⟨0, 0, true⟩ = true ∧ (twinUp 3).twinApplies = true) := by decide

/-- In TWIN with a slot that may pair and no link. -/
def deciding : State := (inRole (inPhase 11) 0).setReg Reg.TWN_CTRL 1

def active : State :=
  let s := twinUp 2
  { s with twn := { s.twn with peerRole := 3, handover := none } }

def syncing (phase : Nat) : State :=
  let s := twinUp 4
  { s with twn := { s.twn with phase := phase } }

set_option maxRecDepth 20000 in
theorem witness_TwinRolesComplete :
    ((twinUp 3).twn.role = 3 ∧ (twinUp 4).twn.role = 4 ∧ (twinUp 4).clk.released = true ∧ (twinUp 4).boot.failed = false) ∧
    (deciding.clk.released = true ∧ deciding.boot.failed = false ∧ deciding.boot.phase = 11 ∧ deciding.twn.role = 0 ∧
      deciding.linkActive .twin = false ∧ deciding.rbit Reg.TWN_CTRL 0 = true) ∧
    (twinUp 3).twinNext ⟨0, 0, true⟩ = true ∧ ((twinUp 3).owns = false ∧ (twinUp 3).follows = true) ∧
    (active.twn.role = 2 ∧ active.twn.peerRole = 3 ∧ active.twn.handover = none) ∧
    ((syncing 2).twn.role = 4 ∧ (syncing 2).twn.phase ≠ 0) := by decide

/-- Line 0 of the window, and one that no plan has. -/
def line0 : BuildPos := { layer := 7, swath := 0, line := 0 }

def noLine : BuildPos := { layer := 9, swath := 0, line := 0 }

set_option maxRecDepth 20000 in
theorem witness_TwinFramesComplete :
    ((paired banded 3).twinNext ⟨0, 0, true⟩ = true ∧ (paired banded 3).ordOf line0 = some 0 ∧ (paired banded 3).byTwin 7 0 = true ∧
      (paired banded 3).ordOf noLine = none) ∧
    ((paired banded 4).twinNext ⟨0, 0, true⟩ = true ∧ (paired banded 4).ordOf line0 = some 0 ∧ (paired banded 4).twn.role = 4) ∧
    ((twinUp 3).follows = true ∧ (1 : BitVec 64).toNat ≠ 0 ∧ (twinUp 2).follows = false ∧ (twinUp 2).twinNext ⟨0, 0, true⟩ = true) ∧
    ((syncing 3).twinNext ⟨0, 0, true⟩ = true ∧ (syncing 3).twn.role = 4 ∧ (syncing 3).twn.phase = 3 ∧ (syncing 3).twn.idBad = false ∧
      4 ≤ ([1, 0, 0, 0] : Bytes).length ∧ ([1, 0, 0, 0] : Bytes).length ≤ (syncing 3).syncRoom 1 ∧
      (syncing 3).syncRoom 4 < 773 + ([] : Bytes).length ∧
      leNat (([1, 0, 0, 0] : Bytes).drop (4 - 4)) ≠ (crc32c (([1, 0, 0, 0] : Bytes).take (4 - 4))).toNat) := by decide

/-- In role `r`, the slice of ridge `i` of line 0 is POSTED and, where `m` says so, did not match. -/
def compared (r i : Nat) (m : Bool) : State :=
  (paired banded r).updRLine 0 i (fun k => { k with st := 2, mismatch := m })

/-- The slice itself. -/
def sliceOf (r i : Nat) (m : Bool) : Option RLine := (compared r i m).rline 0 i

set_option maxRecDepth 20000 in
theorem witness_TwinChecksComplete :
    ((compared 3 0 true).twinNext ⟨0, 0, true⟩ = true ∧ (compared 3 0 true).ordOf line0 = some 0 ∧
      (sliceOf 3 0 true).map RLine.kinds = some 0 ∧ (0 : BitVec 32) ≠ 1) ∧
    ((compared 3 0 true).running = true ∧ (sliceOf 3 0 true).map RLine.mismatch = some true ∧
      (compared 3 0 true).rdg.rotHalt = false ∧ (compared 3 0 true).rdg.inBist = none ∧ (compared 3 0 true).rdg.spare.isSome = true ∧
      (compared 3 0 true).twn.ties = []) ∧
    ((compared 2 0 false).running = true ∧ ((compared 2 0 false).planOf 7 0) = some plan10 ∧ (compared 2 0 false).owns = true ∧
      (compared 2 0 false).byTwin 7 0 = false ∧ (sliceOf 2 0 false).map RLine.st = some 2 ∧
      0 = plan10.swtag % (compared 2 0 false).ridgeCount ∧ (compared 2 0 false).rdg.spare.isSome = true) ∧
    ((compared 2 1 false).ordOf line0 = some 0 ∧ (sliceOf 2 1 false).map RLine.st = some 2 ∧
      1 ≠ plan10.swtag % (compared 2 1 false).ridgeCount) ∧
    ((compared 3 0 true).twinApplies = true ∧ (fieldLE (List.replicate 16 (0 : Byte)) 14 2 + 65536 - (compared 3 0 true).csc.ltkn) % 65536
      < 32768) ∧
    ((compared 2 0 false).twinNext ⟨0, 0, true⟩ = true ∧ ((compared 2 0 false).cscPort true).up = false ∧
      ((compared 2 0 false).cscPort false).up = false) :=
  ⟨by decide, by decide, by decide, by decide, by decide, by decide⟩

/-- Position `p` of a cascade with both ports up and an unacknowledged frame on each; `j` is its state of joining, and a TIME of its
own is out. -/
def cascaded (p j : Nat) : State :=
  let s := linkIn (linkIn alone .cup 5) .cdn 5
  let port : CscPort := { s.csc.upPort with up := true, unacked := [{ seq := 0, typ := 3, origin := p, ltkn := 0, body := [] }] }
  { s with pins := { s.pins with cpos := p },
           csc := { s.csc with jstate := j, upPort := port, downPort := port, joined := 2, timeAsked := some 5 } }

set_option maxRecDepth 20000 in
theorem witness_CascadePortsComplete :
    ((cascaded 1 0).cscListens false = true ∧ ((cascaded 1 0).cscPort false).unacked ≠ [] ∧ ((cascaded 1 0).cscPort false).up = true) ∧
    ((cascaded 1 0).cscListens true = true ∧ ((cascaded 1 0).cscPort true).unacked ≠ [] ∧ ((cascaded 1 0).cscPort true).up = true) ∧
    ((cascaded 1 0).clk.released = true ∧ (cascaded 1 0).boot.failed = false ∧ (cascaded 1 0).isLead = false ∧
      (cascaded 1 0).csc.upPort.up = true ∧ 12 ≤ (cascaded 1 0).boot.phase ∧ (cascaded 1 0).csc.jstate = 0) := by decide

def fromLead : CscHdr := ⟨false, 0, 0, 0, 0, true⟩

def fromBelow : CscHdr := ⟨true, 0, 0, 1, 0, true⟩

/-- A member at position 1 whose swath of ten lines is planned. -/
def memberPrinting : State :=
  { cascaded 1 3 with mot := { alone.mot with current := some swath10 } }

/-- The state in which it acts on the frame that closes the gate for that swath. -/
def gateArrived : State := memberPrinting.cscArrived fromLead 9 (swgateBytes 7 0)

set_option maxRecDepth 20000 in
theorem witness_CascadeMembersComplete :
    [1, 2, 3].all (fun j => (cascaded 1 j).cscNext fromLead && !(cascaded 1 j).follows && !(cascaded 1 j).isLead &&
      decide ((cascaded 1 j).csc.jstate = j)) = true ∧
    (cascaded 1 2).csc.timeAsked = some (5 : BitVec 64).toNat ∧
    (memberPrinting.cscNext fromLead = true ∧ memberPrinting.follows = false ∧ memberPrinting.isLead = false ∧
      memberPrinting.csc.jstate = 3 ∧
      gateArrived.planned.find? (fun w => w.plan.layer = 7 && w.plan.swath = 0) = some swath10) := by decide

/-- The lead of a cascade that has a member at position 1. -/
def leading : State := (cascaded 0 0).setReg Reg.CSC_CTRL 6

set_option maxRecDepth 20000 in
theorem witness_CascadeLeadCompletes :
    (leading.cscNext fromBelow = true ∧ fromBelow.down = true ∧ leading.follows = false ∧ leading.isLead = true) ∧
    (leading.rbit Reg.CSC_CTRL 2 = true ∧ leading.csc.slots.contains (2, 0) = false ∧ leading.rbit Reg.CSC_CTRL 3 = false) ∧
    (leading.clk.released = true ∧ leading.boot.failed = false ∧ bit leading.csc.joined 1 = true) ∧
    ((cascaded 1 3).isMember = true ∧ (cascaded 1 3).clk.released = true ∧ (cascaded 1 3).boot.failed = false) := by decide
/-! ## Witnesses: contexts and their instructions -/

/-- Context 5 runs at PC 0; its pages 0 and 1 are a page of the SEQ pool and the page of the TIM registers, both cached. -/
def running : State :=
  let s := alone.updCtx 5 (fun k => { k with rstate := 2, xroot := 0x4006030000 })
  { s with tlb := [{ ctx := 5, level := 1, base := 0, entry := 0x4006031001 }, { ctx := 5, level := 2, base := 0, entry := 0x4006032001 },
                   { ctx := 5, level := 3, base := 0, entry := 0x400604001F }, { ctx := 5, level := 3, base := 0x1000, entry := 0x500025002F }] }

/-- Context 5 runs with its instruction fetched. -/
def afterFetch : State := (running.fetch 5).1

/-- The physical address of a translation that succeeds. -/
def placed (r : State × Except XltFault Nat) : Option Nat :=
  match r.2 with
  | .ok pa => some pa
  | .error _ => none

/-- The bytes of a read that succeeds. -/
def got (r : State × ReadResult) : Option Bytes :=
  match r.2 with
  | .ok bs => some bs
  | _ => none

set_option maxRecDepth 20000 in
theorem running_fetched : running.fetched 5 afterFetch :=
  ⟨by decide, by decide, by decide, Prod.ext rfl (by decide)⟩

set_option maxRecDepth 20000 in
theorem afterFetch_quiet : afterFetch.quiet := by
  unfold State.quiet
  decide

theorem witness_RegisterInstructionsFrame : running.fetched 5 afterFetch ∧ afterFetch.quiet ∧
    ∃ t, exec (.add 5 1 2 3) running = .next t :=
  ⟨running_fetched, afterFetch_quiet, _, rfl⟩

set_option maxRecDepth 20000 in
theorem stored_quiet : (afterFetch.translate 5 0 .write .sequencer).1.quiet := by
  unfold State.quiet
  decide

set_option maxRecDepth 20000 in
theorem witness_StoreInstructionsFrame : running.fetched 5 afterFetch ∧
    (0 : BitVec 64) = afterFetch.getK 5 2 + (0 : BitVec 18).signExtend 64 ∧
    placed (afterFetch.translate 5 0 .write .sequencer) = some 0x4006040000 ∧ accessPlace 0x4006040000 = .seqPool ∧
    (afterFetch.translate 5 0 .write .sequencer).1.quiet :=
  ⟨running_fetched, by decide, by decide, by decide, stored_quiet⟩

theorem witness_SumsBitsAndConstants : running.fetched 5 afterFetch := running_fetched

/-- Context 5 with `v` in register `r`. -/
def withK (r : Nat) (v : BitVec 64) : State := running.updCtx 5 (fun k => { k with k := k.k.set r v })

set_option maxRecDepth 20000 in
theorem withK_fetched : (withK 3 8).fetched 5 ((withK 3 8).fetch 5).1 :=
  ⟨by decide, by decide, by decide, Prod.ext rfl (by decide)⟩

/-- Registers 1 and 2 hold −2⁶³ and −1. -/
def dividing : State := running.updCtx 5 (fun k => { k with k := (k.k.set 1 (BitVec.ofNat 64 (2 ^ 63))).set 2 (BitVec.allOnes 64) })

set_option maxRecDepth 20000 in
theorem witness_ShiftsProductsAndQuotients : (running.fetched 5 afterFetch ∧ afterFetch.getK 5 1 = 0) ∧
    ((withK 3 8).fetched 5 ((withK 3 8).fetch 5).1 ∧ ((withK 3 8).fetch 5).1.getK 5 3 ≠ 0) ∧
    (dividing.fetched 5 (dividing.fetch 5).1 ∧ (dividing.fetch 5).1.getK 5 1 = BitVec.ofNat 64 (2 ^ 63) ∧
      (dividing.fetch 5).1.getK 5 2 = BitVec.allOnes 64) :=
  ⟨⟨running_fetched, by decide⟩, ⟨withK_fetched, by decide⟩,
   ⟨by decide, by decide, by decide, Prod.ext rfl (by decide)⟩, by decide, by decide⟩

set_option maxRecDepth 20000 in
theorem pool_mapped (k : AccessKind) : afterFetch.mapped 5 0 k 0x4006040000 :=
  ⟨3, 0x400604001F, ⟨by decide, by decide⟩, by cases k <;> decide, by decide⟩

set_option maxRecDepth 20000 in
/-- The page of the TIM registers. -/
theorem control_mapped (off : Nat) (k : AccessKind) (h : off ∈ [0x18, 4, 0xFFC]) (hk : k = .read ∨ k = .write) :
    afterFetch.mapped 5 (0x1000 + off) k (0x5000250000 + off) := by
  have : off = 0x18 ∨ off = 4 ∨ off = 0xFFC := by simpa using h
  rcases this with rfl | rfl | rfl <;>
    exact ⟨3, 0x500025002F, ⟨by decide, by decide⟩, by rcases hk with rfl | rfl <;> decide, by decide⟩

set_option maxRecDepth 20000 in
theorem pool_clean : afterFetch.cleanAt 0x4006040000 8 := by
  unfold State.cleanAt
  decide

set_option maxRecDepth 20000 in
theorem witness_LoadsComplete : running.fetched 5 afterFetch ∧ 0 = (afterFetch.getK 5 2 + (0 : BitVec 18).signExtend 64).toNat ∧
    (afterFetch.mapped 5 0 .read 0x4006040000 ∧ accessPlace 0x4006040000 = .seqPool ∧ afterFetch.cleanAt 0x4006040000 8) ∧
    (afterFetch.mapped 5 0x1018 .read 0x5000250018 ∧ accessPlace 0x5000250018 = .control ∧
      afterFetch.unitPresent (State.unitOf 0x5000250018) = true ∧ (findReg (State.unitOf 0x5000250018) 0x5000250018).isSome = true ∧
      0x1018 = (afterFetch.getK 5 2 + (0x1018 : BitVec 18).signExtend 64).toNat) ∧
    (afterFetch.mapped 5 0x1FFC .read 0x5000250FFC ∧ findReg (State.unitOf 0x5000250FFC) 0x5000250FFC = none) :=
  ⟨running_fetched, by decide, ⟨pool_mapped _, by decide, pool_clean⟩,
   ⟨control_mapped 0x18 _ (by decide) (.inl rfl), by decide⟩, control_mapped 0xFFC _ (by decide) (.inl rfl), by decide⟩

set_option maxRecDepth 20000 in
theorem witness_StoresComplete : running.fetched 5 afterFetch ∧
    (afterFetch.mapped 5 0 .write 0x4006040000 ∧ accessPlace 0x4006040000 = .seqPool) ∧
    (afterFetch.mapped 5 0x1FFC .write 0x5000250FFC ∧ findReg (State.unitOf 0x5000250FFC) 0x5000250FFC = none) ∧
    (afterFetch.mapped 5 0x1004 .write Reg.TIM_EVENT ∧ accessPlace Reg.TIM_EVENT = .control ∧
      (findReg (State.unitOf Reg.TIM_EVENT) Reg.TIM_EVENT).map RegDesc.access = some .w1c ∧
      (afterFetch.regStore 5 Reg.TIM_EVENT 0).2 = .ok) :=
  ⟨running_fetched, ⟨pool_mapped _, by decide⟩, ⟨control_mapped 0xFFC _ (by decide) (.inr rfl), by decide⟩,
   control_mapped 4 _ (by decide) (.inr rfl), by decide⟩

set_option maxRecDepth 20000 in
theorem witness_WalkedAccessesComplete : running.fetched 5 afterFetch ∧
    (placed (afterFetch.translate 5 0 .read .sequencer) = some 0x4006040000 ∧ accessPlace 0x4006040000 = .seqPool ∧
      [1, 2, 4, 8].all (fun n => (got ((afterFetch.translate 5 0 .read .sequencer).1.readMem .sequencer 5 0x4006040000 n)).isSome) =
        true) ∧
    (placed (afterFetch.translate 5 0x1018 .read .sequencer) = some Reg.TIM_INC_LO ∧ accessPlace Reg.TIM_INC_LO = .control ∧
      ((afterFetch.translate 5 0x1018 .read .sequencer).1.regLoad 5 Reg.TIM_INC_LO).2.1 = .ok) ∧
    placed (afterFetch.translate 5 0 .write .sequencer) = some 0x4006040000 ∧
    (placed (afterFetch.translate 5 0x1FFC .write .sequencer) = some 0x5000250FFC ∧ accessPlace 0x5000250FFC = .control ∧
      ((afterFetch.translate 5 0x1FFC .write .sequencer).1.regStore 5 0x5000250FFC 0).2 = .ok) :=
  ⟨running_fetched, by decide, by decide, by decide, by decide⟩

set_option maxRecDepth 20000 in
theorem witness_MisalignedAccessesTrap : running.fetched 5 afterFetch ∧
    (1 : BitVec 64) = afterFetch.getK 5 2 + (1 : BitVec 18).signExtend 64 := ⟨running_fetched, by decide⟩

/-- Register 2 holds 8 and register 3 a count of 8. -/
def copying : State := running.updCtx 5 (fun k => { k with k := (k.k.set 2 8).set 3 8 })

def afterCopying : State := (copying.fetch 5).1

set_option maxRecDepth 20000 in
theorem copying_mapped (off : Nat) (k : AccessKind) (h : off = 0 ∨ off = 8) (hk : k = .read ∨ k = .write) :
    afterCopying.mapped 5 off k (0x4006040000 + off) := by
  rcases h with rfl | rfl <;>
    exact ⟨3, 0x400604001F, ⟨by decide, by decide⟩, by rcases hk with rfl | rfl <;> decide, by decide⟩

set_option maxRecDepth 20000 in
theorem copying_clean : afterCopying.cleanAt 0x4006040008 8 := by
  unfold State.cleanAt
  decide

set_option maxRecDepth 20000 in
theorem witness_BlockInstructionsComplete :
    (running.fetched 5 afterFetch ∧ afterFetch.mapped 5 0 .cas 0x4006040000 ∧ accessPlace 0x4006040000 = .seqPool ∧
      afterFetch.cleanAt 0x4006040000 8 ∧ BitVec.ofNat 64 (leNat (afterFetch.rd 0x4006040000 8)) = afterFetch.getK 5 1) ∧
    (0 = (afterFetch.getK 5 0 + BitVec.ofNat 64 (8 * (afterFetch.ctx 5).beat)).toNat ∧ afterFetch.mapped 5 0 .read 0x4006040000 ∧
      afterFetch.mapped 5 0 .write 0x4006040000) ∧
    (afterFetch.getK 5 3 = 0 ∧ (dividing.fetch 5).1.getK 5 1 ≠ 0 ∧ BitVec.ofNat 64 (leNat ((dividing.fetch 5).1.rd 0x4006040000 8)) ≠
      (dividing.fetch 5).1.getK 5 1) ∧
    (copying.fetched 5 afterCopying ∧ afterCopying.getK 5 1 = 0 ∧ afterCopying.getK 5 2 = 8 ∧ afterCopying.getK 5 3 = 8 ∧
      State.beatBytes 8 0 (some 8) = 8 ∧ State.beatBytes 8 0 none = 8 ∧ afterCopying.mapped 5 8 .read 0x4006040008 ∧
      afterCopying.cleanAt 0x4006040008 8 ∧ afterCopying.mapped 5 0 .write 0x4006040000 ∧ State.overlaps 0 8 8 = false) :=
  ⟨⟨running_fetched, pool_mapped _, by decide, pool_clean, by decide⟩,
   ⟨by decide, pool_mapped _, pool_mapped _⟩, by decide,
   ⟨⟨by decide, by decide, by decide, Prod.ext rfl (by decide)⟩, by decide, by decide, by decide, by decide, by decide,
    copying_mapped 8 _ (.inr rfl) (.inl rfl), copying_clean, copying_mapped 0 _ (.inl rfl) (.inr rfl), by decide⟩⟩

set_option maxRecDepth 20000 in
theorem witness_BranchesComplete : running.fetched 5 afterFetch ∧ condHolds (afterFetch.ctx 5) 0 = true ∧
    condHolds (afterFetch.ctx 5) 1 = false ∧ (afterFetch.getK 5 2).toNat % 4 = 0 ∧
    (withK 3 9).fetched 5 ((withK 3 9).fetch 5).1 ∧ (((withK 3 9).fetch 5).1.getK 5 3).toNat % 4 ≠ 0 :=
  ⟨running_fetched, by decide, by decide, by decide, ⟨by decide, by decide, by decide, Prod.ext rfl (by decide)⟩, by decide⟩

/-- Context 5 runs with event 4 pending, inside a trap and an NMI. -/
def trapped : State := running.updCtx 5 (fun k => { k with evpend := 0x10, intrap := true, innmi := true })

set_option maxRecDepth 20000 in
theorem trapped_fetched : trapped.fetched 5 (trapped.fetch 5).1 :=
  ⟨by decide, by decide, by decide, Prod.ext rfl (by decide)⟩

set_option maxRecDepth 20000 in
theorem witness_EventInstructionsAndReturnsComplete :
    (running.fetched 5 afterFetch ∧
      ((afterFetch.updCtx 5 (fun k => { k with wdLeft := k.wdog })).ctx 5).evpend &&& 0x10 = 0 ∧
      (afterFetch.ctx 5).intrap = false ∧ (afterFetch.ctx 5).innmi = false) ∧
    (trapped.fetched 5 (trapped.fetch 5).1 ∧
      ((((trapped.fetch 5).1).updCtx 5 (fun k => { k with wdLeft := k.wdog })).ctx 5).evpend &&& 0x10 ≠ 0 ∧
      ((trapped.fetch 5).1.ctx 5).intrap = true ∧ ((trapped.fetch 5).1.ctx 5).innmi = true) ∧
    ((withK 3 5).fetched 5 ((withK 3 5).fetch 5).1 ∧ fld (((withK 3 5).fetch 5).1.getK 5 3) 0 6 = 5) :=
  ⟨⟨running_fetched, by decide⟩, ⟨trapped_fetched, by decide⟩,
   ⟨by decide, by decide, by decide, Prod.ext rfl (by decide)⟩, by decide⟩

/-- The supervisor runs as context 5 does above. -/
def supRuns : State :=
  let s := alone.updCtx 1 (fun k => { k with rstate := 2, xroot := 0x4006030000 })
  { s with tlb := running.tlb.map (fun t => { t with ctx := 1 }) }

set_option maxRecDepth 20000 in
theorem witness_SpecialRegistersComplete : running.fetched 5 afterFetch ∧ 5 ≠ afterFetch.super ∧
    supRuns.fetched 1 (supRuns.fetch 1).1 ∧ 1 = (supRuns.fetch 1).1.super :=
  ⟨running_fetched, by decide, ⟨by decide, by decide, by decide, Prod.ext rfl (by decide)⟩, by decide⟩

/-- Contexts 5 and 6 are READY; context 4 runs on every pair. -/
def scheduling (c : Nat) : State :=
  let s := (alone.updCtx 5 (fun k => { k with rstate := 1, prio := 3 })).updCtx 4 (fun k => { k with rstate := 2, prio := 1 })
  { s with seq := { s.seq with ready := [5], pairs := s.seq.pairs.map (fun p => { p with running := c }) } }

/-- Context 5 has a START and is in run state `r`. -/
def commanded (r : Nat) : State := alone.updCtx 5 (fun k => { k with start := 1, rstate := r })

set_option maxRecDepth 20000 in
theorem witness_SchedulingAndCommandsComplete :
    (((scheduling 0).seq.pairs.findIdx? (fun p => p.inService && p.running = 0)).isSome = true ∧ (scheduling 0).nextReady = some 5) ∧
    ((scheduling 4).seq.pairs[0]?).map Pair.running = some 4 ∧
    ((scheduling 4).seq.pairs.any (fun p => p.inService && p.running = 0) = false ∧ (scheduling 4).preemptVictim = some 4 ∧
      (scheduling 4).nextReady = some 5 ∧ ((scheduling 4).ctx 4).prio < ((scheduling 4).ctx 5).prio) ∧
    (5 ≠ (commanded 4).super ∧ ((commanded 4).ctx 5).start ≠ 0 ∧ ((commanded 4).ctx 5).rstate = 4) ∧ (alone.ctx 5).start = 0 := by
  decide

/-- The supervisor runs with an NMI pending; context 5 has a watchdog and a timer that has run out. -/
def eventful : State :=
  let s := (alone.updCtx 1 (fun k => { k with rstate := 2 })).updCtx 5 (fun k => { k with rstate := 2, wdog := 1, timer := 1 })
  { s with seq := { s.seq with nmi := some 0 } }

set_option maxRecDepth 20000 in
theorem witness_ContextEventsComplete :
    (eventful.clk.released = true ∧ eventful.boot.failed = false ∧ eventful.seq.nmi.isSome = true ∧
      (eventful.ctx eventful.super).rstate = 2 ∧ (eventful.ctx eventful.super).innmi = false) ∧
    ((eventful.ctx 5).timer ≠ 0 ∧ (eventful.ctx 5).timer.toNat ≤ (eventful.at_ 1).now ∧ (eventful.ctx 5).wdog ≠ 0 ∧
      (eventful.ctx 5).rstate = 2) ∧
    ((eventful.seq.pairs[0]?).isSome = true ∧ bit eventful.seq.retired 0 = false) := by decide

/-! ## Memory, movers and checks -/

/-- Translation slot `k` holds a fault of context 5. -/
def slotHeld (k : Nat) : State := alone.setReg (Reg.XLT_FS_INFO k) 0x80000005

set_option maxRecDepth 20000 in
theorem witness_TranslationsComplete :
    (bit (0x5 : Word) 10 = false ∧ 5 = fld (0x5 : Word) 0 6 ∧ 1 = alone.super ∧ 7 ≠ fld (0x5 : Word) 0 6 ∧ 7 ≠ alone.super) ∧
    (slotHeld 3).slotHolds 3 = true ∧ 5 = (slotHeld 3).rfld (Reg.XLT_FS_INFO 3) 0 6 ∧ 7 ≠ (slotHeld 3).super ∧
    (slotHeld 34).slotHolds 34 = true ∧ 5 = (slotHeld 34).rfld (Reg.XLT_FS_INFO 34) 0 6 ∧
    (slotHeld 35).clk.released = true ∧ (slotHeld 35).boot.failed = false ∧ 4 < (slotHeld 35).boot.phase := by decide

/-- A scrub of two lines of the DRAM has one line to go before its last. -/
def scrubbing : State := { alone with mu := { alone.mu with scrub := some { next := 0, left := 2, lines := 0, ce := 0, ue := 0, first := none } } }

/-- A low request waits on channel 2. -/
def asking : State := { alone with dmc := { alone.dmc with reqs := [{ chan := 2, cls := 2, who := 7 }] } }

set_option maxRecDepth 20000 in
theorem witness_MemoryUpkeepCompletes :
    (alone.mu.scrub = none ∧ (alone.setReg Reg.MEM_SCRUB_LEN 2).scrubRange 0 2 = true) ∧
    (scrubbing.mu.scrub.isSome = true ∧ scrubbing.sleeping 0 = none ∧ (scrubbing.scrubAt 0).2 = (0, false)) ∧
    (85 : Int) ≤ 85 ∧
    (alone.dmc.reqs.any (fun r => r.chan = 3) = false ∧ nth alone.dmc.postponed 3 0 = 0 ∧ bit alone.dmc.selfRef 3 = false) ∧
    asking.dmc.reqs.findIdx? (fun r => r.chan = 2 && 2 ≤ r.cls) = some 0 ∧ bit alone.dmc.failed 3 = false := by decide

/-- Context 5 owns channel 31, which runs with nothing fetched. -/
def chanRuns : State := (running.updCtx 5 (fun k => { k with dmamask := 0x80000000 })).updChan 31 (fun k => { k with st := ChanSt.RUN })

/-- The state `descriptorFetch` reads its descriptor in. -/
def reading : State := (chanRuns.setReg (Reg.DMA_CUR_LO 31) 0).setReg (Reg.DMA_CUR_HI 31) 0

def movedBytes (r : State × Moved) : Option Bytes :=
  match r.2 with
  | .ok bs => some bs
  | _ => none

def movedUncorr (r : State × Moved) : Bool :=
  match r.2 with
  | .uncorr => true
  | _ => false

/-- A descriptor of operation `op` that moves one page's first bytes within the page. -/
def descOf (op : Nat) : Desc := { va := 0, op := op, flags := 0, count := 8, src := 0, dst := 64, next := 0, param0 := 0 }

/-- Channel 31 has fetched a descriptor of operation `op`. -/
def holdsDesc (op : Nat) : State := chanRuns.updChan 31 (fun k => { k with desc := some (descOf op) })

set_option maxRecDepth 20000 in
theorem witness_ChannelsComplete :
    (alone.chanOwner 0 = 0 ∧ 5 ≠ 0 ∧ 5 = chanRuns.chanOwner 31 ∧ (alone.chan 31).st = ChanSt.IDLE ∧ (chanRuns.chan 31).st = ChanSt.RUN ∧
      (chanRuns.chan 31).desc = none ∧ (chanRuns.chan 31).hops < chanRuns.hopLimit 31 ∧ (chanRuns.chan 31).nextVa = 0) ∧
    (movedBytes (reading.engineRead .dma 5 (reading.chanClass 31) 0 64)).isSome = true ∧
    movedUncorr ({ reading with mu := { reading.mu with ues := [0x4006040000] } }.engineRead .dma 5 (reading.chanClass 31) 0 64) = true ∧
    chanRuns.hopLimit 31 ≤ ((chanRuns.updChan 31 (fun k => { k with hops := 65536 })).chan 31).hops ∧
    ((((holdsDesc 1).updChan 31 (fun k => { k with status := some DmaSt.OK })).chan 31).status = some DmaSt.OK ∧
      ((holdsDesc 1).decryptEnds 31 ((holdsDesc 1).chan 31) (descOf 1) DmaSt.OK).2 = true) ∧
    ((chanRuns.updChan 31 (fun k => { k with st := ChanSt.FAULT, faultAt := some 0 })).chan 31).faultAt = some 0 := by decide

set_option maxRecDepth 20000 in
theorem destination_free (op : Nat) (h : op < 7) : ((holdsDesc op).destination 31 (descOf op)).2 = true := by
  match op, h with
  | 0, _ | 1, _ | 2, _ | 3, _ | 4, _ | 5, _ | 6, _ => decide

/-- The page that context 5 sees at 0 begins with a segment header of generation 1, and its key slot is of that generation. -/
def sealed_ : State :=
  (State.setReg { holdsDesc 4 with mem := [(0x400604001C, 1)] } (Reg.CRY_GEN 0) 1).updCtx 5 (fun k => { k with keyslot := 0 })

/-- The bytes of that header. -/
def sealedHeader : Bytes := List.replicate 28 0 ++ [1] ++ List.replicate 83 0

set_option maxRecDepth 20000 in
theorem witness_TransfersStart :
    ((holdsDesc 1).mayStart 31 1 = some (descOf 1) ∧ (holdsDesc 2).mayStart 31 2 = some (descOf 2) ∧
      (holdsDesc 3).mayStart 31 3 = some (descOf 3) ∧ (holdsDesc 4).mayStart 31 4 = some (descOf 4) ∧
      (holdsDesc 5).mayStart 31 5 = some (descOf 5) ∧ (holdsDesc 6).mayStart 31 6 = some (descOf 6)) ∧
    ((holdsDesc 5).mv.infOwner = none ∧ (holdsDesc 6).mv.defOwner = none) ∧
    (movedBytes (State.engineReadAll 3 sealed_ .dma 5 (sealed_.chanClass 31) 0 112) = some sealedHeader ∧
      fieldLE sealedHeader 6 2 / 2 % 2 = 0 ∧ (sealed_.decryptKey 5 0 sealedHeader).2.toOption.isSome = true) ∧
    (((holdsDesc 1).updChan 31 (fun k => { k with started := true })).chan 31).started = true ∧ ((holdsDesc 1).chan 31).xf = .plain := by
  decide

/-- Checking unit `n` has a pass of context 5 at hand. -/
def checking (n : Nat) : State := running.updCvu n (fun k => { k with cur := some { ctx := 5, off := 0 } })

set_option maxRecDepth 20000 in
theorem witness_ChecksAndKeysComplete :
    (alone.rbit Reg.BST_OUT 3 = false ∧ (alone.cvu 3).cur = none ∧ (alone.cvu 3).queue = [] ∧ alone.cvuInSlice 3 = false) ∧
    (((checking 3).cvu 3).cur = some { ctx := 5, off := 0 } ∧ ((checking 3).cvu 3).queue.any (fun q => q.ctx = 5) = false) ∧
    (alone.setReg Reg.BST_OUT 8).rbit Reg.BST_OUT 3 = true ∧
    ((checking 3).slotHolds 35 = false ∧
      (({ checking 3 with mu := { (checking 3).mu with ues := [Config.seqPool, Config.seqPool] } }.readMem .cvu 5 Config.seqPool 32).2 matches .uncorr) = true) ∧
    (slotHeld 35).slotHolds 35 = true ∧
    (((checking 3).updCvu 3 (fun k => { k with faultAt := some 7 })).cvu 3).faultAt = some 7 ∧ bit (0x10F : Word) 8 = true := by decide

/-! ## Ethernet, time, cameras and the OBS port -/

/-- The Ethernet link is up. -/
def ethUp : State := ((alone.setReg Reg.ETH_CTRL 1).setReg Reg.ETH_STAT 7).setReg Reg.ETH_TXDB 0x80000000

set_option maxRecDepth 20000 in
theorem witness_PortsAndTraceComplete_eth : ethUp.clk.released = true ∧ ethUp.boot.failed = false ∧ ethUp.unitPresent 0x24 = true ∧
    ethUp.rbit Reg.ETH_CTRL 0 = true ∧ 10 ≤ ethUp.boot.phase ∧ ethUp.etherUp = true ∧ ethUp.rbit Reg.ETH_TXDB 31 = true := by decide

/-- The module takes its time by PTP. -/
def byPtp : State := alone.setReg Reg.TIM_CTRL 0x101

set_option maxRecDepth 20000 in
theorem witness_TimebaseAndTriggersComplete :
    (byPtp.mayTime 1 = true ∧ State.incFits (5 * 2 ^ 32) = true ∧ bit (setBit (0x1FF : Word) 8 false) 8 = false ∧
      bit (setBit (0 : Word) 8 true) 8 = true ∧
      (byPtp.setReg Reg.TIM_ADJ_HI (setFld (setFld 0 0 8 (fld (0x100 : Word) 0 8)) 8 1 (fld (0x100 : Word) 8 1))).stepBarred = false ∧
      alone.mayTime 1 = false) ∧
    (byPtp.rfld Reg.TIM_CTRL 0 2 = 1 ∧ byPtp.follows = false ∧ byPtp.rbit Reg.TIM_STAT 2 = false ∧
      ({ byPtp with clk := { byPtp.clk with ticks := byPtp.clk.ticks + 2 ^ 64 } }.at_ 1).clk.incAt + byPtp.rfld Reg.TIM_CTRL 8 8 * 100000000 ≤
        ({ byPtp with clk := { byPtp.clk with ticks := byPtp.clk.ticks + 2 ^ 64 } }.at_ 1).now) ∧
    ((alone.at_ 1).mayTrigger 1 3 = true ∧ (alone.at_ 1).mayTrigger 9 3 = false) ∧
    (((alone.updTrigger 3 (fun g => { g with armed := true })).at_ 1).trigger 3).armed = true ∧
    (((alone.updTrigger 3 (fun g => { g with armed := true })).at_ 1).trigger 3).nextAt ≤ (alone.at_ 1).now ∧
    (alone.at_ 1).pipeOn 1 = false ∧ ((alone.at_ 1).reg (Reg.TIM_TRG_PER 3)).toNat = 0 := by decide

/-- Pipe 1 takes port 1, with a trigger in its queue. -/
def filming : State := (alone.setReg (Reg.CAM_CFG 1) 3).updPipe 1 (fun k => { k with queue := [{ fseq := 0, gen := 0, at_ := 0, settings := [] }] })

def openFrame : CamFrame := { entry := { fseq := 0, gen := 0, at_ := 0, settings := [] }, fsAt := 0, lines := [], flags := 0, trunc := false }

set_option maxRecDepth 20000 in
theorem witness_CamerasComplete : filming.unitPresent 0x28 = true ∧ filming.portPipe 0 = none ∧ filming.portPipe 1 = some 1 ∧
    (filming.pipe 1).open_ = none ∧ (((filming.at_ 0).dropStaleEdges 1).pipe 1).queue.length = 1 ∧
    ((filming.updPipe 1 (fun k => { k with open_ := some openFrame })).pipe 1).open_ = some openFrame ∧
    openFrame.lines.length = filming.camHeight 1 ∧ filming.mayCamera 1 1 = true ∧
    fld (filming.reg (Reg.CAM_EXP_C 1)) 12 2 ≠ 2 := by decide

set_option maxRecDepth 20000 in
theorem witness_CameraCommitTakesOrRefusesAll : filming.mayCamera 1 1 = true ∧ fld (filming.reg (Reg.CAM_EXP_C 1)) 12 2 ≠ 2 ∧
    fld ((filming.setReg (Reg.CAM_EXP_C 1) 0x00412021).reg (Reg.CAM_EXP_C 1)) 12 2 = 2 ∧ 0x21 + 32 ≤ 0x41 ∧
    fld ((filming.setReg (Reg.CAM_EXP_C 1) 0x00402021).reg (Reg.CAM_EXP_C 1)) 16 16 < 0x21 + 32 := by decide

set_option maxRecDepth 20000 in
theorem witness_TimebaseIncrementIsHeldThenApplied : byPtp.clk.released = true ∧ byPtp.mayTime 1 = true ∧ byPtp.unitPresent 0x25 = true ∧
    (((byPtp.setReg Reg.TIM_INC_LO 0xFFFFF0E7).reg Reg.TIM_INC_LO).toNat + 2 ^ 32 * fld (4 : Word) 0 3 = 0x4FFFFF0E7 ∧
      49975 * 2 ^ 32 ≤ 10000 * 0x4FFFFF0E7 ∧ 10000 * 0x4FFFFF0E7 ≤ 50025 * 2 ^ 32) ∧
    10000 * ((byPtp.reg Reg.TIM_INC_LO).toNat + 2 ^ 32 * fld (0 : Word) 0 3) < 49975 * 2 ^ 32 ∧
    50025 * 2 ^ 32 < 10000 * ((byPtp.reg Reg.TIM_INC_LO).toNat + 2 ^ 32 * fld (6 : Word) 0 3) := by decide

theorem witness_ObsPortHasNoWrite : alone.boot.phase ≠ 0 ∧ bit (0x80 : Byte) 7 = true := by decide

theorem portWords_ok : ∃ bs u, State.portWords 1 alone Reg.IDC_PART = (u, .ok bs) := ⟨_, _, rfl⟩

set_option maxRecDepth 20000 in
theorem witness_PortsAndTraceComplete_obs : alone.boot.phase ≠ 0 ∧ 2 ≤ alone.boot.phase ∧
    (Reg.IDC_PART % 4 = 0 ∧ Reg.IDC_PART < 2 ^ 40 ∧ ∃ bs u, State.portWords 1 alone Reg.IDC_PART = (u, .ok bs)) ∧
    (2 ^ 40 - 4 + 4 : Nat) = 2 ^ 40 ∧ 252 + 4 * 1 ≤ 256 ∧ bit (0x80 : Byte) 7 = true ∧ bit (0x06 : Byte) 7 = false ∧
    { alone with obs := { alone.obs with lost := 3 } }.obs.lost ≠ 0 :=
  ⟨by decide, by decide, ⟨by decide, by decide, portWords_ok⟩, by decide⟩

set_option maxRecDepth 20000 in
theorem witness_UnlistedOffsetsAreSilent : alone.clk.released = true ∧ alone.boot.failed = false ∧ 4 < alone.boot.phase ∧
    Config.controlBase ≤ 0x500000FFFC ∧ 0x500000FFFC < Config.controlEnd ∧
    alone.unitPresent (State.unitOf 0x500000FFFC) = true ∧ findReg (State.unitOf 0x500000FFFC) 0x500000FFFC = none := by decide

set_option maxRecDepth 20000 in
theorem witness_RegisterWritesComplete :
    alone.unitPresent (State.unitOf 0x50000F0000) = false ∧ findReg (State.unitOf 0x500000FFFC) 0x500000FFFC = none ∧
    (findReg (State.unitOf Reg.IDC_PART) Reg.IDC_PART).map RegDesc.access = some .ro ∧
    (findReg (State.unitOf Reg.TIM_EVENT) Reg.TIM_EVENT).map RegDesc.access = some .w1c ∧
    (findReg (State.unitOf Reg.CRY_CLEAR) Reg.CRY_CLEAR).map RegDesc.access = some .sup := by decide

end Sys2Proof.Tests
end

section
/-! An access by a context to control space at an offset that the map of a present unit does not list (R7): what the
guards of a command and the access itself come to there. -/

namespace Sys2Proof.Machine

/-! ## Guards that let a command through -/

/-- Once the clocks run and start-up has not failed, a clocked command has its effect. -/
theorem whenClocked_of_released {s : State} (hr : s.clk.released = true) (hf : s.boot.failed = false)
    (o : State → State) : whenClocked s o = .next (o s).settle := by
  simp [whenClocked, hr, hf, done]

/-- Once start-up is past DRAM, a command that needs the memories has its effect. -/
theorem whenMemory_of_released {s : State} (hr : s.clk.released = true) (hf : s.boot.failed = false)
    (hp : 4 < s.boot.phase) (o : State → State) : whenMemory s o = .next (o s).settle := by
  rw [whenMemory, whenClocked_of_released hr hf, if_neg (Nat.not_le_of_lt hp)]

/-- A context's write of an aligned word of control space is the store, and what the context sees of it. -/
theorem execRegWrite_of_aligned_control {s : State} {w a : Nat} (v : Word) (hr : s.clk.released = true)
    (hf : s.boot.failed = false) (hp : 4 < s.boot.phase) (hw : 1 ≤ w) (hw' : w < 64) (hal : a % 4 = 0)
    (hlo : Config.controlBase ≤ a) (hhi : a < Config.controlEnd) :
    execRegWrite w a v s = .next (State.wrote (s.regStore w a v) w a).settle := by
  have hplace : ¬ (w = 0 || 64 ≤ w || a % 4 != 0 || a < Config.controlBase || Config.controlEnd ≤ a) = true := by
    simp
    omega
  rw [execRegWrite, whenMemory_of_released hr hf hp, if_neg hplace]

/-! ## Unlisted offsets -/

namespace State

/-- R7: a store to an unlisted offset of a present unit is discarded. -/
theorem regStore_unlisted {s : State} {a : Nat} (w : Nat) (v : Word) (hu : s.unitPresent (unitOf a) = true)
    (hn : findReg (unitOf a) a = none) : s.regStore w a v = (s, .ok) := by
  simp [regStore, hu, hn]

/-- R7: a load from an unlisted offset of a present unit gives 0 and captures nothing. -/
theorem regLoad_unlisted {s : State} {a : Nat} (w : Nat) (hu : s.unitPresent (unitOf a) = true)
    (hn : findReg (unitOf a) a = none) : s.regLoad w a = (s, .ok, 0) := by
  simp [regLoad, hu, hn]

end State

/-- Settles O60: the command comes to a store (`execRegWrite_of_aligned_control`), which an unlisted offset discards
without a result for the writer to see. -/
theorem unlistedOffsetsAreSilent : Obligations.UnlistedOffsetsAreSilent := by
  unfold Obligations.UnlistedOffsetsAreSilent
  intro s w a v hr hf hp hw hw' hal hlo hhi hu hn
  have hwrite : exec (.regWrite w a v) s = .next (State.settle s) := by
    calc exec (.regWrite w a v) s
      _ = execRegWrite w a v s := rfl
      _ = .next (State.wrote (s.regStore w a v) w a).settle :=
        execRegWrite_of_aligned_control v hr hf hp hw hw' hal hlo hhi
      _ = .next s.settle := by rw [State.regStore_unlisted w v hu hn, State.wrote]
  exact ⟨hwrite, State.regLoad_unlisted w hu hn⟩

end Sys2Proof.Machine
end

section
/-! Transmit points, the taking of lines, decisions and strobe edges: what each shared operation does once its guards
hold. -/

namespace Sys2Proof.Machine

/-- In READY a command that waits for it has its effect. -/
theorem whenReady_of_running {s : State} (hr : s.running = true) (o : State → State) :
    whenReady s o = .next (o s).settle := by
  simp [whenReady, hr, done]

namespace State

/-! ## Transmit points (R33, R159) -/

section TransmitPoint

variable {s : State} {w : Swath} {n : Int}

/-- Where the swath has no such line, or POS0 does not cross its transmit point, nothing happens. -/
theorem transmitPoint_notCrossed (hw : s.mot.current = some w)
    (hn : planHas w.plan n = false ∨
      s.crosses w.plan.dir (s.gridPoint (if w.plan.dir = 0 then n - 8 else n + 8)) = false) :
    s.transmitPoint n = s := by
  rcases hn with hn | hn <;> simp [transmitPoint, hw, hn]

variable (hw : s.mot.current = some w) (ho : s.owns = true) (hh : planHas w.plan n = true)
  (hx : s.crosses w.plan.dir (s.gridPoint (if w.plan.dir = 0 then n - 8 else n + 8)) = true)
include hw ho hh hx

/-- A line that is not the swath's first, or whose transmit point has been passed before, counts as crossed. -/
theorem transmitPoint_later
    (hl : n ≠ planFirst w.plan ∨ w.firstOrd + (planIndex w.plan n).toNat < s.crn.crossed) :
    s.transmitPoint n =
      { s with crn := { s.crn with crossed := max s.crn.crossed (w.firstOrd + (planIndex w.plan n).toNat + 1) } } := by
  have hfirst : ¬ (n = planFirst w.plan ∧ s.crn.crossed ≤ w.firstOrd + (planIndex w.plan n).toNat) := by omega
  simp [transmitPoint, hw, ho, hh, hx, hfirst]

/-- At the swath's first transmit point a trim upload and an ALIGN that are still open come to their end first. -/
theorem transmitPoint_first (hf : n = planFirst w.plan)
    (hc : s.crn.crossed ≤ w.firstOrd + (planIndex w.plan n).toNat) :
    s.transmitPoint n =
      let v := s.trimNack.alignMissed
      { v with
        twn := { v.twn with lates := 0 },
        crn := { v.crn with crossed := max v.crn.crossed (w.firstOrd + (planIndex w.plan n).toNat + 1) } } := by
  have hfirst : (decide (n = planFirst w.plan) &&
      decide (s.crn.crossed ≤ w.firstOrd + (planIndex w.plan n).toNat)) = true := by simp [hf ▸ hc, hf]
  simp only [transmitPoint, hw, ho, hh, hx, hfirst, Bool.not_true, Bool.or_self, if_true, Bool.false_eq_true, if_false]

end TransmitPoint

/-! ## Taking a line (R160) -/

/-- The oldest line that waits is taken when its transmit point has been crossed and the head links are free for it. -/
theorem lineTake_crossed {s : State} {w : Swath} {l : CLine} (hw : s.mot.current = some w) (ho : s.owns = true)
    (hf : s.crn.window.find? (fun l => !l.taken && !l.dropped) = some l) (ht : s.pins.town = true)
    (hs : s.hlk.selecting = false) (hl : l.layer = w.plan.layer) (hk : l.swath = w.plan.swath)
    (hc : l.ord < s.crn.crossed) : s.lineTake = s.takeLine w.plan l := by
  simp [lineTake, hf, hw, ho, ht, hs, hl, hk, hc]

/-! ## Strobe edges (R240, R244) -/

/-- Row `r` of the line is decided, and its pulse has not left. -/
def pulseDue (r : Nat) (l : CLine) : Bool :=
  match l.rows[r]? with
  | some .toFire => true
  | some (.toSkip _) => true
  | _ => false

/-- The edge of a row falls to the oldest line whose pulse in that row is due. -/
theorem strobe_oldest {s : State} {r : Nat} {n : Int} {l : CLine} {p : SwathPlan} {want : RowPulse} (t : Nat)
    (ho : s.owns = true) (hf : s.crn.window.find? (pulseDue r) = some l) (hn : l.line = n)
    (hp : s.planOf l.layer l.swath = some p) (hw : l.rows[r]? = some want) :
    s.strobe r n t = s.edgeNow l p.dir r t want := by
  unfold strobe
  dsimp only
  split
  case h_1 hnone => cases hnone.symm.trans hf
  case h_2 k hk =>
    obtain rfl : k = l := Option.some.inj (hk.symm.trans hf)
    simp [hn, ho, hp, hw]

/-- The skip window ends 10,000 PCLK after the gate has opened. -/
theorem skipOver_elapsed {s : State} {o t : Nat} (ho : s.saf.openedAt = some o) (hs : s.saf.skipWindow = true)
    (hp : s.permitted = true) (ht : o + 10000 ≤ t) :
    s.skipOver t = { s with saf := { s.saf with skipWindow := false } } := by
  simp [skipOver, ho, hs, hp, ht]

end State

/-! ## The commands -/

theorem exec_transmitPoint_of_running {s : State} (hr : s.running = true) (n : Int) (t : Nat) :
    exec (.transmitPoint ⟨n, t⟩) s = .next ((s.at_ t).transmitPoint n).settle :=
  show execTransmitPoint ⟨n, t⟩ s = _ from whenReady_of_running hr _

theorem exec_lineTake_of_running {s : State} (hr : s.running = true) : exec .lineTake s = .next s.lineTake.settle :=
  show execLineTake s = _ from whenReady_of_running hr _

theorem exec_decisionCrossing_of_running {s : State} (hr : s.running = true) (n : Int) (t : Nat) :
    exec (.decisionCrossing n t) s = .next ((s.at_ t).decide_ n t).settle :=
  show execDecisionCrossing n t s = _ from whenReady_of_running hr _

theorem exec_strobeEdge_of_running {s : State} (hr : s.running = true) (r : Nat) (n : Int) (t : Nat) :
    exec (.strobeEdge r n t) s = .next ((s.at_ t).strobe r n t).settle :=
  show execStrobeEdge r n t s = _ from whenReady_of_running hr _

theorem exec_skipWindowEnd_of_released {s : State} (hr : s.clk.released = true) (hb : s.boot.failed = false) (t : Nat) :
    exec (.skipWindowEnd t) s = .next ((s.at_ t).skipOver t).settle :=
  show execSkipWindowEnd t s = _ from whenClocked_of_released hr hb _

/-- Settles O20: each clause is what its command comes to in READY (the skip window's, once the clocks run), and then
the rule of the operation behind it in the state to which the clock has run on. -/
theorem linesAndStrobesComplete : Obligations.LinesAndStrobesComplete := by
  unfold Obligations.LinesAndStrobesComplete
  refine ⟨fun s w hr ho hw => ⟨?transmitPoint, ?notCrossed, ?lineTake⟩,
    fun s t => ⟨fun n hr => exec_decisionCrossing_of_running hr n t, ?strobeEdge, ?skipWindowEnd⟩⟩
  case transmitPoint =>
    rintro n t u rfl hh hx
    have hw' : (s.at_ t).mot.current = some w := by rw [State.at__mot, hw]
    have ho' : (s.at_ t).owns = true := by rw [State.at_owns_eq, ho]
    rw [exec_transmitPoint_of_running hr]
    constructor
    · intro hl
      rw [State.transmitPoint_later hw' ho' hh hx (by rwa [State.at__crn])]
    · rintro hf hc v rfl
      rw [State.transmitPoint_first hw' ho' hh hx hf (by rwa [State.at__crn])]
  case notCrossed =>
    intro n t hn
    have hw' : (s.at_ t).mot.current = some w := by rw [State.at__mot, hw]
    rw [exec_transmitPoint_of_running hr, State.transmitPoint_notCrossed hw' hn]
  case lineTake =>
    intro l hf ht hs hl hk hc
    rw [exec_lineTake_of_running hr, State.lineTake_crossed hw ho hf ht hs hl hk hc]
  case strobeEdge =>
    intro r n l p want hr ho hf hn hp hwant
    have ho' : (s.at_ t).owns = true := by rw [State.at_owns_eq, ho]
    have hf' : (s.at_ t).crn.window.find? (State.pulseDue r) = some l := by rw [State.at__crn]; exact hf
    rw [exec_strobeEdge_of_running hr, State.strobe_oldest t ho' hf' hn hp hwant]
  case skipWindowEnd =>
    intro o hr hb ho hs hp ht
    have ho' : (s.at_ t).saf.openedAt = some o := by rw [State.at__saf, ho]
    have hs' : (s.at_ t).saf.skipWindow = true := by rw [State.at__saf, hs]
    have hp' : (s.at_ t).permitted = true := by rw [State.at_permitted_eq, hp]
    rw [exec_skipWindowEnd_of_released hr hb, State.skipOver_elapsed ho' hs' hp' ht, State.at__saf]

end Sys2Proof.Machine
end

section
/-! A MODE directive that is accepted: the setting its record spells, and what becomes of it. -/

namespace Sys2Proof.Machine

/-- One byte of a little-endian number. -/
theorem fieldLE_leBytes_byte (n x i : Nat) (hi : i < n) : fieldLE (leBytes n x) i 1 = x / 256 ^ i % 256 := by
  induction n generalizing x i with
  | zero => omega
  | succ n ih =>
    cases i with
    | zero => simp [fieldLE, leBytes, leNat]
    | succ i =>
      calc fieldLE (leBytes (n + 1) x) (i + 1) 1
        _ = fieldLE (leBytes n (x / 256)) i 1 := rfl
        _ = x / 256 / 256 ^ i % 256 := ih _ _ (by omega)
        _ = x / 256 ^ (i + 1) % 256 := by rw [Nat.div_div_eq_div_mul, Nat.pow_succ']

namespace State

/-! ## The settings of a MODE record (R104) -/

section Setting

variable {raw : Bytes} (h : (parseMode raw).isSome = true)
include h

theorem parseMode_bankSel (hk : fieldLE raw 8 1 = 1) :
    parseMode raw = some (.bankSel (fieldLE raw 9 1) (fieldLE raw 24 8)) := by
  simpa [parseMode, hk] using h

theorem parseMode_rowMap (hk : fieldLE raw 8 1 = 2) :
    parseMode raw = some (.rowMap (BitVec.ofNat 64 (fieldLE raw 24 8))) := by
  simpa [parseMode, hk] using h

theorem parseMode_maskSel (hk : fieldLE raw 8 1 = 3) :
    parseMode raw = some (.maskSel (fieldLE raw 9 1) (fieldLE raw 24 8 % 8) (fieldLE raw 24 8 / 256 + 1)) := by
  simpa [parseMode, hk, and_assoc] using h

theorem parseMode_halftone (hk : fieldLE raw 8 1 = 4) :
    parseMode raw = some (.halftone (fieldLE raw 9 1) (fieldLE raw 24 8 % 256) (fieldLE raw 24 8 / 2 ^ 8 % 256)
      (fieldLE raw 24 8 / 2 ^ 16 % 256) (fieldLE raw 24 8 / 2 ^ 24 % 256) (fieldLE raw 24 8 / 2 ^ 32 % 256)) := by
  simpa [parseMode, hk, fieldLE_leBytes_byte, and_assoc] using h

end Setting

/-! ## The effect of a MODE directive (R42, R177, R323) -/

theorem runDirective_mode (s : State) (x : Nat) {raw : Bytes} {m : ModeSetting} (hm : parseMode raw = some m) :
    s.runDirective x Dir.MODE raw =
      (s.applySetting x (s.stream x).cairnNow m (modePos raw)).tellMode m (modePos raw) false := by
  simp [runDirective, hm, Dir.MODE, Dir.HOME, Dir.LAYER_BEGIN, Dir.SWATH, Dir.LAYER_END, Dir.BANK_LOAD, Dir.WAVE_LOAD,
    Dir.MASK_LOAD, Dir.CURVE_LOAD]

/-- Every setting but a binding is distributed. -/
theorem tellMode_of_ne_binding (s : State) {m : ModeSetting} (p : BuildPos) (cancel : Bool)
    (hm : ∀ id c mt k, m ≠ .binding id c mt k) : s.tellMode m p cancel = s.distribute 6 (modeBytes m p cancel) := by
  cases m with
  | binding id c mt k => exact absurd rfl (hm id c mt k)
  | _ => rfl

/-- An accepted MODE directive is mirrored, its setting executes and is distributed, and it leaves the stream. -/
theorem execDirective_mode {s v : State} {x : Nat} {r : PendRec} {raw : Bytes} {m : ModeSetting} (is : Nat → Bytes → Bool)
    (h : s.accepts x r Dir.MODE raw) (hv : v = (s.goOn x).mirror 4 (outcomeBytes x 0 0 r.segno r.off))
    (hi : is Dir.MODE raw = true) (hp : parseMode raw = some m) (hm : ∀ id c mt k, m ≠ .binding id c mt k) :
    s.execDirective x is = State.popRec ((v.applySetting x (v.stream x).cairnNow m (modePos raw)).distribute 6
      (modeBytes m (modePos raw) false)) x := by
  rw [execDirective_accepts is h hi, ← hv, runDirective_mode v x hp, tellMode_of_ne_binding _ _ _ hm]

/-- The record of an accepted MODE directive spells a setting. -/
theorem accepts.parseMode_isSome {s : State} {x : Nat} {r : PendRec} {raw : Bytes} (h : s.accepts x r Dir.MODE raw) :
    (parseMode raw).isSome = true := by
  obtain ⟨_, _, hrefusal⟩ := h
  exact parseMode_of_refusal hrefusal

theorem accepts.running {s : State} {x typ : Nat} {r : PendRec} {raw : Bytes} (h : s.accepts x r typ raw) :
    s.running = true := by
  obtain ⟨⟨hrunning, _⟩, _⟩ := h
  exact hrunning

/-- In READY a command for the MODE directive that is next and accepted executes its setting. -/
theorem whenReady_mode {s v : State} {x : Nat} {r : PendRec} {raw : Bytes} {m : ModeSetting} {is : Nat → Bytes → Bool}
    (h : s.accepts x r Dir.MODE raw) (hv : v = (s.goOn x).mirror 4 (outcomeBytes x 0 0 r.segno r.off))
    (hi : is Dir.MODE raw = true) (hp : parseMode raw = some m) (hm : ∀ id c mt k, m ≠ .binding id c mt k) :
    whenReady s (fun s => s.execDirective x is) = .next (State.settle (State.popRec
      ((v.applySetting x (v.stream x).cairnNow m (modePos raw)).distribute 6 (modeBytes m (modePos raw) false)) x)) := by
  rw [whenReady_of_running h.running, execDirective_mode is h hv hi hp hm]

end State

/-- Settles O18: the record of an accepted MODE spells a setting (`accepts.parseMode_isSome`), which its SETTING code
names (`parseMode_bankSel` and its like), and the command of that code executes it (`State.whenReady_mode`). -/
theorem modesComplete : Obligations.ModesComplete := by
  unfold Obligations.ModesComplete
  rintro s v x g n r raw p put h hv rfl rfl rfl rfl
  have hset := h.parseMode_isSome
  refine ⟨fun hk => ?bankSel, fun hk => ?rowMap, fun hk => ?maskSel, fun hk => ?halftone⟩
  case bankSel =>
    show execModeBankSel x s = _
    exact State.whenReady_mode h hv (by simp [hk]) (State.parseMode_bankSel hset hk) nofun
  case rowMap =>
    show execModeRowmap x s = _
    exact State.whenReady_mode h hv (by simp [hk]) (State.parseMode_rowMap hset hk) nofun
  case maskSel =>
    show execModeMaskSel x s = _
    exact State.whenReady_mode h hv (by simp [hk]) (State.parseMode_maskSel hset hk) nofun
  case halftone =>
    show execModeHalftone x s = _
    exact State.whenReady_mode h hv (by simp [hk]) (State.parseMode_halftone hset hk) nofun

end Sys2Proof.Machine
end

section
/-! The fire gate and the build state HELD after every step (R98, R290, R483): a command's answer either has had what
follows at once applied, which makes the gate and the build state follow the causes (`State.settle_sound`), or leaves
everything the invariant reads as it was. -/

namespace Sys2Proof.Machine

/-! ## What the invariant reads -/

/-- All that `State.sound` looks at is as it was. -/
structure State.SameGate (t s : State) : Prop where
  fireGate : t.pins.fireGate = s.pins.fireGate
  saf : t.saf = s.saf
  role : t.twn.role = s.twn.role
  bstate : t.mot.bstate = s.mot.bstate

namespace State

theorem SameGate.refl (s : State) : SameGate s s := ⟨rfl, rfl, rfl, rfl⟩

theorem SameGate.trans {u t s : State} (h : SameGate u t) (k : SameGate t s) : SameGate u s :=
  ⟨h.fireGate.trans k.fireGate, h.saf.trans k.saf, h.role.trans k.role, h.bstate.trans k.bstate⟩

theorem SameGate.sound {t s : State} (h : SameGate t s) : t.sound = s.sound := by
  simp only [State.sound, gateSound, heldSound, heldCause, h.fireGate, h.saf, h.role, h.bstate]

theorem SameGate.foldl {α : Type} {f : State → α → State} (h : ∀ s a, SameGate (f s a) s) (l : List α) (s : State) :
    SameGate (l.foldl f s) s := by
  induction l generalizing s with
  | nil => exact .refl s
  | cons a l ih => exact (ih (f s a)).trans (h s a)

/-- The passing of time moves the clock alone. -/
theorem tick_sameGate (s : State) (n : Nat) : SameGate (s.tick n) s := by
  unfold tick
  split <;> exact ⟨rfl, rfl, rfl, rfl⟩

/-- R556: leg counts are calibration values. -/
theorem applyLegs_sameGate (s : State) (k : LinkId) : SameGate (s.applyLegs k) s := by
  unfold applyLegs
  refine SameGate.foldl (fun s n => ?_) _ s
  dsimp only
  split <;> exact ⟨rfl, rfl, rfl, rfl⟩

end State

/-! ## Answers that keep the invariant -/

/-- An answer to which what follows at once has been applied, or one that leaves what the invariant reads. -/
inductive KeepsGate (s : State) : Out → Prop
  | settled (u : State) : KeepsGate s (done u)
  | untouched {t : State} (h : t.SameGate s) : KeepsGate s (.next t)

namespace KeepsGate

variable (s : State)

theorem sound {s t : State} {o : Out} (h : KeepsGate s o) (ho : o = .next t) (hs : s.sound = true) : t.sound = true := by
  cases h with
  | settled u =>
    obtain rfl : u.settle = t := Host.Outcome.next.inj ho
    exact u.settle_sound
  | untouched h =>
    obtain rfl := Host.Outcome.next.inj ho
    rw [h.sound, hs]

theorem ignored : KeepsGate s (.next s) := .untouched (.refl s)

theorem ite {s : State} {c : Prop} [Decidable c] {a b : Out} (ha : KeepsGate s a) (hb : KeepsGate s b) :
    KeepsGate s (if c then a else b) := by
  split
  · exact ha
  · exact hb

/-- A command that acts under a condition and is ignored otherwise. -/
theorem settledIf (c : Prop) [Decidable c] (u : State) : KeepsGate s (if c then done u else .next s) :=
  .ite (.settled u) (.ignored s)

/-! ### The guards of the commands -/

theorem whenClocked (o : State → State) : KeepsGate s (whenClocked s o) := .settledIf s _ _

theorem whenReady (o : State → State) : KeepsGate s (whenReady s o) := .settledIf s _ _

theorem whenMemory (o : State → State) : KeepsGate s (whenMemory s o) := .whenClocked s _

theorem whenPort (o : State → State) : KeepsGate s (s.whenPort o) := .ite (.ignored s) (.settled _)

theorem whenMessage (l : Nat) (o : State → State) : KeepsGate s (s.whenMessage l o) :=
  .ite (.ignored s) (.ite (.settled _) (.settledIf s _ _))

theorem statusFrame (l : Nat) (good : Bool) (o : State → State) : KeepsGate s (statusFrame s l good o) := .whenReady s _

theorem instruction (c : Nat) (act : State → State) : KeepsGate s (instruction c s act) := .whenClocked s _

theorem twinFrame (h : FrameHdr) (o : State → State) : KeepsGate s (twinFrame s h o) := by
  unfold Machine.twinFrame
  refine .ite ?_ (.ignored s)
  split
  · exact .settled _
  · exact .settled _

theorem cscFrame (h : CscHdr) (typ : Nat) (body : Bytes) (o : State → State) : KeepsGate s (cscFrame s h typ body o) := by
  unfold Machine.cscFrame
  refine .ite ?_ (.ignored s)
  split
  · exact .ite (.settled _) (.settled _)
  · exact .settled _

/-! ### Commands with guards of their own -/

/-- R516: in a module that has failed only the pin's level changes. -/
theorem presentNRise : KeepsGate s (execPresentNRise s) := .ite (.untouched ⟨rfl, rfl, rfl, rfl⟩) (.settled _)

theorem mbistDone (fails : List MbistFail) : KeepsGate s (execMbistDone fails s) := by
  unfold execMbistDone
  refine .ite ?_ (.ignored s)
  split
  · exact .settled _
  · exact .settled _

/-- A link's state is none of the gate's. -/
theorem linkEnable (k : LinkId) : KeepsGate s (execLinkEnable k s) :=
  .ite (.untouched ((State.applyLegs_sameGate _ k).trans ⟨rfl, rfl, rfl, rfl⟩)) (.ignored s)

theorem detectRetry (k : LinkId) (sensed : Bool) : KeepsGate s (execDetectRetry k sensed s) :=
  .ite (.untouched ((State.applyLegs_sameGate _ k).trans ⟨rfl, rfl, rfl, rfl⟩)) (.ignored s)

end KeepsGate

/-! ## Every command -/

/-- Every command's answer keeps the invariant, by the guard behind which the command acts. -/
theorem exec_keepsGate (i : Instr) (s : State) : KeepsGate s (exec i s) := by
  unfold exec
  cases i with
  | clkMonEvent | rpllUnlock | dieHot | faultMessage | fcoErrclr | fcoInject | fcoLogTail | interlockDemand
  | interlockPermit | discrepancy | gateRb | safXchk | safRearm | jobDataFrame | jobIdleAck | jobRetxTimeout
  | jobIdleDue | jobLinkSilent | jobTxq | rdgPost | rdgRetry | rdgRetryAbandon | crnLwCtrl | actEditMask
  | actEditUnmask | actEditRevive | actEditDgain | actEditFdelay | skipWindowEnd | plnLimitWrite | plnEdit | quadEdge
  | amplitude | ssiRead | probeEdge | posCmpArm | compareFire | comparePulseEnd | stepperHoldCurrent | axisRecordWrite
  | tpeerSilent | twinWaitExpiry | twinLinkLost | twnCmdRetire | twnCmdHandover | syncTimeout | leadLost | cscLost
  | joinRetry | dispatch | quantumExpiry | preempt | nmiTaken | timerExpiry | contextWatchdog | supWatchdog
  | lockstepFail | accessTimeout | ccmdHalt | ccmdResume | ccmdRestart | ccmdPrio | ethRxFrame | ethTxdb | ethTxDone
  | ethLinkLoss | timIncWrite | timAdjSlew | timAdjStep | ptpHoldover | triggerArm | triggerEdge | csiFrameStart
  | csiLongPacket | csiFrameEnd | camStatsRecord | camCommit | cscLinkSilent | sincosSample | ethAnDone
  | illegalInstruction => exact .whenClocked s _
  | bistSliceDone | bistBudgetCut | segmentStored | closedStatusRepeat | jobFree | jobHalt | jobOpen | jobClose
  | segmentAccept | binding | geomEnd | cairn | cairnAck | home | layerBegin | swath | layerEnd | park | waitDirective
  | waitTimeout | directiveStallRelease | bankLoad | waveLoad | maskLoad | curveLoad | modeBankSel | modeRowmap
  | modeMaskSel | modeHalftone | region | bandFetchDone | slicePosted | haloValue | transmitPoint | lineTake
  | carriageInPlace | gateEdge | testWindowsClosed | holdTimeout | fireAckTimeout | decisionCrossing | strobeEdge
  | servoTick | axpDriveFrame | axisMoveDone | colStart | firingSpanStart | stepEdge | stall | switchChange
  | switchChatter | switchRecover | shadowValue | tiebreakCheck => exact .whenReady s _
  | xltInval | xltInvalAll | xltResume | xltResumeAbandon | scrubGo | scrubLine | refresh | dramTempRead
  | selfRefreshEntry | selfRefreshExit | requestPromotion | channelFail | dmaGo | dmaStop | descriptorFetch | dmaCopy
  | dmaFill | dmaCompare | dmaDecrypt | dmaInflate | dmaDeflate | dmaBeat | descriptorComplete | dmaXfHoldExpiry
  | cvuGo | cvuPassDone | cvuXfHoldExpiry | cryClear | regWrite => exact .whenMemory s _
  | add | sub | and | or | xor | shl | shr | sar | mul | mulhu | mulhs | divu | divs | remu | addi | andi | ori | xori
  | shli | shri | sari | cmp | tst | cmpi | kset | kapp | ldb | ldh | ldw | ldd | ldbs | ldhs | ldws | stb | sth | stw
  | std | cas | ldm | stm | bcopy | bfill | b | bl | jr | jlr | wait | poll | signal | settmr | yield | halt | tret
  | tretNmi | rdsr | wrsr | wdog | nop => exact .instruction s _ _
  | segment | screeAck | retry | resume | abort => exact .whenMessage s _ _
  | fireAck | voidAck | orderAck | temp | nozzleFault | driverFault | testDone => exact .statusFrame s _ _ _
  | twinRole | twinCrc | twinTime | twinCascade | twinSync | twinTiebreak | twinHandover | twinSegment | twinOutcome
  | twinTxrec | twinScree | twinActrec | twinAxis | twinLinkmsg | twinWrite => exact .twinFrame s _ _
  | cscJoin | cscAccept | cscTime | cscPlan | cscEdit | cscMode | cscAxis | cscCol | cscSwgate | cscState | cscReport
  | cscHb => exact .cscFrame s _ _ _ _
  | obsIdent | obsBoot | obsRead | obsRetain | obsSnap | obsWriteTry | traceLostSend | obsBadcmd => exact .whenPort s _
  | rpllLock | rpllLockTimeout | lbistDone | dramInitDone | imageVerified | keysLoaded | loadDone | calDone | lanesDone
  | lanesTimeout | twinIdleAck | twinRetxTimeout | twinTimeSend | linkDisable | trnReceived | trainTimeout | capxReceived
  | eyeWindow | deskewError | lossOfSignal | failedRetry | linkDown | blindStartActive | converterRotation
  | converterHandover | delayLineCal | terminationCal | twinIdleDue | cscIdleAck | cscRetxTimeout | cscIdleDue
  | tdeltaExceeded => exact .settledIf s _ _
  | powerUp => exact .ite (.settled _) (.settledIf s _ _)
  | rstNLow | modEnLow => exact .settled _
  | vmonEvent => exact .ite (.ignored s) (.settled _)
  | obsCsRise => exact .untouched ⟨rfl, rfl, rfl, rfl⟩
  | presentNRise => exact .presentNRise s
  | mbistDone fails => exact .mbistDone s fails
  | linkEnable k => exact .linkEnable s k
  | detectRetry k sensed => exact .detectRetry s k sensed

/-- Settles O5: a PCLK changes nothing the invariant reads, and every command's answer keeps it (`exec_keepsGate`). -/
theorem everyStepKeepsTheGateSound : Obligations.EveryStepKeepsTheGateSound := by
  unfold Obligations.EveryStepKeepsTheGateSound
  intro s t hs ht
  unfold step at ht
  split at ht
  case h_1 =>
    obtain rfl := Host.Outcome.next.inj ht
    rw [(s.tick_sameGate 1).sound, hs]
  case h_2 c rest _ => exact (exec_keepsGate c { s with pending := rest }).sound ht hs

end Sys2Proof.Machine
end

section
/-! Messages of a job link: what becomes of one in READY and before it, and the registers of the segment keeper. -/

namespace Sys2Proof.Machine

namespace State

theorem not_failed_of_running {s : State} (hr : s.running = true) : s.boot.failed = false := by
  simp [running] at hr
  exact hr.2

/-! ## Whole messages (R63, R295, R504) -/

/-- In READY the module that owns the outputs acts on a message. -/
theorem whenMessage_of_owner {s : State} {l : Nat} (ha : s.linkActive (.job l) = true) (hr : s.running = true)
    (ho : s.owns = true) (o : State → State) : s.whenMessage l o = .next (o s).settle := by
  simp [whenMessage, ha, not_failed_of_running hr, hr, hears, ho, done]

/-- Before READY a message is discarded and counted. -/
theorem whenMessage_before_ready {s : State} {l : Nat} (ha : s.linkActive (.job l) = true) (hr : s.running = false)
    (hf : s.boot.failed = false) (o : State → State) : s.whenMessage l o = .next (s.count (Reg.JOB_ERR l) 1).settle := by
  simp [whenMessage, ha, hf, hr, jobErr, done]

/-- R67: SCREE_ACK is mirrored and moves the edge; the swath that this releases starts. -/
theorem screeAckMsg_eq (s : State) (l upTo : Nat) {u : State}
    (hu : u = (s.mirror 9 ([BitVec.ofNat 8 l, 0, 0, 0, 0, 0, 0, 0, 0x82, 0, 0, 0] ++ leBytes 4 upTo)).screeAck l upTo) :
    s.screeAckMsg l upTo = if s.scree.held = true ∧ u.scree.held = false then u.startSwath else u := by
  subst hu
  have hbytes : leBytes 1 l ++ List.replicate 7 0 ++ ([0x82, 0, 0, 0] ++ leBytes 4 upTo) =
      [BitVec.ofNat 8 l, 0, 0, 0, 0, 0, 0, 0, 0x82, 0, 0, 0] ++ leBytes 4 upTo := rfl
  simp only [screeAckMsg, mirrorMsg, hbytes, Bool.and_eq_true, Bool.not_eq_true']

end State

/-- Settles O14: behind the guard of a message (`State.whenMessage_of_owner`, `State.whenMessage_before_ready`) each
message is its own operation; only SCREE_ACK's is spelled out by the statement (`State.screeAckMsg_eq`). -/
theorem jobMessagesComplete : Obligations.JobMessagesComplete := by
  unfold Obligations.JobMessagesComplete
  refine ⟨fun s l ha hr ho => ?ready, fun s l x msg n ha hr hf => ?early⟩
  case ready =>
    have heard := State.whenMessage_of_owner ha hr ho
    refine ⟨fun msg => ?segment, fun upTo u hu => ?screeAck, fun x => ?retry, fun x cairn segno => ?resume, fun x => ?abort⟩
    case segment => exact show execSegment l msg s = _ from heard _
    case screeAck =>
      show execScreeAck l upTo s = _
      rw [execScreeAck, heard, State.screeAckMsg_eq s l upTo.toNat hu]
    case retry => exact show execRetry l x s = _ from heard _
    case resume => exact show execResume l x cairn segno s = _ from heard _
    case abort => exact show execAbort l x s = _ from heard _
  case early =>
    have counted := State.whenMessage_before_ready ha hr hf
    exact ⟨show execSegment l msg s = _ from counted _, show execScreeAck l n s = _ from counted _,
      show execRetry l x s = _ from counted _, show execResume l x n n s = _ from counted _,
      show execAbort l x s = _ from counted _⟩

end Sys2Proof.Machine
end

section
/-! The registers of the segment keeper (R68, R69, R95, R445, R447): what a write does for a stream that is configured. -/

namespace Sys2Proof.Machine

namespace State

theorem ownsStream_self (s : State) (x : Nat) : s.ownsStream x x = true := by simp [ownsStream]

/-! ## The descriptor of a stream -/

/-- A change of a stream that keeps its descriptor keeps every stream's. -/
theorem desc_updStream (s : State) (x y : Nat) {f : Stream → Stream} (hf : ∀ st, (f st).desc = st.desc) :
    ((s.updStream x f).stream y).desc = (s.stream y).desc := by
  by_cases hy : y = x
  · subst hy
    by_cases hlen : y < s.streams.length
    · simp only [stream, updStream, nth_upd_self _ _ _ hlen, hf]
    · have hsame : upd s.streams y f = s.streams := List.modify_eq_self (by omega)
      simp only [stream, updStream, hsame]
  · simp only [stream, updStream, nth_upd_ne _ _ _ hy]

theorem desc_keepCairn (s : State) (x y : Nat) : ((s.keepCairn x).stream y).desc = (s.stream y).desc := by
  unfold keepCairn
  split
  · exact desc_updStream s x y (fun _ => rfl)
  · rfl

section Configured

variable {s : State} {x : Nat} {d : StreamDesc} (hd : (s.stream x).desc = some d)
include hd

theorem streamLink_of_desc : s.streamLink x = some d.link := by simp [streamLink, hd]

theorem credits_of_desc : s.credits x = d.credits := by simp [credits, hd]

/-! ## Writes for a stream that is configured -/

/-- R445: a buffer within the stream's credits is freed. -/
theorem jobFree_of_desc {b : Nat} (hb : b < d.credits) : s.jobFree x x b = (s.freeBuf x b, .ok) := by
  simp [jobFree, ownsStream_self, hd, credits_of_desc hd, Nat.not_le_of_lt hb]

/-- R95. -/
theorem jobHalt_of_desc : s.jobHalt x x = (s.haltStream x, .ok) := by
  simp [jobHalt, ownsStream_self, hd]

/-- R68: the stream opens, and what no link has exported yet goes out on its link. -/
theorem jobOpen_of_desc : s.jobOpen x x true = (((s.keepCairn x).updStream x (fun st =>
    { st with opened := true, everOpened := true, ended := false })).exportNew d.link, .ok) := by
  have hlink := streamLink_of_desc ((desc_updStream (s.keepCairn x) x x
    (f := fun st => { st with opened := true, everOpened := true, ended := false }) (fun _ => rfl)).trans
      ((desc_keepCairn s x x).trans hd))
  simp [jobOpen, ownsStream_self, hd, hlink]

/-- R69. -/
theorem jobClose_of_desc : s.jobOpen x x false = (s.updStream x (fun st => { st with opened := false }), .ok) := by
  simp [jobOpen, ownsStream_self, hd]

end Configured

/-- R445: the arriving segment is stored. -/
theorem storeSegment_of_arriving {s : State} {x b : Nat} (hb : (s.stream x).arriving = some b) :
    s.storeSegment x = (((s.updStream x (fun st =>
      { st with arriving := none, full := st.full ++ [(b, (s.reg (Reg.JOB_NEXT x)).toNat)] })).showFull x).setReg (Reg.JOB_NEXT x)
        (BitVec.ofNat 32 ((s.reg (Reg.JOB_NEXT x)).toNat + 1))).raiseEvent x 7 := by
  simp [storeSegment, hb]

/-- R447: in READY a message that lies whole in the SEQ pool and names the writer's context goes out on its link. -/
theorem jobTxq_of_message {s : State} {w a n l : Nat} {off : Word} (hr : s.running = true)
    (ha : a = Config.seqPool + fld off 0 23) (hn : upLength (s.rdByte a).toNat = some n) (hal : fld off 0 3 = 0)
    (hend : a + n ≤ Config.poolEnd) (hw : (s.rdByte (a + 1)).toNat = w) (hl : s.streamLink w = some l) :
    s.jobTxq w off = (s.upMsg l (s.rd a n), .ok) := by
  subst ha
  simp [jobTxq, hn, hal, Nat.not_lt_of_le hend, hw, hl, hr]

end State

/-- Settles O15: in READY each row is its operation (`whenReady_of_running`), and the operation's own rule says what it
does for a configured stream; JOB_TXQ needs the clocks alone (`whenClocked_of_released`). -/
theorem keeperRegistersComplete : Obligations.KeeperRegistersComplete := by
  unfold Obligations.KeeperRegistersComplete
  intro s x hr hc
  have ready := whenReady_of_running hr
  refine ⟨fun b n hb hn => ?segmentStored, fun d b hd hb => ?jobFree, fun d hd => ?jobHalt, fun d hd => ?jobOpen,
    fun d hd => ?jobClose, ?closedStatusRepeat, fun w off a n l ha hn hal hend hw hl => ?jobTxq⟩
  case segmentStored =>
    show execSegmentStored x s = _
    rw [execSegmentStored, ready, State.storeSegment_of_arriving hb, hn]
  case jobFree =>
    show execJobFree x b s = _
    rw [execJobFree, ready, State.jobFree_of_desc hd hb]
    rfl
  case jobHalt =>
    show execJobHalt x s = _
    rw [execJobHalt, ready, State.jobHalt_of_desc hd]
    rfl
  case jobOpen =>
    show execJobOpen x s = _
    rw [execJobOpen, ready, State.jobOpen_of_desc hd]
  case jobClose =>
    show execJobClose x s = _
    rw [execJobClose, ready, State.jobClose_of_desc hd]
  case closedStatusRepeat => exact show execClosedStatusRepeat s = _ from ready _
  case jobTxq =>
    show execJobTxq w off s = _
    rw [execJobTxq, whenClocked_of_released hc (State.not_failed_of_running hr),
      State.jobTxq_of_message hr ha hn hal hend hw hl, State.wrote]

end Sys2Proof.Machine
end

section
/-! The records of a stream, the end of a stall, and directives that are refused (R74, R87 to R91, R95 to R97, R101). -/

namespace Sys2Proof.Machine

namespace State

/-! ## Segments and the records that execute by themselves -/

/-- R75: the oldest segment of a stream that runs is rejected when its header is bad. -/
theorem acceptSegment_badHeader {s : State} {x b n : Nat} {rest : List (Nat × Nat)} {d : StreamDesc} (p : Placement)
    (hfull : (s.stream x).full = (b, n) :: rest) (hd : (s.stream x).desc = some d) (hhalt : (s.stream x).halted = false)
    (hlast : (s.stream x).lastSeg = none)
    (hbad : headerOk (s.rd (s.bufHead x b) 112) x (decide ((s.ctx x).keyslot = 255)) (s.stream x).passedEnd = false) :
    s.acceptSegment x p = s.rejectSegment x n 0x10 := by
  simp [acceptSegment, hfull, hd, hhalt, hlast, hbad]

/-! ## The end of a stall (R96, R101) -/

section Stalled

variable {s : State} {x typ : Nat} {r : PendRec} {raw : Bytes} (hf : s.follows = false)
  (hh : s.headDirective x = some (r, typ, raw)) (hst : (s.stream x).stalled = true)
include hf hh hst

/-- A stalled directive whose condition is met goes on: its resumption is mirrored and it is judged again. -/
theorem stallRelease_met (hmet : s.stallsNow typ raw = false) : s.stallRelease x =
    ((s.updStream x (fun st => { st with stalled := false, waitStart := none })).mirror 4
      (outcomeBytes x 1 0 r.segno r.off)).judge x r typ raw := by
  simp [stallRelease, hh, hst, hf, hmet]

/-- A stalled WAIT is refused once its timeout has passed. -/
theorem waitExpires_elapsed {t0 : Nat} (htyp : typ = Dir.WAIT) (hwait : s.stallsNow typ raw = true)
    (ht0 : (s.stream x).waitStart = some t0) (htime : t0 + 200000 * fieldLE raw 12 4 ≤ s.clk.pclk) : s.waitExpires x =
    (s.updStream x (fun st => { st with stalled := false, waitStart := none })).refuseDirective x r Stat.WAIT_TIMEOUT := by
  simp [waitExpires, hh, ht0, htyp, hst, hf, htyp ▸ hwait, htime]

end Stalled

/-! ## Refusals (R95, R97, R105) -/

theorem nextDirective.running {s : State} {x typ : Nat} {r : PendRec} {raw : Bytes} (h : s.nextDirective x r typ raw) :
    s.running = true := h.1

/-- In READY the command of the directive that is next refuses it. -/
theorem whenReady_refused {s u t : State} {x typ : Nat} {r : PendRec} {raw : Bytes} {is : Nat → Bytes → Bool}
    (h : s.nextDirective x r typ raw) (hu : u = s.goOn x) (hst : u.stallsNow typ raw = false) (hcode : u.refusal x typ raw ≠ 0)
    (ht : t = State.settle (((u.mirror 4 (outcomeBytes x 2 (u.refusal x typ raw) r.segno r.off)).sendStatus x
      (u.refusal x typ raw) r.segno r.off).haltStream x)) (hi : is typ raw = true) :
    whenReady s (fun s => s.execDirective x is) = .next t := by
  subst hu ht
  rw [whenReady_of_running h.running, execDirective_refused is h hi hst hcode]

end State

/-- Settles O16: the records and the stalls each by their operation's rule; a refusal by what every directive's command
comes to (`State.whenReady_refused`), whichever row the type, and for MODE the setting, names. -/
theorem streamRecordsAndStallsComplete : Obligations.StreamRecordsAndStallsComplete := by
  unfold Obligations.StreamRecordsAndStallsComplete
  refine ⟨fun s x hr => ?records, fun s x r typ raw hr hf hh hst => ?stalls, fun s u t x typ r raw i hn hu hst hcode ht => ?refusals⟩
  case records =>
    have ready := whenReady_of_running hr
    refine ⟨fun p => ?accept, fun p b n rest d hfull hd hhalt hlast hbad => ?reject, fun r id cv mt ap hh hb => ?binding,
      fun r layer hh hb => ?geomEnd, fun r id rp u hu hh hb => ?cairn, ?cairnAck⟩
    case accept => exact show execSegmentAccept x p s = _ from ready _
    case reject =>
      show execSegmentAccept x p s = _
      rw [execSegmentAccept, ready, State.acceptSegment_badHeader p hfull hd hhalt hlast hbad]
    case binding =>
      show execBinding x s = _
      simp only [execBinding, ready, hh, hb]
    case geomEnd =>
      show execGeomEnd x s = _
      simp only [execGeomEnd, ready, hh, hb]
    case cairn =>
      subst hu
      show execCairn x s = _
      simp only [execCairn, ready, hh, hb, State.runCairn]
    case cairnAck => exact show execCairnAck x s = _ from ready _
  case stalls =>
    have ready := whenReady_of_running hr
    refine ⟨fun hmet => ?release, fun t t0 htyp hwait ht0 htime => ?timeout⟩
    case release =>
      show execDirectiveStallRelease x s = _
      rw [execDirectiveStallRelease, ready, State.stallRelease_met hf hh hst hmet]
    case timeout =>
      show execWaitTimeout x t s = _
      rw [execWaitTimeout, ready, State.waitExpires_elapsed (t0 := t0) (by simpa using hf) (by simpa using hh) (by simpa using hst)
        htyp (by simpa using hwait) (by simpa using ht0) htime]
  case refusals =>
    have refused {is : Nat → Bytes → Bool} := State.whenReady_refused (is := is) hn hu hst hcode ht
    refine ⟨fun hrow => ?row, fun htyp hset => ?setting⟩
    case row =>
      simp only [List.mem_cons, Prod.mk.injEq, List.not_mem_nil, or_false] at hrow
      obtain ⟨ht, rfl⟩ | ⟨ht, rfl⟩ | ⟨ht, rfl⟩ | ⟨ht, rfl⟩ | ⟨ht, rfl⟩ | ⟨ht, rfl⟩ | ⟨ht, rfl⟩ | ⟨ht, rfl⟩ | ⟨ht, rfl⟩ | ⟨ht, rfl⟩ |
        ⟨ht, rfl⟩ := hrow
      · exact show execHome x s = _ from refused (decide_eq_true ht)
      · exact show execLayerBegin x s = _ from refused (decide_eq_true ht)
      · exact show execSwath x s = _ from refused (decide_eq_true ht)
      · exact show execLayerEnd x s = _ from refused (decide_eq_true ht)
      · exact show execPark x s = _ from refused (decide_eq_true ht)
      · exact show execWaitDirective x s = _ from refused (decide_eq_true ht)
      · exact show execBankLoad x s = _ from refused (decide_eq_true ht)
      · exact show execWaveLoad x s = _ from refused (decide_eq_true ht)
      · exact show execMaskLoad x s = _ from refused (decide_eq_true ht)
      · exact show execCurveLoad x s = _ from refused (decide_eq_true ht)
      · exact show execRegion x s = _ from refused (decide_eq_true ht)
    case setting =>
      simp only [List.mem_cons, Prod.mk.injEq, List.not_mem_nil, or_false] at hset
      obtain ⟨hk, rfl⟩ | ⟨hk, rfl⟩ | ⟨hk, rfl⟩ | ⟨hk, rfl⟩ := hset
      · exact show execModeBankSel x s = _ from refused (by simp [htyp, hk])
      · exact show execModeRowmap x s = _ from refused (by simp [htyp, hk])
      · exact show execModeMaskSel x s = _ from refused (by simp [htyp, hk])
      · exact show execModeHalftone x s = _ from refused (by simp [htyp, hk])

end Sys2Proof.Machine
end

section
/-! The effects of the directives other than MODE (R98 to R101, R107, R258): what each type's execution is, and the command that
executes it. -/

namespace Sys2Proof.Machine

namespace State

/-! ## Effects -/

section Effects

variable (s : State) (x : Nat) (raw : Bytes)

theorem runDirective_home : s.runDirective x Dir.HOME raw = s.startHoming (fieldLE raw 8 1) := rfl

/-- R98, R263: the layer begins with its platform move, which the recoat passes follow. -/
theorem runDirective_layerBegin {w : State} (hw : w = s.layerBegins (fieldLE raw 8 4)) :
    s.runDirective x Dir.LAYER_BEGIN raw =
      State.startMove { w with mot := { w.mot with platformMove := true, recoats := fieldLE raw 16 1 } } 2
        ((w.axis 2).target + 256 * fieldLEs raw 12 4) := by
  subst hw
  simp [runDirective, axis, Dir.LAYER_BEGIN, Dir.HOME]

theorem runDirective_swath : s.runDirective x Dir.SWATH raw =
    ((s.queueSwath (s.ownPlan (s.swathPlanOf raw)) (s.stream x).cairnNow).distribute 4 (planBytes (s.swathPlanOf raw))).startSwath :=
  rfl

theorem runDirective_layerEnd : s.runDirective x Dir.LAYER_END raw = s.setBuild Build.CLOSING := rfl

/-- R99, log entry 98: PARK moves nothing. -/
theorem runDirective_park : s.runDirective x Dir.PARK raw = s := rfl

/-- R101: a WAIT whose state is reached has nothing left to do. -/
theorem runDirective_wait : s.runDirective x Dir.WAIT raw = s := rfl

theorem runDirective_region : s.runDirective x Dir.REGION raw =
    s.waitRegion (fieldLE raw 8 1)
      { col0 := fieldLEs raw 12 4, col1 := fieldLEs raw 16 4, line0 := fieldLEs raw 20 4, line1 := fieldLEs raw 24 4,
        layer0 := fieldLE raw 28 4, layer1 := fieldLE raw 32 4 } (fieldLE raw 36 4) := rfl

variable {raw}

theorem runDirective_bankLoad {g b : Nat} {k : DoseBank} (hp : parseBank (slicePad raw 16 64) = some (g, b, k)) :
    s.runDirective x Dir.BANK_LOAD raw =
      { s with dose := { s.dose with banks := upd s.dose.banks (4 * g + b) (fun _ => k) } } := by
  simp [runDirective, hp, Dir.BANK_LOAD, Dir.HOME, Dir.LAYER_BEGIN, Dir.SWATH, Dir.LAYER_END]

theorem runDirective_waveLoad {w : Waveform} (hp : parseWave (slicePad raw 16 64) = some w) :
    s.runDirective x Dir.WAVE_LOAD raw =
      State.uploadWave { s with dose := { s.dose with waves := putWave s.dose.waves w } } w := by
  simp [runDirective, hp, Dir.WAVE_LOAD, Dir.HOME, Dir.LAYER_BEGIN, Dir.SWATH, Dir.LAYER_END, Dir.BANK_LOAD]

theorem runDirective_maskLoad {m : List Nat} (hp : parseMask (slicePad raw 16 128) = some m) :
    s.runDirective x Dir.MASK_LOAD raw =
      { s with dose := { s.dose with masks := upd s.dose.masks (fieldLE raw 8 1) (fun _ => m) } } := by
  simp [runDirective, hp, Dir.MASK_LOAD, Dir.HOME, Dir.LAYER_BEGIN, Dir.SWATH, Dir.LAYER_END, Dir.BANK_LOAD, Dir.WAVE_LOAD]

theorem runDirective_curveLoad {c : DoseCurve} (hp : parseCurve (slicePad raw 16 136) = some c) :
    s.runDirective x Dir.CURVE_LOAD raw = { s with dose := { s.dose with curves := putCurve s.dose.curves c } } := by
  simp [runDirective, hp, Dir.CURVE_LOAD, Dir.HOME, Dir.LAYER_BEGIN, Dir.SWATH, Dir.LAYER_END, Dir.BANK_LOAD, Dir.WAVE_LOAD,
    Dir.MASK_LOAD]

end Effects

/-! ## Execution (R95, R97) -/

/-- In READY the command of the directive that is next and accepted mirrors it, gives it its effect `e` and takes it from
the stream. -/
theorem whenReady_accepted {s v e : State} {x typ : Nat} {r : PendRec} {raw : Bytes} {is : Nat → Bytes → Bool}
    (h : s.accepts x r typ raw) (hv : v = (s.goOn x).mirror 4 (outcomeBytes x 0 0 r.segno r.off)) (hi : is typ raw = true)
    (he : v.runDirective x typ raw = e) :
    whenReady s (fun s => s.execDirective x is) = .next (State.settle (e.popRec x)) := by
  rw [whenReady_of_running h.running, execDirective_accepts is h hi, ← hv, he]

end State

/-- Settles O17: each row executes the accepted directive of its type (`State.whenReady_accepted`), whose effect is the
type's own (`State.runDirective_home` and its like). -/
theorem directivesExecute : Obligations.DirectivesExecute := by
  unfold Obligations.DirectivesExecute
  intro s v x r typ raw h hv
  have executed {is : Nat → Bytes → Bool} {e : State} := State.whenReady_accepted (is := is) (e := e) h hv
  refine ⟨?home, ?layerBegin, ?swath, ?layerEnd, ?park, ?wait, ?bankLoad, ?waveLoad, ?maskLoad, ?curveLoad, ?region⟩
  case home =>
    rintro rfl
    exact show execHome x s = _ from executed rfl (v.runDirective_home x raw)
  case layerBegin =>
    rintro rfl w hw
    exact show execLayerBegin x s = _ from executed rfl (v.runDirective_layerBegin x raw hw)
  case swath =>
    rintro rfl
    exact show execSwath x s = _ from executed rfl (v.runDirective_swath x raw)
  case layerEnd =>
    rintro rfl
    exact show execLayerEnd x s = _ from executed rfl (v.runDirective_layerEnd x raw)
  case park =>
    rintro rfl
    exact show execPark x s = _ from executed rfl (v.runDirective_park x raw)
  case wait =>
    rintro rfl
    exact show execWaitDirective x s = _ from executed rfl (v.runDirective_wait x raw)
  case bankLoad =>
    rintro g b k rfl hp
    exact show execBankLoad x s = _ from executed rfl (v.runDirective_bankLoad x hp)
  case waveLoad =>
    rintro w rfl hp
    exact show execWaveLoad x s = _ from executed rfl (v.runDirective_waveLoad x hp)
  case maskLoad =>
    rintro m rfl hp
    exact show execMaskLoad x s = _ from executed rfl (v.runDirective_maskLoad x hp)
  case curveLoad =>
    rintro c rfl hp
    exact show execCurveLoad x s = _ from executed rfl (v.runDirective_curveLoad x hp)
  case region =>
    rintro g rfl rfl
    exact show execRegion x s = _ from executed rfl (v.runDirective_region x raw)

end Sys2Proof.Machine
end

section
/-! Ridges (R111, R131, R143 to R153): the post table, a fetch pass that comes to its end, and the slice of a ridge's next
line. -/

namespace Sys2Proof.Machine

namespace State

/-! ## Registers of the ridges and the line watch (R143, R146, R148, R182) -/

/-- R143: a record that is well formed, lies in the SEQ pool and names the writer joins the post table while it has
room. -/
theorem rdgPost_of_record {s : State} {w a : Nat} {v : Word} {bs : Bytes} (ha : a = Config.seqPool + fld v 0 23)
    (hbs : bs = s.rd a 32) (hal : fld v 0 3 = 0) (hend : a + 32 ≤ Config.poolEnd) (hctx : fieldLE bs 0 1 = w)
    (hkind : fieldLE bs 1 1 ≤ 1) (hres : fieldLE bs 2 2 = 0) (hlayer : fieldLE bs 4 4 < 2 ^ 24) (hres' : fieldLE bs 24 8 = 0)
    (hdir : fieldLE bs 8 8 % 32 = 0) (hcount : fieldLE bs 16 4 ≤ 1048576) (hroom : s.rdg.posts.length < 512) :
    s.rdgPost w v = ({ s with rdg := { s.rdg with posts := s.rdg.posts ++
      [{ ctx := w, geomEnd := fieldLE bs 1 1 = 1, layer := fieldLE bs 4 4, dirVa := fieldLE bs 8 8, count := fieldLE bs 16 4,
         segno := fieldLE bs 20 4, afterCairn := (s.stream w).cairnNow }] } }, .ok) := by
  subst ha hbs
  simpa [rdgPost, addPost, hal, Nat.not_lt_of_le hend, hctx, Nat.not_lt_of_le hkind, hres, hres', hdir,
    Nat.not_lt_of_le hcount, Nat.not_le_of_lt hroom] using hlayer

section Writer

variable (s : State) {w x : Nat} (hw : w = x ∨ w = s.super)
include hw

/-- The context itself and the supervisor have the rights to a context's registers. -/
theorem not_foreign_of_writer : (w != x && w != s.super) = false := by
  rcases hw with rfl | rfl <;> simp

theorem rdgRetry_of_writer (abandon : Bool) :
    s.rdgRetry w x abandon = (if abandon then s.ridgeAbandon x else s.ridgeRetry x, .ok) := by
  simp [rdgRetry, s.not_foreign_of_writer hw]

theorem lwCtrl_of_writer (v : Word) : s.lwCtrl w x v = (s.setReg (Reg.CRN_LW_CTRL x) (v &&& 3), .ok) := by
  simp [lwCtrl, s.not_foreign_of_writer hw]

end Writer

/-! ## A fetch pass (R144) -/

/-- Without an uncorrectable read no context's records leave the pass. -/
theorem filter_not_contains_nil (recs : List CacheRec) :
    recs.filter (fun c => !([] : List Nat).contains c.ctx) = recs :=
  List.filter_eq_self.mpr (fun _ _ => rfl)

/-- A fetch pass that leaves nothing, with no fault, no uncorrectable read and no wait, puts the band in the cache. It goes
on from where the ridge's pass of that band has come to, or begins anew. -/
theorem bandFetch_complete {s u v : State} {i q : Nat} {w : Swath} {n : Int} {b : BandFetch} {p : BandPass}
    (hu : s.useNext i = u) (htarget : u.fetchTarget i = some (w, q, n)) (hon : u.rbit Reg.RDG_CTRL 0 = true)
    (hposted : u.bandWaits i w.plan n = [])
    (hpass : (u.ridge i).pass = some p ∧ p.key = bandKey w n ∨
      (∀ z, (u.ridge i).pass = some z → z.key ≠ bandKey w n) ∧ p = u.newPass i w n)
    (hfetch : u.fetchBand (u.fillHalf i) (u.sampleRect i w.plan n) (bandFirst w n) p ((u.ridge i).stops.map FetchStop.ctx) = (v, b))
    (hwait : b.wait = none) (hbad : b.bad = []) (hstops : b.stops = []) (hleft : b.left = []) :
    s.bandFetch i = ((v.updRidge i (fun g => { g with pass := some { p with recs := b.recs, bytes := b.bytes, work := [] } })).bandReady i
      { p with recs := b.recs, bytes := b.bytes, work := [] }).beginLine i := by
  subst hu
  obtain ⟨hcur, hkey⟩ | ⟨hother, rfl⟩ := hpass
  case inl =>
    simp only [bandFetch, htarget, hon, hposted, hcur, if_pos hkey, hfetch, hwait, hbad, hstops, hleft, filter_not_contains_nil,
      List.foldl_nil, List.isEmpty_nil, Bool.not_true, Bool.or_self, Bool.false_eq_true, if_false, if_true]
  case inr =>
    cases hcur : ((s.useNext i).ridge i).pass with
    | none =>
      simp only [bandFetch, htarget, hon, hposted, hcur, hfetch, hwait, hbad, hstops, hleft, filter_not_contains_nil,
        List.foldl_nil, List.isEmpty_nil, Bool.not_true, Bool.or_self, Bool.false_eq_true, if_false, if_true]
    | some z =>
      simp only [bandFetch, htarget, hon, hposted, hcur, if_neg (hother z hcur), hfetch, hwait, hbad, hstops, hleft,
        filter_not_contains_nil, List.foldl_nil, List.isEmpty_nil, Bool.not_true, Bool.or_self, Bool.false_eq_true, if_false,
        if_true]

/-! ## The slice of the next line (R111, R131, R138, R144, R153, R157) -/

/-- R153: nothing is handed over while no ridge leaves its place. -/
theorem tryHandOver_of_settled {s : State} (hleave : s.rdg.leaving = none) : s.tryHandOver = s := by
  simp [tryHandOver, hleave]

section Slice

variable {s : State} {i q : Nat} {w : Swath} {n : Int} (hat : s.ridgeAt i = some (w, q, n))
  (hband : (s.ridge i).band = some (bandKey w n))
include hat hband

/-- A ridge that holds its next line's band goes on with it. -/
theorem useNext_of_held : s.useNext i = s := by
  simp [useNext, hat, hband]

variable (hleave : s.rdg.leaving = none) (hstops : ∀ z, z ∈ (s.ridge i).stops → q < z.ord)
include hleave hstops

/-- R157: past the state window the ridge waits, and says so. -/
theorem slicePosted_beyond_window (hend : s.windowEnd ≤ q) : s.slicePosted i = s.raise Src.CRN_STATE_WINDOW_FULL := by
  have hstopped : (s.ridge i).stops.any (fun z => decide (z.ord ≤ q)) = false := by simpa using hstops
  simp [slicePosted, useNext_of_held hat hband, tryHandOver_of_settled hleave, hat, hband, hstopped, hend]

/-- With nothing to hold it back a ridge renders its next line, and goes on to the one after it. -/
theorem slicePosted_renders {u : State} (hwin : q < s.windowEnd)
    (hcheck : isCheckpoint w.plan n = true → q ≤ s.firstUntx + 112) (hhalo : s.haloWaits i q = false)
    (hu : u = (s.voidActuators i w q n).voidCached i w n) (hnext : (u.ridge i).nextOrd = q) :
    s.slicePosted i = ((u.renderLine i w q n).useNext i).tryHandOver.beginLine i := by
  have hstopped : (s.ridge i).stops.any (fun z => decide (z.ord ≤ q)) = false := by simpa using hstops
  have hfar : ¬ (isCheckpoint w.plan n = true ∧ s.firstUntx + 112 < q) := fun h => Nat.not_lt_of_le (hcheck h.1) h.2
  subst hu
  simp [slicePosted, useNext_of_held hat hband, tryHandOver_of_settled hleave, hat, hband, hstopped, Nat.not_le_of_lt hwin, hfar,
    hhalo, hnext]

end Slice

end State

/-- Settles O19: a register write is its operation once the clocks run, and in READY each command of a ridge of the
variant is its own; the operations' rules say what they do under the guards that the statement names. -/
theorem ridgesComplete : Obligations.RidgesComplete := by
  unfold Obligations.RidgesComplete
  refine ⟨fun s hr hf => ?registers, fun s i w q n hr hi => ?ridges⟩
  case registers =>
    have clocked := whenClocked_of_released hr hf
    refine ⟨fun w v a bs ha hbs hal hend hctx hkind hres hlayer hres' hdir hcount hroom => ?post, fun w x hw => ?retry,
      fun w x hw => ?abandon, fun w x v hx hx' hw => ?lineWatch⟩
    case post =>
      show execRdgPost w v s = _
      rw [execRdgPost, clocked,
        State.rdgPost_of_record ha hbs hal hend hctx hkind hres hlayer hres' hdir hcount hroom, State.wrote]
    case retry =>
      show execRdgRetry w x s = _
      rw [execRdgRetry, clocked, s.rdgRetry_of_writer hw]
      rfl
    case abandon =>
      show execRdgRetryAbandon w x s = _
      rw [execRdgRetryAbandon, clocked, s.rdgRetry_of_writer hw]
      rfl
    case lineWatch =>
      have hctx : ¬ (x = 0 || 64 ≤ x) = true := by simpa using ⟨hx, hx'⟩
      show execCrnLwCtrl w x v s = _
      rw [execCrnLwCtrl, clocked, if_neg hctx, s.lwCtrl_of_writer hw, State.wrote]
  case ridges =>
    have ready := whenReady_of_running hr
    refine ⟨fun u v b p hu htarget hon hposted hpass hfetch hwait hbad hstops hleft => ?fetch,
      fun hat hband hleave hstops => ⟨fun hwin hcheck hhalo u hu hnext => ?rendered, fun hend => ?windowFull⟩,
      fun right r => ?halo⟩
    case fetch =>
      show execBandFetchDone i s = _
      rw [execBandFetchDone, ready, if_pos hi,
        State.bandFetch_complete hu htarget hon hposted hpass hfetch hwait hbad hstops hleft]
    case rendered =>
      show execSlicePosted i s = _
      rw [execSlicePosted, ready, if_pos hi, State.slicePosted_renders hat hband hleave hstops hwin hcheck hhalo hu hnext]
    case windowFull =>
      show execSlicePosted i s = _
      rw [execSlicePosted, ready, if_pos hi, State.slicePosted_beyond_window hat hband hleave hstops hend]
    case halo =>
      show execHaloValue i right r s = _
      rw [execHaloValue, ready, if_pos hi]

end Sys2Proof.Machine
end

section
/-! Status frames of the head drivers: what reaches the module of one, and what each says on the port in use. -/

namespace Sys2Proof.Machine

namespace State

/-! ## Frames on the port in use (R219, R230) -/

theorem statusUsed_iff {s : State} {k : Nat} {portB : Bool} :
    s.statusUsed k portB = true ↔ s.owns = true ∧ s.linkRate k ≠ 0 ∧ portB = s.hlk.portB := by
  simp [statusUsed, and_assoc]

section PortInUse

variable {s : State} {k : Nat} {portB : Bool} (hu : s.statusUsed k portB = true)
include hu

/-- R231: the records take effect from the oldest on, and then a takeover settles its lines. -/
theorem fireAck_of_used (recs : List FireRec) :
    s.fireAck k portB recs = (recs.reverse.foldl (fun t f => t.fireRec k f) s).takeoverLines := by
  rw [fireAck, if_pos hu]

theorem nozzleFrame_of_used (recs : List (Nat × Nat)) : s.nozzleFrame k portB recs =
    recs.foldl (fun t z => t.nozzleOff k z.1 z.2) ((s.event Reg.HLK_EVENT 5).raise Src.HLK_NOZZLE_FAULT) := by
  simp [nozzleFrame, hu]

theorem driverFrame_of_used : s.driverFrame k portB = (s.event Reg.HLK_EVENT 6).raise Src.HLK_DRIVER_FAULT := by
  simp [driverFrame, hu]

theorem testDoneFrame_of_used (order : Nat) : s.testDoneFrame k portB order = s.updHead k (fun h =>
    { h with orders := h.orders.filter (fun o => !(o.order = order && o.typ = 0x24)) }) := by
  simp [testDoneFrame, hu]

/-! ### The answer to a void order (R171) -/

section VoidOrder

variable {lseq : Nat} {l : CLine} (hl : s.lineOfSeq lseq = some l)
  (hp : s.crn.groups.any (fun g => g.pend.contains (l.ord, k)) = true)
include hl hp

/-- Nothing of the line was fired: the link is closed and has answered. -/
theorem voidAck_unfired : s.voidAck k portB lseq 0 =
    ((s.closeLink l.ord k false).mirrorClosed l).voidAnswered l.ord k := by
  have hfull : decide ((0 : BitVec 16) = 0xFFFF) = false := rfl
  simp only [voidAck, hl, hu, hp, hfull, Bool.not_true, Bool.or_self, Bool.false_eq_true, if_false, if_true]

/-- What the link has fired already is entered as stale. -/
theorem voidAck_fired {fired : BitVec 16} (hf : fired ≠ 0) : s.voidAck k portB lseq fired =
    ((((((s.writeEntries (s.staleEntries k l fired)).event Reg.CRN_EVENT 6).raise Src.CRN_FIRED_STALE).closeLink l.ord k
      (fired = 0xFFFF)).mirrorClosed l).voidAnswered l.ord k) := by
  simp only [voidAck, hl, hu, hp, if_neg hf, Bool.not_true, Bool.or_self, Bool.false_eq_true, if_false]

end VoidOrder

/-! ### The answer to an order (R223) -/

section Order

variable {order : Nat} {o : HeadOrder} (ho : (s.headlink k).orders.find? (fun o => o.order = order) = some o)
include ho

/-- An answer to an outstanding order takes it off the link's list, and then says how the order went. -/
theorem orderAck_of_used (result : Nat) : s.orderAck k portB order result =
    let t := s.updHead k (fun h => { h with orders := h.orders.filter (fun p => p.order != order) })
    if result = 0 then t.orderDone k o else (t.event Reg.HLK_EVENT 7).raise Src.HLK_ORDER_NAK := by
  obtain ⟨howns, hrate, hportB⟩ := statusUsed_iff.mp hu
  have hport : ¬ (!s.owns || decide (s.linkRate k = 0) || portB != s.hlk.portB) = true := by
    simp [howns, hrate, hportB]
  simp only [orderAck, ho, if_neg hport]

theorem orderAck_accepted : s.orderAck k portB order 0 =
    (s.updHead k (fun h => { h with orders := h.orders.filter (fun p => p.order != order) })).orderDone k o :=
  orderAck_of_used hu ho 0

theorem orderAck_refused {result : Nat} (hr : result ≠ 0) : s.orderAck k portB order result =
    ((s.updHead k (fun h => { h with orders := h.orders.filter (fun p => p.order != order) })).event Reg.HLK_EVENT 7).raise
      Src.HLK_ORDER_NAK :=
  (orderAck_of_used hu ho result).trans (if_neg hr)

end Order

end PortInUse

/-! ## ACK_TIMEOUT (R232) -/

/-- A line whose rows are done and whose link is still open is logged as HST_LOST over the link's columns, and the link is
closed. -/
theorem fireTimeout_of_open {s : State} {k lseq : Nat} {l : CLine} (hl : s.lineOfSeq lseq = some l) (ho : s.owns = true)
    (hk : s.linkRate k ≠ 0) (hopen : k ∉ l.closedLinks) (hd : rowsDone l = true) :
    s.fireTimeout k lseq =
      ((((s.logLine l.ord 8 0 (rowSpans (List.range 16) (s.linkCol0 k) (s.linkCol1 k)) none).hostLost.closeLink l.ord k
        false).mirrorClosed l).voidAnswered l.ord k) := by
  have hwaits : ¬ (!s.owns || decide (s.linkRate k = 0) || l.closedLinks.contains k) = true := by simp [ho, hk, hopen]
  simp only [fireTimeout, hl, if_neg hwaits, hd, Bool.not_true, Bool.false_and, Bool.false_eq_true, if_false]

end State

/-! ## Frames that arrive in READY -/

/-- A good frame takes its effect in the state that has heard its link. -/
theorem statusFrame_good {s : State} (hr : s.running = true) (k : Nat) (o : State → State) :
    statusFrame s k true o = .next (o (s.heardOn (.head k))).settle :=
  whenReady_of_running hr _

/-- R219: a bad frame of a link in use is counted, whatever it was to say. -/
theorem statusFrame_bad {s : State} {k : Nat} (hr : s.running = true) (hk : (s.heardOn (.head k)).linkRate k ≠ 0)
    (o : State → State) : statusFrame s k false o = .next ((s.heardOn (.head k)).count Reg.HLK_ST_CRC 1).settle := by
  have hcounted : (s.heardOn (.head k)).badStatus k = (s.heardOn (.head k)).count Reg.HLK_ST_CRC 1 := if_neg hk
  rw [← hcounted]
  exact whenReady_of_running hr _

/-- Settles O22: in READY a status frame is what `statusFrame_good` or `statusFrame_bad` says of it, and on the port in use
each good one has its own rule; ACK_TIMEOUT has `State.fireTimeout_of_open`. -/
theorem headStatusCompletes : Obligations.HeadStatusCompletes := by
  unfold Obligations.HeadStatusCompletes
  rintro s u k portB hr rfl
  have good := statusFrame_good hr k
  refine ⟨fun hu => ⟨fun recs => ?fireAck, fun lseq l v hl hp => ⟨?voidUnfired, fun fired hf => ?voidFired⟩,
    fun order o ho => ⟨?orderAccepted, fun result hresult => ?orderRefused⟩, fun recs => ?temp, fun recs => ?nozzleFault,
    fun code rowmask lseq => ?driverFault, fun order shots => ?testDone⟩, fun hk v hv => ?bad,
    fun lseq l hl ho hk hopen hd => ?timeout⟩
  case fireAck =>
    show execFireAck k ⟨portB, true⟩ recs s = _
    rw [execFireAck, good, State.fireAck_of_used hu]
  case voidUnfired =>
    show execVoidAck k ⟨portB, true⟩ lseq v 0 s = _
    rw [execVoidAck, good, State.voidAck_unfired hu hl hp]
  case voidFired =>
    show execVoidAck k ⟨portB, true⟩ lseq v fired s = _
    rw [execVoidAck, good, State.voidAck_fired hu hl hp hf]
  case orderAccepted =>
    show execOrderAck k ⟨portB, true⟩ order 0 s = _
    rw [execOrderAck, good, State.orderAck_accepted hu ho]
  case orderRefused =>
    show execOrderAck k ⟨portB, true⟩ order result s = _
    rw [execOrderAck, good, State.orderAck_refused hu ho hresult]
  case temp => exact show execTemp k ⟨portB, true⟩ recs s = _ from good _
  case nozzleFault =>
    show execNozzleFault k ⟨portB, true⟩ recs s = _
    rw [execNozzleFault, good, State.nozzleFrame_of_used hu]
  case driverFault =>
    show execDriverFault k ⟨portB, true⟩ code rowmask lseq s = _
    rw [execDriverFault, good, State.driverFrame_of_used hu]
  case testDone =>
    show execTestDone k ⟨portB, true⟩ order shots s = _
    rw [execTestDone, good, State.testDoneFrame_of_used hu]
  case bad =>
    have counted := fun o => hv ▸ statusFrame_bad hr hk o
    exact ⟨fun recs => show execFireAck k ⟨portB, false⟩ recs s = _ from counted _,
      fun lseq x y => show execVoidAck k ⟨portB, false⟩ lseq x y s = _ from counted _,
      fun order r => show execOrderAck k ⟨portB, false⟩ order r s = _ from counted _,
      fun recs => show execTemp k ⟨portB, false⟩ recs s = _ from counted _,
      fun recs => show execNozzleFault k ⟨portB, false⟩ recs s = _ from counted _,
      fun code m lseq => show execDriverFault k ⟨portB, false⟩ code m lseq s = _ from counted _,
      fun order n => show execTestDone k ⟨portB, false⟩ order n s = _ from counted _⟩
  case timeout =>
    show execFireAckTimeout k lseq s = _
    rw [execFireAckTimeout, whenReady_of_running hr, State.fireTimeout_of_open hl ho hk hopen hd]

end Sys2Proof.Machine
end

section
/-! The drop test and the edits of the actuator table: what each operation of ACT does in the phase it belongs to, and what it
leaves to a later one. -/

namespace Sys2Proof.Machine

namespace State

/-! ## The start of the test (R206, R262) -/

/-- In the zone the hold begins at this sample, and at the module that owns the outputs the test with it. -/
theorem inPlace_of_inZone {s : State} (hp : s.act.phase = 1) (hz : s.inZone = true) (ho : s.owns = true) :
    s.inPlace = State.startTest { s with act := { s.act with hold := some s.clk.pclk, phase := 2 } } := by
  have howner : owns { s with act := { s.act with hold := some s.clk.pclk, phase := 2 } } = true := ho
  simp [inPlace, hp, hz, howner]

/-- A carriage that will not stay in the zone, or is not there, is not in place. -/
theorem inPlace_outside_zone {s : State} (hz : s.inZone = false) : s.inPlace = s := by
  simp [inPlace, hz]

/-! ## The edges and the end of the test (R194, R195, R198, R199) -/

section Testing

variable {s : State} {k : TestState} (hk : s.act.test = some k) (hp : s.act.phase = 2) (ho : s.owns = true)
include hk hp ho

/-- R195: a gate of the 16 rows notes its edges while the test stands. -/
theorem gateRise_noted {row : Nat} (t : Nat) (ha : k.aborted = false) (hr : row < 16) :
    s.gateRise row t = { s with act := { s.act with test := some { k with edges := k.edges ++ [(row, t)] } } } := by
  simp [gateRise, hk, hp, ho, ha, hr]

variable (hend : s.windowsEnd k ≤ s.clk.pclk)
include hend

/-- R198: an aborted test ends without shots and without results of its gates. -/
theorem testOver_aborted (ha : k.aborted = true) : s.testOver = s.countShots.recordPlan k.t0 [] [] := by
  simp [testOver, hk, hp, ho, Nat.not_lt_of_le hend, ha]

/-- R195, R199: a test that stands to its end moves on to the next block, and its results form the plan. -/
theorem testOver_completed {v : State} {rs : List TestResult} (ha : k.aborted = false)
    (hres : s.countShots.testResults k = (v, rs)) :
    s.testOver = (State.obsCount { v with act := { v.act with t := v.act.t + 1 } } 8).recordPlan k.t0 k.shots rs := by
  simp [testOver, hk, hp, ho, Nat.not_lt_of_le hend, ha, hres]

end Testing

/-! ## The hold (R206) -/

/-- HOLD_MAX after its beginning the hold is raised and ends: the cascade hears of it, and the swath that waits may start. -/
theorem holdOver_of_hold {s u : State} {h : Nat} (hh : s.act.hold = some h)
    (hu : u = ((s.at_ (h + 200 * s.rfld Reg.ACT_HOLD 0 16)).event Reg.ACT_EVENT 8).raise Src.ACT_HOLD_TIMEOUT) :
    s.holdOver = (State.distribute { u with act := { u.act with hold := none } } 8
      (State.colBody { u with act := { u.act with hold := none } } 1)).startSwath := by
  subst hu
  simp only [holdOver, hh]

/-! ## Edits (R210) -/

/-- What ACT_EDIT_IDX shows of an edit: the operation above the actuator's index. -/
def editIndex (op idx : Nat) : Word := BitVec.ofNat 32 (idx % 2 ^ 20 + 2 ^ 24 * op)

/-- What a write of an edit shows in the two registers. -/
def editShown (s : State) (op idx : Nat) (val : BitVec 16) : State :=
  (s.setReg Reg.ACT_EDIT_VAL (BitVec.ofNat 32 val.toNat)).setReg Reg.ACT_EDIT_IDX (editIndex op idx)

@[simp] theorem editShown_follows (s : State) (op idx : Nat) (val : BitVec 16) :
    (s.editShown op idx val).follows = s.follows := by
  simp [follows, editShown]

/-- R210, R295: at any module but a standby the write queues the edit that it shows. -/
theorem editWriteIdx_of_leading {s : State} (hf : s.follows = false) (op idx : Nat) (val : BitVec 16) :
    s.editWriteIdx op idx val = (s.editShown op idx val).queueEdit (editIndex op idx) val := by
  have hleads : (s.editShown op idx val).follows = false := by rw [editShown_follows, hf]
  exact if_neg (ne_true_of_eq_false hleads)

end State

/-- Settles O21: in READY each command is its operation in the state to which the clock has run on (an edit's, once the
clocks run), and the operation's own rule says what it does in that phase of the col. -/
theorem dropTestsComplete : Obligations.DropTestsComplete := by
  unfold Obligations.DropTestsComplete
  intro s hr hc
  have ready := whenReady_of_running hr
  have clocked := whenClocked_of_released hc (State.not_failed_of_running hr)
  have act (t : Nat) : (s.at_ t).act = s.act := s.at__act t
  have owner (t : Nat) : (s.at_ t).owns = s.owns := s.at_owns_eq t
  refine ⟨?begins, fun t hp hz => ?outside, fun row t k hk hp ho ha hrow => ?edge, ?ends, fun h u hh hu => ?hold, ?edits⟩
  case begins =>
    rintro t u rfl hp hz ho
    show execCarriageInPlace t s = _
    rw [execCarriageInPlace, ready, State.inPlace_of_inZone (by rw [act, hp]) hz (by rw [owner, ho])]
  case outside =>
    show execCarriageInPlace t s = _
    rw [execCarriageInPlace, ready, State.inPlace_outside_zone hz]
  case edge =>
    show execGateEdge row t s = _
    rw [execGateEdge, ready,
      State.gateRise_noted (by rw [act, hk]) (by rw [act, hp]) (by rw [owner, ho]) t ha hrow, act]
  case ends =>
    rintro t k u hk hp ho rfl hend
    rw [← act t] at hk hp
    rw [← owner t] at ho
    have closed : exec (.testWindowsClosed t) s = .next (s.at_ t).testOver.settle :=
      show execTestWindowsClosed t s = _ from ready _
    rw [closed]
    refine ⟨fun ha => ?aborted, fun ha v rs hres => ?completed⟩
    case aborted => rw [State.testOver_aborted hk hp ho hend ha]
    case completed => rw [State.testOver_completed hk hp ho hend ha hres]
  case hold =>
    show execHoldTimeout s = _
    rw [execHoldTimeout, ready, State.holdOver_of_hold hh hu]
  case edits =>
    rintro idx val u hf rfl
    have queued (op : Nat) : whenClocked s (fun s => s.editWriteIdx op idx val) =
        .next ((s.editShown op idx val).queueEdit (State.editIndex op idx) val).settle := by
      rw [clocked, State.editWriteIdx_of_leading hf]
    exact ⟨queued 1, queued 2, queued 3, queued 4, queued 5⟩

end Sys2Proof.Machine
end

section
/-! Commands whose effect in the state at hand is known: what they answer. -/

namespace Sys2Proof.Machine

/-- In READY a command answers the settled state that its effect makes of this one. -/
theorem whenReady_effect {s u : State} {o : State → State} (hr : s.running = true) (ho : o s = u) :
    whenReady s o = .next u.settle :=
  ho ▸ whenReady_of_running hr o

/-- Once the clocks run, so does a clocked command. -/
theorem whenClocked_effect {s u : State} {o : State → State} (hc : s.clk.released = true) (hf : s.boot.failed = false)
    (ho : o s = u) : whenClocked s o = .next u.settle :=
  ho ▸ whenClocked_of_released hc hf o

end Sys2Proof.Machine
end

section
/-! Axes (R253, R255, R259 to R264, R459): limit writes, plan edits, the end of a move, the firing span, the col and the
servo tick. -/

namespace Sys2Proof.Machine

/-- What an update makes of a list is decided by what it makes of the element read there. -/
theorem upd_congr_nth {α : Type} {l : List α} {i : Nat} {f g : α → α} {d : α} (h : f (nth l i d) = g (nth l i d)) :
    upd l i f = upd l i g := by
  unfold upd
  induction l generalizing i with
  | nil => simp
  | cons x l ih =>
    cases i with
    | zero => simpa [nth] using h
    | succ i => simpa using ih h

namespace State

/-! ## Limit writes (R255, R256) -/

theorem updAxis_congr (s : State) {a : Nat} {f g : Axis → Axis} (h : f (s.axis a) = g (s.axis a)) :
    s.updAxis a f = s.updAxis a g := by
  rw [updAxis, updAxis, upd_congr_nth h]

theorem updAxis_id (s : State) (a : Nat) : s.updAxis a id = s := by
  rw [updAxis, upd, List.modify_id]

/-- An axis at rest takes the limit at once. -/
theorem limitWrite_at_rest {s : State} {a : Nat} (hrest : (s.axis a).moving = false) (which : Nat) (v : Word) :
    s.limitWrite a which v = s.setReg (limitReg a which) v := by
  have hunasked : (!(s.axis a).moving || (s.axis a).pend.any (fun p => p.1 = which)) = true := by simp [hrest]
  have hkept : s.limitWrite a which v = (s.setReg (limitReg a which) v).updAxis a id := updAxis_congr _ (if_pos hunasked)
  rw [hkept, updAxis_id]

/-- The first write to a moving axis since the last servo tick asks that tick to plan, and keeps the limit of before. -/
theorem limitWrite_first_ask {s : State} {a : Nat} (hmoving : (s.axis a).moving = true) (hpend : (s.axis a).pend = [])
    (hasks : (s.axis a).asks = []) (which : Nat) (v : Word) :
    s.limitWrite a which v = (s.setReg (limitReg a which) v).updAxis a
      (fun _ => { s.axis a with replan := true, asks := [(which, s.reg (limitReg a which))] }) := by
  have hasked : ¬ (!(s.axis a).moving || (s.axis a).pend.any (fun p => p.1 = which)) = true := by simp [hmoving, hpend]
  refine updAxis_congr _ ((if_neg hasked).trans ?_)
  show { s.axis a with
    replan := true,
    asks := if (s.axis a).asks.any (fun p => p.1 = which) then (s.axis a).asks
      else (s.axis a).asks ++ [(which, s.reg (limitReg a which))] } = _
  rw [hasks]
  rfl

/-! ## Moves and swaths (R253, R259, R262, R263, R459) -/

/-- A trajectory that has come to its end leaves the axis at its target, or where its stop ended; a move that no move of
the layer waits for lets the next swath start. -/
theorem moveDone_of_rest {s u : State} {a : Nat} {pos : Int} (hmoving : (s.axis a).moving = true)
    (hrest : s.atRest a = true)
    (hpos : pos = if (s.axis a).stopping then (s.plannedAt a s.now).pos else (s.axis a).target)
    (hu : u = (s.updAxis a (fun x => { x with
      pos := pos, vel := 0, acc := 0, target := pos, moving := false, stopping := false, pend := [], segs := [],
      replan := false, asks := [], restAt := some s.clk.pclk })).stepTo a pos)
    (hplatform : a = 2 → u.mot.platformMove = false) (hrecoater : a = 3 → u.mot.recoats = 0) :
    s.moveDone a = u.startSwath := by
  have hends : ¬ (!(s.axis a).moving || !s.atRest a) = true := by simp [hmoving, hrest]
  have hstep : ¬ (decide (a = 2) && u.mot.platformMove) = true := by simpa using hplatform
  have hpass : ¬ (decide (a = 3) && u.mot.recoats != 0 && !u.mot.platformMove) = true := by
    simp only [Bool.and_eq_true, decide_eq_true_eq, bne_iff_ne]
    rintro ⟨⟨ha, hleft⟩, -⟩
    exact hleft (hrecoater ha)
  subst hpos hu
  exact (if_neg hends).trans ((if_neg hstep).trans (if_neg hpass))

/-- The firing span of the current swath begins, where this module plans with the index axis at rest at INDEX_TARGET. -/
theorem spanBegins_of_placed {s : State} {w : Swath} (hw : s.mot.current = some w) (hoff : s.mot.spanOn = false)
    (hplaced : s.plans = true → (s.axis 1).moving = false ∧ (s.axis 1).pos = 256 * w.plan.indexTarget) :
    s.spanBegins = { s with mot := { s.mot with spanOn := true, inCol := false } } := by
  have hready : ¬ (s.mot.spanOn || s.plans && ((s.axis 1).moving || (s.axis 1).pos != 256 * w.plan.indexTarget)) = true := by
    simp only [hoff, Bool.false_or, Bool.and_eq_true, Bool.or_eq_true, bne_iff_ne]
    rintro ⟨hplans, hnot⟩
    obtain ⟨hstill, hat⟩ := hplaced hplans
    exact hnot.elim (ne_true_of_eq_false hstill) (· hat)
  simp only [spanBegins, hw, if_neg hready]

/-- Behind the last line of the swath in progress its col begins. -/
theorem colBegins_of_lastDone {s : State} {w : Swath} (hw : s.mot.current = some w) (hdone : s.lastDone w = true) :
    s.colBegins = (s.endSwath w).runCol w.plan := by
  simp only [colBegins, hw, if_pos hdone]

/-- The servo tick that is due sets the next and does its work. -/
theorem servoTick_of_due {s : State} (hdue : s.clk.nextTick * s.servoPeriod ≤ s.now) :
    s.servoTick = tickWork { s with clk := { s.clk with nextTick := s.now / s.servoPeriod + 1 } } :=
  if_neg (Nat.not_lt_of_le hdue)

end State

/-! ## Writes by the supervisor (R255, R264) -/

section Writes

variable {s : State} {w : Nat} (hc : s.clk.released = true) (hf : s.boot.failed = false) (haxis : s.hasAxis = true)
  (hw : w = s.super) (hfollows : s.follows = false)
include hc hf haxis hw hfollows

theorem exec_plnLimitWrite_of_super {a which : Nat} (ha : a ≤ 3) (hwhich : which ≤ 2) (v : Word) :
    exec (.plnLimitWrite w a which v) s = .next (s.limitWrite a which v).settle := by
  have hlimit : ¬ (decide (3 < a) || decide (2 < which)) = true := by simp [ha, hwhich]
  have hpresent : ¬ (!s.hasAxis) = true := by simp [haxis]
  have hpermitted : ¬ (w != s.super) = true := by simp [hw]
  show execPlnLimitWrite w a which v s = _
  exact whenClocked_effect hc hf ((if_neg hlimit).trans ((if_neg hpresent).trans
    ((if_neg hpermitted).trans (if_neg (ne_true_of_eq_false hfollows)))))

theorem exec_plnEdit_of_super (off : Word) : exec (.plnEdit w off) s = .next (s.editWrite off).settle := by
  have hpresent : ¬ (!s.hasAxis) = true := by simp [haxis]
  have hpermitted : ¬ (w != s.super) = true := by simp [hw]
  show execPlnEdit w off s = _
  exact whenClocked_effect hc hf ((if_neg hpresent).trans
    ((if_neg hpermitted).trans (if_neg (ne_true_of_eq_false hfollows))))

end Writes

/-- Settles O23: a write by the supervisor is its operation, and in READY each motion command is its operation in the state
to which the clock has run on; the operation's own rule says what it does there. -/
theorem plannerAndMovesComplete : Obligations.PlannerAndMovesComplete := by
  unfold Obligations.PlannerAndMovesComplete
  refine ⟨fun s w hc hf haxis hw hfollows => ?writes, fun s t hr => ?motion⟩
  case writes =>
    have written {a which : Nat} := exec_plnLimitWrite_of_super (a := a) (which := which) hc hf haxis hw hfollows
    refine ⟨fun a which v ha hwhich => written ha hwhich v, fun a which v ha hwhich hrest => ?atRest,
      fun a which v ha hwhich hmoving hpend hasks => ?firstAsk, fun off r hrec => ?edit⟩
    case atRest => rw [written ha hwhich v, State.limitWrite_at_rest hrest]
    case firstAsk => rw [written ha hwhich v, State.limitWrite_first_ask hmoving hpend hasks]
    case edit =>
      subst hrec
      exact exec_plnEdit_of_super hc hf haxis hw hfollows off
  case motion =>
    refine ⟨fun a pos u hmoving hrest hpos hu hplatform hrecoater => ?moveDone, fun w hw hoff hplaced => ?span,
      fun w hw hdone => ?col, fun hdue => ?tick⟩
    case moveDone =>
      rw [← s.at_axis_eq t] at hmoving hpos
      show execAxisMoveDone a t s = _
      exact whenReady_effect hr (State.moveDone_of_rest hmoving hrest hpos hu hplatform hrecoater)
    case span =>
      rw [← s.at_plans_eq t, ← s.at_axis_eq t] at hplaced
      rw [← s.at__mot t] at hw hoff ⊢
      show execFiringSpanStart t s = _
      exact whenReady_effect hr (State.spanBegins_of_placed hw hoff hplaced)
    case col =>
      rw [← s.at__mot t] at hw
      show execColStart t s = _
      exact whenReady_effect hr (State.colBegins_of_lastDone hw hdone)
    case tick =>
      show execServoTick t s = _
      exact whenReady_effect hr (State.servoTick_of_due hdue)

end Sys2Proof.Machine
end

section
/-! Drives and steppers (R267, R277 to R280): a good drive frame, a step edge, a stall outside homing, and what follows
100 ms at rest. -/

namespace Sys2Proof.Machine

namespace State

/-- R267: a good frame of a port in use ends a run of bad ones and shows the drive's state and its following error. -/
theorem driveFrame_good {s : State} {p : Nat} {f : Bytes} (hport : s.rbit (Reg.PLN_AXP p) 0 = true)
    (hdrives : s.drives = true) (hp : p < 2) (hgood : s.driveFrameBad p f = false)
    (hsound : (fieldLE f 0 2).testBit 2 = false) : s.driveFrame p f =
      (State.setReg { s with mot := { s.mot with axpBad := upd s.mot.axpBad p (fun _ => 0) } } (Reg.PLN_AXPSTAT p)
        (BitVec.ofNat 32 (fieldLE f 0 2 + 65536))).setReg (Reg.PLN_FOLERR p) (toWord (fieldLEs f 2 2)) := by
  have hused : ¬ (!(s.rbit (Reg.PLN_AXP p) 0 && s.drives && decide (p < 2))) = true := by simp [hport, hdrives, hp]
  exact (if_neg hused).trans ((if_neg (ne_true_of_eq_false hgood)).trans (if_neg (ne_true_of_eq_false hsound)))

end State

section Commands

variable {s : State} (hr : s.running = true) {m : Nat} (hm : m < 2)
include hr hm

/-- R278: an edge on the step input moves the target by the configured distance, within the soft limits. -/
theorem exec_stepEdge_of_enabled (up : Bool) (hplans : s.plans = true)
    (hon : s.rbit (Reg.STP_CTRL m) 0 = true) (hfree : s.homingNow ≠ some (m + 2)) :
    exec (.stepEdge m up) s = .next (State.settle (s.startMove (m + 2)
      (max (256 * s.softLo (m + 2)) (min (256 * s.softHi (m + 2))
        (if up then (s.axis (m + 2)).target + 256 * s.rfld (Reg.STP_CFG m) 16 8
         else (s.axis (m + 2)).target - 256 * s.rfld (Reg.STP_CFG m) 16 8))))) := by
  have hstarts : ¬ (decide (2 ≤ m) || !s.plans || !s.rbit (Reg.STP_CTRL m) 0) = true := by simp [hm, hplans, hon]
  show execStepEdge m up s = _
  exact whenReady_effect hr ((if_neg hstarts).trans (if_neg hfree))

/-- R279: a motor that moves at SVMIN or more and is loaded to its threshold stalls; unless its axis homes, that is a fault
of the axis. -/
theorem exec_stall_of_moving {load : Int} {v : State} (hmoving : (s.axis (m + 2)).moving = true)
    (hload : s.rfld (Reg.STP_STALL m) 0 10 ≤ load.natAbs)
    (hspeed : (s.reg (Reg.STP_SVMIN m)).toNat ≤ (s.axis (m + 2)).vel.natAbs)
    (hv : v = (((s.updAxis (m + 2) (fun x => { x with pos := 256 * s.stepAt m })).updStp m (fun p => { p with
      pos := s.stepAt m, elec := uNat 10 (s.stepAt m), stalled := true, hold := true, load := load })).event
        Reg.STP_EVENT m).freezeAxis (m + 2)) (hfree : v.homingNow ≠ some (m + 2)) :
    exec (.stall m load) s = .next (State.settle ((v.raise Src.STP_STALL).axisFault (m + 2))) := by
  have hstalls : ¬ (decide (2 ≤ m) || !(s.axis (m + 2)).moving || decide (load.natAbs < s.rfld (Reg.STP_STALL m) 0 10) ||
      decide ((s.axis (m + 2)).vel.natAbs < (s.reg (Reg.STP_SVMIN m)).toNat)) = true := by
    simp [hm, hmoving, hload, hspeed]
  have hhomes : ¬ (decide (v.homingNow = some (m + 2)) && decide (v.homeMethod (m + 2) = 1)) = true := by simp [hfree]
  subst hv
  show execStall m load s = _
  exact whenReady_effect hr ((if_neg hstalls).trans (if_neg hhomes))

end Commands

/-- Settles O24: a drive frame by `State.driveFrame_good`, a step edge and a stall by their rules, and after 100 ms at rest
each command finds the axis at rest in the state to which the clock has run on. -/
theorem drivesAndSteppersComplete : Obligations.DrivesAndSteppersComplete := by
  unfold Obligations.DrivesAndSteppersComplete
  intro s hr hc
  have hf := State.not_failed_of_running hr
  refine ⟨fun p f hport hdrives hp hgood hsound => ?drive,
    fun m up hm hplans hon hfree => exec_stepEdge_of_enabled hr hm up hplans hon hfree,
    fun m load v hm hmoving hload hspeed hv hfree => exec_stall_of_moving hr hm hmoving hload hspeed hv hfree,
    fun m t r hm hrest hdue => ?hold, fun a t r ha hrest haxis hstill hhomed hdue => ?record⟩
  case drive =>
    show execAxpDriveFrame p f s = _
    exact whenReady_effect hr (State.driveFrame_good hport hdrives hp hgood hsound)
  case hold =>
    have hholds : (decide (m < 2) && decide (r + 20000000 ≤ (s.at_ t).clk.pclk)) = true := by simp [hm, hdue]
    rw [← s.at_axis_eq t] at hrest
    show execStepperHoldCurrent m t s = _
    refine whenClocked_effect hc hf ?_
    simp only [hrest, hholds, if_true]
  case record =>
    have htaken : (s.hasAxis && decide (a < 4) && !(s.axis a).moving && decide (s.homeStat a = 2) &&
        decide (r + 20000000 ≤ (s.at_ t).clk.pclk)) = true := by simp [haxis, ha, hstill, hhomed, hdue]
    show execAxisRecordWrite a t s = _
    refine whenClocked_effect hc hf ?_
    simp only [State.at_axis_eq, State.at_hasAxis_eq, State.at_homeStat_eq, State.at__island, hrest, htaken, if_true]

end Sys2Proof.Machine
end

section
/-! Switches and encoders (R270, R273, R274, R281, R282): what a change of a switch does outside homing, and what an
encoder makes of a sample in its mode. -/

namespace Sys2Proof.Machine

/-! ## Switches (R281, R282) -/

section Switches

variable {s : State} {k : Nat} (hr : s.running = true) (haxis : s.hasAxis = true) (hk : k ≤ 7)
include hr haxis hk

/-- R281: a change at a switch that is no home switch is noted and counted; a sound limit switch that becomes active trips
its axis. -/
theorem exec_switchChange_limit {level : Bool} {u : State}
    (hlevel : (s.switchOf k).active ≠ (level != bit (s.reg (Reg.SWI_CFG k)) 5))
    (hrole : fld (s.reg (Reg.SWI_CFG k)) 0 3 ≠ 1) (hsound : (s.switchOf k).faulty = false)
    (hu : u = (State.event { s with swi := upd s.swi k (fun w =>
      { w with active := (level != bit (s.reg (Reg.SWI_CFG k)) 5) }) } Reg.SWI_EVENT k).count (Reg.SWI_TRANS k) 1) :
    exec (.switchChange k level) s = .next (State.settle
      (if (fld (s.reg (Reg.SWI_CFG k)) 0 3 = 2 ∨ fld (s.reg (Reg.SWI_CFG k)) 0 3 = 3) ∧
          (level != bit (s.reg (Reg.SWI_CFG k)) 5) = true then u.limitTrip (fld (s.reg (Reg.SWI_CFG k)) 3 2) else u)) := by
  have hchanges : ¬ (!s.hasAxis || decide (7 < k) ||
      decide ((s.switchOf k).active = (level != bit (s.reg (Reg.SWI_CFG k)) 5))) = true := by
    rw [decide_eq_false hlevel]
    simp [haxis, hk]
  have htrips : ((decide (fld (s.reg (Reg.SWI_CFG k)) 0 3 = 2) || decide (fld (s.reg (Reg.SWI_CFG k)) 0 3 = 3)) &&
      (level != bit (s.reg (Reg.SWI_CFG k)) 5) && !(s.switchOf k).faulty) = true ↔
      (fld (s.reg (Reg.SWI_CFG k)) 0 3 = 2 ∨ fld (s.reg (Reg.SWI_CFG k)) 0 3 = 3) ∧
        (level != bit (s.reg (Reg.SWI_CFG k)) 5) = true := by
    simp only [hsound, Bool.not_false, Bool.and_true, Bool.and_eq_true, Bool.or_eq_true, decide_eq_true_eq]
  subst hu
  show execSwitchChange k level s = _
  refine whenReady_effect hr ((if_neg hchanges).trans ((if_neg hrole).trans ?_))
  exact ite_congr (propext htrips) (fun _ => rfl) (fun _ => rfl)

/-- R282: more transitions than CHAT_MAX make a sound switch FAULTY, and a limit switch trips its axis with that. -/
theorem exec_switchChatter_limit {n : Nat} {u : State} (hsound : (s.switchOf k).faulty = false)
    (hmax : fld (s.reg (Reg.SWI_CFG k)) 16 8 < n) (hrole : fld (s.reg (Reg.SWI_CFG k)) 0 3 ≠ 1)
    (hu : u = (State.event { s.count (Reg.SWI_TRANS k) n with swi := upd s.swi k (fun w => { w with faulty := true }) }
      Reg.SWI_EVENT (8 + k)).raise Src.SWI_CHATTER) :
    exec (.switchChatter k n) s = .next (State.settle
      (if fld (s.reg (Reg.SWI_CFG k)) 0 3 = 2 ∨ fld (s.reg (Reg.SWI_CFG k)) 0 3 = 3 then
        u.limitTrip (fld (s.reg (Reg.SWI_CFG k)) 3 2) else u)) := by
  have hpresent : ¬ (!s.hasAxis || decide (7 < k)) = true := by simp [haxis, hk]
  have hchatters : ¬ ((s.switchOf k).faulty || decide (n ≤ fld (s.reg (Reg.SWI_CFG k)) 16 8)) = true := by
    simp [hsound, hmax]
  have hlimit : (decide (fld (s.reg (Reg.SWI_CFG k)) 0 3 = 2) || decide (fld (s.reg (Reg.SWI_CFG k)) 0 3 = 3)) = true ↔
      fld (s.reg (Reg.SWI_CFG k)) 0 3 = 2 ∨ fld (s.reg (Reg.SWI_CFG k)) 0 3 = 3 := by
    simp only [Bool.or_eq_true, decide_eq_true_eq]
  subst hu
  show execSwitchChatter k n s = _
  refine whenReady_effect hr ((if_neg hpresent).trans ((if_neg hchatters).trans ((if_neg hrole).trans ?_)))
  exact ite_congr (propext hlimit) (fun _ => rfl) (fun _ => rfl)

end Switches

namespace State

/-! ## The lines of a quadrature encoder (R270) -/

section Lines

variable {s : State} {u : Nat} {a b : Bool} (ha : a ≠ (s.posu u).aLine)
include ha

/-- Line A alone changes: an edge, whose direction the other line and INVERT give. -/
theorem quad_lineA (hb : b = (s.posu u).bLine) (t : Nat) :
    s.quad u a b t = (s.updPos u (fun p => { p with aLine := a, bLine := b })).posEdge u
      ((a = b) != (s.updPos u (fun p => { p with aLine := a, bLine := b })).rbit (Reg.POS_CFG u) 2) t := by
  have hone : ¬ (a != (s.posu u).aLine && b != (s.posu u).bLine) = true := by simp [hb]
  exact (if_neg hone).trans (if_pos (bne_iff_ne.mpr ha))

/-- Both lines change in one sample. -/
theorem quad_bothLines (hb : b ≠ (s.posu u).bLine) (t : Nat) :
    s.quad u a b t = (s.updPos u (fun p => { p with aLine := a, bLine := b })).sameSample u t := by
  have hboth : (a != (s.posu u).aLine && b != (s.posu u).bLine) = true := by simp [ha, hb]
  exact if_pos hboth

end Lines

end State

/-- Settles O25: a switch's command has its rule above in READY; a sample goes, once the clocks run, to the operation of the
encoder's mode, and for a quadrature encoder to the rule of the lines that changed. -/
theorem switchesAndEncodersComplete : Obligations.SwitchesAndEncodersComplete := by
  unfold Obligations.SwitchesAndEncodersComplete
  refine ⟨fun s k hr haxis hk => ⟨fun level hlevel hrole hsound u hu => ?change, fun n hsound hmax hrole u hu => ?chatter,
    ?recover⟩, fun s u t hc hf hu => ?encoders⟩
  case change => exact exec_switchChange_limit hr haxis hk hlevel hrole hsound hu
  case chatter => exact exec_switchChatter_limit hr haxis hk hsound hmax hrole hu
  case recover =>
    show execSwitchRecover k s = _
    exact whenReady_effect hr (if_pos haxis)
  case encoders =>
    have clocked := whenClocked_of_released hc hf
    have inMode {m : Nat} (hm : posMode s u = m) : (s.posPresent u && decide (posMode s u = m)) = true := by
      simp [hu, hm]
    refine ⟨fun a b hm ha hb => ?lineA, fun a b hm ha hb => ?bothLines, fun l hm => ?amplitude, fun sn cs hm => ?sincos,
      fun raw high hm => ?ssi⟩
    case lineA =>
      show execQuadEdge u a b t s = _
      rw [← s.at_posu_eq t] at ha hb
      rw [execQuadEdge, clocked, if_pos (inMode hm), State.quad_lineA ha hb]
    case bothLines =>
      show execQuadEdge u a b t s = _
      rw [← s.at_posu_eq t] at ha hb
      rw [execQuadEdge, clocked, if_pos (inMode hm), State.quad_bothLines ha hb]
    case amplitude =>
      show execAmplitude u l s = _
      rw [execAmplitude, clocked, if_pos (inMode hm)]
    case sincos =>
      show execSincosSample u sn cs t s = _
      rw [execSincosSample, clocked, if_pos (inMode hm)]
    case ssi =>
      show execSsiRead u raw high t s = _
      rw [execSsiRead, clocked, if_pos (inMode hm)]

end Sys2Proof.Machine
end

section
/-! Probes and comparators of the position units (R275, R276): what an edge, a crossing and the end of a pulse do once
their guards hold. -/

namespace Sys2Proof.Machine

namespace State

variable {s : State} {u : Nat}

/-- R275: the edge that an armed probe waits for latches the position and the time, disarms it, and is noted. -/
theorem probe_armed {rising : Bool} (harmed : bit (s.reg (Reg.POS_PRBCTRL u)) 0 = true)
    (hedge : bit (s.reg (Reg.POS_PRBCTRL u)) 1 = !rising) : s.probe u rising =
      ((((((s.setReg (Reg.POS_PRB_LO u) (toWord (s.posX u))).setReg (Reg.POS_PRB_HI u)
        (toWord (s.posX u / 2 ^ 32))).setReg (Reg.POS_PRB_TLO u) (BitVec.ofNat 32 s.now)).setReg (Reg.POS_PRB_THI u)
        (BitVec.ofNat 32 (s.now >>> 32))).setReg (Reg.POS_PRBCTRL u)
        (setBit (s.reg (Reg.POS_PRBCTRL u)) 0 false)).event (Reg.POS_STAT u) 5).event Reg.POS_EVENT u := by
  have hlatch : (bit (s.reg (Reg.POS_PRBCTRL u)) 0 && decide (bit (s.reg (Reg.POS_PRBCTRL u)) 1 = !rising)) = true := by
    simp [harmed, hedge]
  exact if_pos hlatch

/-- R276: what the comparator holds once it has fired: it is armed no more, and its pulse ends 8 PCLK per unit of the
configured width later. -/
def compareFired (s : State) (u : Nat) (ge : Bool) : State :=
  ((s.updPos u (fun p => { p with cmpPrev := ge })).updPos u (fun p => { p with
    cmpArmed := false, cmpEnd := some (s.clk.pclk + 8 * max 1 (fld (s.reg (Reg.POS_CMPCTRL u)) 8 8)) })).setReg
      (Reg.POS_STAT u) (setBit (s.reg (Reg.POS_STAT u)) 3 false)

/-- R276: a crossing in a direction that the comparator looks for fires its pulse. -/
theorem compareCross_fires {ge : Bool} (hge : ge = decide ((s.posu u).cmpVal ≤ s.posX u))
    (harmed : (s.posu u).cmpArmed = true) (hcross : ge ≠ (s.posu u).cmpPrev)
    (hup : fld (s.reg (Reg.POS_CMPCTRL u)) 0 2 = 1 → ge = true)
    (hdown : fld (s.reg (Reg.POS_CMPCTRL u)) 0 2 = 2 → ge = false) :
    s.compareCross u = (State.event { s.compareFired u ge with pins := { s.pins with
      cmpHigh := upd s.pins.cmpHigh u (fun _ => true) } } Reg.POS_EVENT (4 + u)).emit (.comparePulse u true) := by
  have hdir : ¬ (decide (fld (s.reg (Reg.POS_CMPCTRL u)) 0 2 = 1) && !ge ||
      decide (fld (s.reg (Reg.POS_CMPCTRL u)) 0 2 = 2) && ge) = true := by
    simp only [Bool.or_eq_true, Bool.and_eq_true, decide_eq_true_eq, Bool.not_eq_true']
    rintro (⟨h1, hbelow⟩ | ⟨h2, habove⟩)
    · exact Bool.false_ne_true (hbelow.symm.trans (hup h1))
    · exact Bool.false_ne_true ((hdown h2).symm.trans habove)
  have hacts : ¬ (!(s.posu u).cmpArmed || decide (ge = (s.posu u).cmpPrev)) = true := by simp [harmed, hcross]
  subst hge
  exact (if_neg hacts).trans (if_neg hdir)

/-- R276: at its end the pulse is taken back. -/
theorem comparePulseOver_ended {e : Nat} (he : (s.posu u).cmpEnd = some e) (hover : e ≤ s.clk.pclk) :
    s.comparePulseOver u = State.emit { s.updPos u (fun p => { p with cmpEnd := none }) with pins := { s.pins with
      cmpHigh := upd s.pins.cmpHigh u (fun _ => false) } } (.comparePulse u false) := by
  simp only [comparePulseOver, he, if_pos hover]
  rfl

end State

/-- Settles O26: once the clocks run, each command of a position unit of the module is its operation in the state to which
the clock has run on, and the operation's own rule says what it does there. -/
theorem probesAndComparatorsComplete : Obligations.ProbesAndComparatorsComplete := by
  unfold Obligations.ProbesAndComparatorsComplete
  rintro s v u t hc hf haxis hu rfl
  have clocked := whenClocked_of_released hc hf
  have hunit : (s.hasAxis && decide (u < 4)) = true := by simp [haxis, hu]
  refine ⟨?probe, fun hi => ?arm, ?fire, fun e he hover => ?ends⟩
  case probe =>
    rintro rising x harmed hedge rfl
    show execProbeEdge u rising t s = _
    rw [← s.at_reg_eq t] at harmed hedge ⊢
    rw [execProbeEdge, clocked, if_pos hunit, State.probe_armed harmed hedge]
  case arm =>
    show execPosCmpArm u hi t s = _
    rw [execPosCmpArm, clocked, if_pos hunit]
  case fire =>
    rintro ge x hge harmed hcross hup hdown rfl
    show execCompareFire u t s = _
    rw [← s.at_posu_eq t] at hge harmed hcross
    rw [← s.at_reg_eq t] at hup hdown
    rw [execCompareFire, clocked, if_pos hunit, State.compareCross_fires hge harmed hcross hup hdown,
      State.compareFired, s.at_reg_eq, s.at_reg_eq, s.at__pins]
  case ends =>
    show execComparePulseEnd u t s = _
    rw [← s.at_posu_eq t] at he
    rw [execComparePulseEnd, clocked, if_pos hunit, State.comparePulseOver_ended he hover, s.at__pins]

end Sys2Proof.Machine
end

section
/-! Power, RST_N, MOD_EN and PRESENT_N (R290, R516, R517, R541): which of them reset the module, and what of it each
reset adds to a chip reset. -/

namespace Sys2Proof.Machine

namespace State

/-- R474, R517, R543: what power loss clears beyond a reset of cause 0, and what of the island VBAT keeps. -/
theorem powerLoss_eq (s : State) (kept : Bool) : s.powerLoss kept =
    { ((s.chipReset 0).setReg Reg.CRU_CRSTS 0) with
        boot := { (s.chipReset 0).boot with failedStarts := 0 }, die := { s.die with cycle := [] },
        island := if kept then s.island else List.replicate 256 0 } := rfl

end State

/-- R541: in a module that has not failed, PRESENT_N resets it with cause 4. -/
theorem execPresentNRise_of_sound {s : State} (hf : s.boot.failed = false) : execPresentNRise s =
    .next (State.settle { s.chipReset 4 with pins := { (s.chipReset 4).pins with presentN := true } }) :=
  if_neg (ne_true_of_eq_false hf)

/-- R516: FAILED outlasts PRESENT_N. -/
theorem execPresentNRise_of_failed {s : State} (hf : s.boot.failed = true) : execPresentNRise s =
    .next { s with pins := { s.pins with presentN := true } } :=
  if_pos hf

/-- Settles O8: power that was lost, RST_N and MOD_EN reset in every state, and PRESENT_N by whether start-up has failed. -/
theorem resetsComplete : Obligations.ResetsComplete := by
  unfold Obligations.ResetsComplete
  intro s
  refine ⟨fun kept => ?cold, rfl, rfl, fun hf => ?present, fun hf => ?failed⟩
  case cold =>
    show done ((s.powerLoss kept).leaveReset) = _
    rw [State.powerLoss_eq]
    rfl
  case present => exact show execPresentNRise s = _ from execPresentNRise_of_sound hf
  case failed => exact show execPresentNRise s = _ from execPresentNRise_of_failed hf

end Sys2Proof.Machine
end

section
/-! Frames of the twin link (R315) and what they mirror (R97, R164, R199, R252, R295, R312): which frames act, and the effects
that are more than an operation's call. -/

namespace Sys2Proof.Machine

/-! ## Which frames act (R315) -/

section TwinFrames

variable {s : State} {h : FrameHdr} {o : State → State}

/-- The next frame of the twin link answers the settled state that its effect makes of the one in which it is delivered. -/
theorem twinFrame_effect {u : State} (hn : s.twinNext h = true) (ho : o (s.twinTaken h) = u) :
    twinFrame s h o = .next u.settle :=
  ho ▸ twinFrame_next o hn

/-- So does the next mirrored frame, at a module that applies it. -/
theorem twinMirror_effect {u : State} (hn : s.twinNext h = true) (ha : s.twinApplies = true)
    (ho : o (s.twinTaken h) = u) : twinMirror s h o = .next u.settle :=
  ho ▸ twinMirror_next o hn ha

/-- A good frame that is not the next one is not delivered: its acknowledgement alone is taken. -/
theorem twinFrame_outOfOrder (hl : s.twinListens = true) (hg : h.good = true) (hseq : h.tseq ≠ s.twn.rxNext) :
    twinFrame s h o = .next (s.twinAck h.tack).settle := by
  have hrx : (s.twinAck h.tack).twn.rxNext = s.twn.rxNext := rfl
  have hin : s.twinIn h = (s.twinAck h.tack, false) := by simp [State.twinIn, hg, hrx, hseq]
  rw [twinFrame, if_pos hl, hin]
  rfl

/-- A frame that fails its CRC does nothing at all. -/
theorem twinFrame_bad (hl : s.twinListens = true) (hg : h.good = false) : twinFrame s h o = .next s.settle := by
  have hin : s.twinIn h = (s, false) := by simp [State.twinIn, hg]
  rw [twinFrame, if_pos hl, hin]
  rfl

end TwinFrames

/-! ## What mirrored frames do (R252, R295, R312) -/

/-- R8: the registers STB_VTRIM are told apart by their addresses. -/
theorem vtrim_find {r : Nat} (hr : r < 16) :
    (List.range 16).find? (fun q => decide (Reg.STB_VTRIM q = Reg.STB_VTRIM r)) = some r := by
  rw [List.find?_range_eq_some]
  refine ⟨decide_eq_true rfl, List.mem_range.mpr hr, fun q hq => ?_⟩
  have hne : Reg.STB_VTRIM q ≠ Reg.STB_VTRIM r := by
    unfold Reg.STB_VTRIM
    omega
  simp [hne]

/-- R295: a mirrored write of STB_VTRIM[r] is this module's own. -/
theorem exec_twinWrite_vtrim {s : State} {h : FrameHdr} {r : Nat} (hn : s.twinNext h = true) (ha : s.twinApplies = true)
    (hr : r < 16) (v : Word) :
    exec (.twinWrite h (Reg.STB_VTRIM r) v) s = .next ((s.twinTaken h).vtrimWrite r v).settle := by
  show execTwinWrite h (Reg.STB_VTRIM r) v s = _
  refine twinMirror_effect hn ha ?_
  simp only [vtrim_find hr]

/-- R252, R312: the owner's axes are taken over; a joiner whose peer has become HELD, and with it lost the homing that
this module still has, starts its sync again. -/
theorem exec_twinAxis_of_next {s w : State} {h : FrameHdr} {tick : Nat} {axes : List AxisState} {st : Word} {lost : Bool}
    (hn : s.twinNext h = true) (ha : s.twinApplies = true)
    (hlost : lost = (fld st 0 3 = Build.HELD && s.mot.bstate != Build.HELD &&
      (List.range 4).any (fun a => s.homeStat a = 2 && !bit st (8 + a))))
    (hw : w = (s.twinTaken h).axisFrame axes st) :
    exec (.twinAxis h tick axes st) s =
      .next (State.settle (if lost = true ∧ w.twn.role = 4 ∧ w.twn.phase ≠ 0 then w.syncFail 5 else w)) := by
  have hrestarts : (lost && decide (w.twn.role = 4) && w.twn.phase != 0) = true ↔
      lost = true ∧ w.twn.role = 4 ∧ w.twn.phase ≠ 0 := by
    simp [and_assoc]
  show execTwinAxis h tick axes st s = _
  refine twinMirror_effect hn ha ?_
  subst hlost hw
  exact ite_congr (propext hrestarts) (fun _ => rfl) (fun _ => rfl)

/-- Settles O27: the rows of the link each in the state at hand; a mirrored frame by `twinMirror_effect`, where the axes
and the trim have rules of their own. -/
theorem twinLinkAndMirrorsComplete : Obligations.TwinLinkAndMirrorsComplete := by
  unfold Obligations.TwinLinkAndMirrorsComplete
  refine ⟨fun s => ?link, fun s u h hn ha hu => ?mirrors⟩
  case link =>
    refine ⟨fun tack u hl hu => ?idleAck,
      fun h pos ridge epoch crc hl => ⟨fun hg hseq => twinFrame_outOfOrder hl hg hseq, fun hg => twinFrame_bad hl hg⟩,
      fun hl hwait => ?again, fun hl => ?idle, fun hc hf hup => ?lost, fun t u hl hu => ?time⟩
    case idleAck =>
      subst hu
      exact show execTwinIdleAck tack s = _ from if_pos hl
    case again =>
      have hsends : (s.twinListens && !s.twn.unacked.isEmpty) = true := by simp [hl, hwait]
      exact show execTwinRetxTimeout s = _ from if_pos hsends
    case idle => exact show execTwinIdleDue s = _ from if_pos hl
    case lost =>
      show execTwinLinkLost s = _
      exact whenClocked_effect hc hf (if_pos hup)
    case time =>
      subst hu
      exact show execTwinTimeSend t s = _ from if_pos hl
  case mirrors =>
    subst hu
    exact ⟨fun _ _ _ _ _ _ => twinMirror_effect hn ha rfl, fun _ _ _ _ _ => twinMirror_effect hn ha rfl,
      fun _ => twinMirror_effect hn ha rfl, fun _ => twinMirror_effect hn ha rfl, fun _ => twinMirror_effect hn ha rfl,
      fun _ _ _ _ _ hlost hw => exec_twinAxis_of_next hn ha hlost hw, fun _ _ => twinMirror_effect hn ha rfl,
      fun _ v hr => exec_twinWrite_vtrim hn ha hr v⟩

end Sys2Proof.Machine
end

section
/-! Twin roles (R292 to R294, R306, R312): a silent peer, and the commands of the pair by the supervisor. -/

namespace Sys2Proof.Machine

namespace State

/-! ## A silent peer (R292, R293) -/

/-- A standby whose peer is silent takes over. -/
theorem peerSilent_standby {s : State} (hr : s.twn.role = 3) :
    s.peerSilent = takeover { s with pins := { s.pins with tpeer := false } } := by
  simp only [peerSilent, hr]

/-- A joiner whose peer is silent has nobody to join: its sync has failed and it leaves the pair. -/
theorem peerSilent_joiner {s : State} (hr : s.twn.role = 4) :
    s.peerSilent =
      ((event { s with pins := { s.pins with tpeer := false } } Reg.TWN_EVENT 7).raise Src.TWN_SYNC_FAIL).retire := by
  simp only [peerSilent, hr]

/-! ## The supervisor's commands (R293, R306) -/

/-- R293: a follower that the supervisor retires leaves the pair. -/
theorem retireWrite_of_follower {s : State} (ho : s.owns = false) (hf : s.follows = true) :
    s.retireWrite s.super = (s.retire, .ok) := by
  simp [retireWrite, ho, hf]

/-- R306: an ACTIVE module with a standby begins a handover; its tick is not named yet. -/
theorem handoverWrite_begins {s : State} (hr : s.twn.role = 2) (hp : s.twn.peerRole = 3)
    (hnone : s.twn.handover = none) :
    s.handoverWrite s.super = ({ s with twn := { s.twn with handover := some 0 } }, .ok) := by
  simp [handoverWrite, hr, hp, hnone]

end State

/-- Settles O28: frames act in the state in which they are delivered, and the other rows once the clocks run, each by the
rule of its operation in the role at hand. -/
theorem twinRolesComplete : Obligations.TwinRolesComplete := by
  unfold Obligations.TwinRolesComplete
  intro s hc hf
  refine ⟨fun t hr => ?standby, fun t hr => ?joiner, fun hphase hr hlink hpair => ?decision,
    fun h role slotB tkn variant step compat u v hn hu hv => ?role, fun h tick tkn u hn hr hu => ?handover,
    fun ho hfollows => ?retire, fun hr hp hnone => ?begin, fun hr hphase => ?timeout⟩
  case standby =>
    rw [← s.at__twn t] at hr
    rw [← s.at__pins t]
    show execTpeerSilent t s = _
    exact whenClocked_effect hc hf (State.peerSilent_standby hr)
  case joiner =>
    rw [← s.at__twn t] at hr
    rw [← s.at__pins t]
    show execTpeerSilent t s = _
    exact whenClocked_effect hc hf (State.peerSilent_joiner hr)
  case decision =>
    have hdecides : (decide (s.boot.phase = 11) && decide (s.twn.role = 0) && !s.linkActive .twin &&
        s.rbit Reg.TWN_CTRL 0) = true := by simp [hphase, hr, hlink, hpair]
    show execTwinWaitExpiry s = _
    exact whenClocked_effect hc hf (if_pos hdecides)
  case role =>
    subst hu hv
    show execTwinRole h role slotB tkn variant step compat s = _
    exact twinFrame_effect hn rfl
  case handover =>
    subst hu
    show execTwinHandover h tick tkn s = _
    exact twinFrame_effect hn (if_pos hr)
  case retire =>
    show execTwnCmdRetire s.super s = _
    refine whenClocked_effect hc hf ?_
    rw [State.retireWrite_of_follower ho hfollows, State.wrote]
  case begin =>
    show execTwnCmdHandover s.super s = _
    refine whenClocked_effect hc hf ?_
    rw [State.handoverWrite_begins hr hp hnone, State.wrote]
  case timeout =>
    have hruns : (decide (s.twn.role = 4) && s.twn.phase != 0) = true := by simp [hr, hphase]
    show execSyncTimeout s = _
    exact whenClocked_effect hc hf (if_pos hruns)

end Sys2Proof.Machine
end

section
/-! CRC, TIME and SYNC frames of the twin link (R297, R303, R308, R312): when a value counts, when the timebase follows, and
when a sync object is judged. -/

namespace Sys2Proof.Machine

namespace State

/-! ## Values (R297) -/

section Values

variable {s : State} {pos : BuildPos} {q : Nat}

/-- The value of a line that is compared by twin, or of any line in a joiner, goes to its slice. -/
theorem twinValue_compared (hq : s.ordOf pos = some q) (hby : s.byTwin pos.layer pos.swath = true ∨ s.twn.role = 4)
    (i epoch : Nat) (v : BitVec 32) : s.twinValue pos i epoch v = s.valueArrives q i (BitVec.ofNat 8 epoch) v := by
  have hcounts : (s.byTwin pos.layer pos.swath || decide (s.twn.role = 4)) = true := by simpa using hby
  simp only [twinValue, hq, if_pos hcounts]

/-- The value of a line that no plan has goes by. -/
theorem twinValue_unknown (hq : s.ordOf pos = none) (i epoch : Nat) (v : BitVec 32) : s.twinValue pos i epoch v = s := by
  simp only [twinValue, hq]

end Values

/-! ## The peer's time (R303) -/

/-- What a TIME frame's stamp leaves for this module's next one. -/
def stamped (s : State) (t3 : Nat) : State := { s with twn := { s.twn with timePeer := some (t3, s.now) } }

section Stamps

variable {s : State} {t1 t2 : Nat}

/-- A follower that has had a stamp of its own answered follows by half the difference of the two ways. -/
theorem twinTime_follower (hf : s.follows = true) (ht : t1 ≠ 0 ∨ t2 ≠ 0) (t3 : Nat) :
    s.twinTime t1 t2 t3 = (s.stamped t3).linkTime ((((t2 : Int) - t1) + ((t3 : Int) - s.now)) / 2) false := by
  have hadjusts : ((s.stamped t3).follows && !(decide (t1 = 0) && decide (t2 = 0))) = true := by
    simp only [Bool.and_eq_true, Bool.not_eq_true', Bool.and_eq_false_iff, decide_eq_false_iff_not]
    exact ⟨hf, ht⟩
  exact if_pos hadjusts

/-- Any other module keeps the stamp alone. -/
theorem twinTime_owner (hf : s.follows = false) (t3 : Nat) : s.twinTime t1 t2 t3 = s.stamped t3 := by
  have hkeeps : ¬ ((s.stamped t3).follows && !(decide (t1 = 0) && decide (t2 = 0))) = true := by
    have hstamped : (s.stamped t3).follows = false := hf
    simp [hstamped]
  exact if_neg hkeeps

end Stamps

/-! ## Parts of a sync object (R308, R312) -/

@[simp] theorem twinTaken_die (s : State) (h : FrameHdr) : (s.twinTaken h).die = s.die := rfl

@[simp] theorem twinTaken_syncRoom (s : State) (h : FrameHdr) (obj : Nat) :
    (s.twinTaken h).syncRoom obj = s.syncRoom obj := by
  rw [syncRoom, syncRoom, twinTaken_die]

/-- R308: what the joiner holds once the one part that is a whole object has arrived in BULK. -/
def wholeObject (s : State) (obj : Nat) (data : Bytes) : State :=
  { s with twn := { s.twn with
      object := obj, copies := (obj, data) :: s.twn.copies.filter (fun z => z.1 != obj),
      done := (s.twn.done + data.length / 1048576) % 65536 } }

section Sync

variable {s : State} {obj : Nat} (hr : s.twn.role = 4) (hid : s.twn.idBad = false) (hlo : 1 ≤ obj) (hhi : obj ≤ 9)
include hr hid hlo hhi

/-- In a joiner whose sync runs, a part of an object that does not fit fails the sync with cause 6. -/
theorem syncPart_too_long (hphase : s.twn.phase ≠ 0) {off : Nat} {data : Bytes}
    (hroom : s.syncRoom obj < off + data.length) (last delta : Bool) :
    s.syncPart obj last delta off data = s.syncFail 6 := by
  have htaken : ¬ (s.twn.role != 4 || decide (s.twn.phase = 0) || s.twn.idBad || decide (obj = 0) ||
      decide (9 < obj)) = true := by
    simp [hr, hid, hphase, hhi]
    omega
  exact (if_neg htaken).trans (if_pos hroom)

/-- An object in one part that does not end with the CRC-32C of the rest fails the sync with cause 4; CONTEXTS (object 3),
which begins ALIGN, is left out. -/
theorem syncPart_bad_sum (hphase : s.twn.phase = 3) (hkeys : obj ≠ 3) {data : Bytes} (hroom : data.length ≤ s.syncRoom obj)
    (hsum : leNat (data.drop (data.length - 4)) ≠ (crc32c (data.take (data.length - 4))).toNat) (delta : Bool) :
    s.syncPart obj true delta 0 data = (s.wholeObject obj data).syncFail 4 := by
  have htaken : ¬ (s.twn.role != 4 || decide (s.twn.phase = 0) || s.twn.idBad || decide (obj = 0) ||
      decide (9 < obj)) = true := by
    simp [hr, hid, hphase, hhi]
    omega
  have hfits : ¬ s.syncRoom obj < 0 + data.length := by omega
  refine (if_neg htaken).trans ((if_neg hfits).trans ?_)
  simp [slicePad, hphase, hkeys, hsum, wholeObject]

end Sync

end State

/-- Settles O29: each frame acts in the state in which it is delivered, where its operation's rule says what follows. -/
theorem twinFramesComplete : Obligations.TwinFramesComplete := by
  unfold Obligations.TwinFramesComplete
  rintro s u h hn rfl
  refine ⟨fun pos i epoch crc => ⟨fun q hq hby => ?value, fun hq => ?unknown⟩, fun t1 t2 t3 t v w hv hw => ?time,
    fun obj last delta off data => twinFrame_effect hn rfl,
    fun obj delta data v hr hphase hid hlo hhi hkeys _ hroom hsum hv => ?badSum,
    fun obj last delta off data hr hphase hid hlo hhi hroom => ?tooLong⟩
  case value =>
    show execTwinCrc h pos i epoch crc s = _
    exact twinFrame_effect hn (State.twinValue_compared (s := s.twinTaken h) hq hby i epoch crc)
  case unknown =>
    show execTwinCrc h pos i epoch crc s = _
    exact twinFrame_effect hn (State.twinValue_unknown (s := s.twinTaken h) hq i epoch crc)
  case time =>
    subst hv hw
    rw [← s.twinTaken_follows h, ← (s.twinTaken h).at_follows_eq t]
    refine ⟨fun hf ht => ?_, fun hf => ?_⟩
    · show execTwinTime h t1 t2 t3 t s = _
      exact twinFrame_effect hn (State.twinTime_follower hf ht t3.toNat)
    · show execTwinTime h t1 t2 t3 t s = _
      exact twinFrame_effect hn (State.twinTime_owner hf t3.toNat)
  case badSum =>
    subst hv
    rw [← s.twinTaken_syncRoom h] at hroom
    show execTwinSync h obj true delta 0 data s = _
    exact twinFrame_effect hn (State.syncPart_bad_sum (s := s.twinTaken h) hr hid hlo hhi hphase hkeys hroom hsum delta)
  case tooLong =>
    rw [← s.twinTaken_syncRoom h] at hroom
    show execTwinSync h obj last delta off data s = _
    exact twinFrame_effect hn (State.syncPart_too_long (s := s.twinTaken h) hr hid hlo hhi hphase hroom last delta)

end Sys2Proof.Machine
end

section
/-! The checks of a twin pair (R299, R301, R302, R317): the tie-break of a slice that did not match, the shadow value of a slice
that was posted, and the cascade frames that the twin passes on. -/

namespace Sys2Proof.Machine

namespace State

/-! ## The tie-break (R299) -/

/-- The body of this module's TIEBREAK frame for a slice: its place, its epoch and KINDS, and the check. -/
def tieBody (pos : BuildPos) (i : Nat) (k : RLine) (check : Nat) : Bytes :=
  leBytes 4 pos.layer ++ leBytes 2 pos.swath ++ leBytes 1 i ++ leBytes 1 k.epoch.toNat ++ leBytes 4 (uNat 32 pos.line) ++
    leBytes 4 k.kinds.toNat ++ leBytes 1 check ++ List.replicate 7 0

section TieBreak

variable {s : State} {pos : BuildPos} {i q : Nat} {k : RLine} (hq : s.ordOf pos = some q) (hk : s.rline q i = some k)
include hq hk

/-- The slice that a tie is about. -/
theorem slice_of_place : (s.ordOf pos).bind (fun q => s.rline q i) = some k := by
  rw [hq, Option.bind_some, hk]

/-- KINDS that differ explain the mismatch, which is counted; until this module's own check is out that stays known. -/
theorem tieFrame_explained {kinds : BitVec 32} (hkinds : k.kinds ≠ kinds) (check : Nat) :
    s.tieFrame pos i kinds check =
      State.count (if s.twn.ties.any (fun t => t.pos = pos && t.ridge = i && t.own.isSome) then s.dropTie pos i
        else (s.openTie pos i).updTie pos i (fun t => { t with peer := some 3 })) Reg.TWN_EXPLAINED 1 := by
  have hdiffer : (k.kinds != kinds) = true := bne_iff_ne.mpr hkinds
  simp only [tieFrame, slice_of_place hq hk, if_pos hdiffer]

/-- With the same KINDS the frame brings the peer's check. -/
theorem tieFrame_checked (check : Nat) :
    s.tieFrame pos i k.kinds check =
      ((s.openTie pos i).updTie pos i (fun t => { t with peer := some check })).resolveTie pos i := by
  simp only [tieFrame, slice_of_place hq hk, bne_self_eq_false, Bool.false_eq_true, if_false]

/-- A spare that is at hand checks a slice that did not match: its CRC is the slice's or it is not. -/
theorem ownCheck_by_spare {v : BitVec 32} {c : Nat} (hr : s.twn.role = 2 ∨ s.twn.role = 3) (hm : k.mismatch = true)
    (hhalt : s.rdg.rotHalt = false) (hbist : s.rdg.inBist = none) (hspare : s.rdg.spare.isSome = true)
    (hties : ∀ t ∈ s.twn.ties, t.peer ≠ some 3) (hc : c = if k.crc = some v then 0 else 1) :
    s.ownCheck pos i (some v) =
      (((s.openTie pos i).updTie pos i (fun t => { t with own := some c })).twinSend 0x0E (tieBody pos i k c)).resolveTie
        pos i := by
  have hchecks : ¬ (!(decide (s.twn.role = 2) || decide (s.twn.role = 3)) || !k.mismatch) = true := by
    rcases hr with hr | hr <;> simp [hm, hr]
  have hbusy : (s.rdg.rotHalt || (s.rdg.inBist.isSome && decide (s.rdg.inBist = s.rdg.spare)) || s.rdg.spare.isNone) = false := by
    simp [hhalt, hbist, Option.isNone_eq_false_iff, hspare]
  have hopen : s.twn.ties.any (fun t => decide (t.pos = pos) && decide (t.ridge = i) && decide (t.peer = some 3)) = false := by
    simp only [List.any_eq_false, Bool.and_eq_true, decide_eq_true_eq]
    exact fun t ht h => hties t ht h.2
  subst hc
  simp only [ownCheck, slice_of_place hq hk, if_neg hchecks, hbusy, hopen, Bool.false_eq_true, if_false, tieBody]

end TieBreak

/-! ## Shadow values (R301, R302) -/

section Shadow

variable {s : State} {pos : BuildPos} {i q : Nat} {k : RLine} {p : SwathPlan} (ho : s.owns = true)
  (hby : s.byTwin pos.layer pos.swath = false) (hst : k.st = 2)
include ho hby hst

/-- A posted slice of a line that the owner does not compare by twin has a shadow value. -/
theorem shadow_guard : ¬ (!s.owns || s.byTwin pos.layer pos.swath || k.st != 2) = true := by simp [ho, hby, hst]

variable (hq : s.ordOf pos = some q) (hk : s.rline q i = some k) (hp : s.planOf pos.layer pos.swath = some p)
include hq hk hp

/-- R301: full shadow. -/
theorem shadow_by_spare (hi : i = p.swtag % s.ridgeCount) (hhalt : s.rdg.rotHalt = false)
    (hspare : s.rdg.spare.isSome = true) (v : BitVec 32) : s.shadow i pos (some v) = s.valueArrives q i k.epoch v := by
  have hfull : (decide (i = s.shadowRidge p) && !s.rdg.rotHalt && s.rdg.spare.isSome) = true := by
    simp [shadowRidge, ← hi, hhalt, hspare]
  simp only [shadow, hq, hp, hk, if_neg (shadow_guard ho hby hst), if_pos hfull]

/-- R301, R302: readback shadow. -/
theorem shadow_by_readback (hring : i ≠ p.swtag % s.ridgeCount ∨ s.rdg.rotHalt = true ∨ s.rdg.spare = none)
    (sp : Option (BitVec 32)) :
    s.shadow i pos sp = s.valueArrives q i k.epoch (sliceCrc (s.ringSlice q i).1 k.voids) := by
  have hreadback : ¬ (decide (i = s.shadowRidge p) && !s.rdg.rotHalt && s.rdg.spare.isSome) = true := by
    rcases hring with hi | hhalt | hspare
    · simp [shadowRidge, hi]
    · simp [hhalt]
    · simp [hspare]
  simp only [shadow, hq, hp, hk, if_neg (shadow_guard ho hby hst), if_neg hreadback]

end Shadow

end State

/-! ## Cascade frames by the twin (R317) -/

section CascadeByTwin

variable {s : State} {h : FrameHdr} {typ : Nat} {frame : Bytes} (hn : s.twinNext h = true)
include hn

/-- A frame toward the lead acts whatever its LTKN. -/
theorem exec_twinCascade_up (htyp : typ = 0x0B ∨ typ = 1)
    (hacts : s.twinApplies = true ∨ (s.owns = true ∧ (s.cscPort true).up = false)) :
    exec (.twinCascade h typ frame) s =
      .next (State.settle ((s.twinTaken h).cscBody true (fieldLE frame 2 1 % 8) typ (frame.drop 16))) := by
  have hup : (decide (0x0B = typ) || decide (typ = 1)) = true := by
    rcases htyp with rfl | rfl <;> rfl
  have hhere : (s.twinApplies || s.owns && !(s.cscPort true).up) = true := by simpa using hacts
  show execTwinCascade h typ frame s = _
  refine twinFrame_effect hn ?_
  simp only [hup]
  exact (if_neg Bool.false_ne_true).trans (if_pos hhere)

/-- A frame away from the lead acts when its LTKN is the highest seen or newer, and is then the highest seen. -/
theorem exec_twinCascade_down (hreport : typ ≠ 0x0B) (hjoin : typ ≠ 1)
    (hltkn : (fieldLE frame 14 2 + 65536 - s.csc.ltkn) % 65536 < 32768)
    (hacts : s.twinApplies = true ∨ (s.owns = true ∧ (s.cscPort false).up = false)) :
    exec (.twinCascade h typ frame) s = .next (State.settle (State.cscBody
      { s.twinTaken h with csc := { (s.twinTaken h).csc with ltkn := fieldLE frame 14 2 } } false
        (fieldLE frame 2 1 % 8) typ (frame.drop 16))) := by
  have hup : (decide (0x0B = typ) || decide (typ = 1)) = false := by simp [Ne.symm hreport, hjoin]
  have hfresh : ¬ (!false && decide (32768 ≤ (fieldLE frame 14 2 + 65536 - s.csc.ltkn) % 65536)) = true := by
    simpa using hltkn
  have hhere : (s.twinApplies || s.owns && !(s.cscPort false).up) = true := by simpa using hacts
  show execTwinCascade h typ frame s = _
  refine twinFrame_effect hn ?_
  simp only [hup]
  exact (if_neg hfresh).trans (if_pos hhere)

end CascadeByTwin

/-- Settles O30: the peer's frame in the state in which it is delivered, the module's own check and a shadow value in READY, and
a cascade frame by the direction of its type. -/
theorem twinChecksComplete : Obligations.TwinChecksComplete := by
  unfold Obligations.TwinChecksComplete
  rintro s u h pos i q k rfl hq hk
  refine ⟨fun epoch kinds check hn hr => ?tiebreak,
    fun v c hrun hr hm hhalt hbist hspare hties hc => ?ownCheck,
    fun p hrun hp ho hby hst => ?shadow,
    fun typ frame hn => ⟨fun htyp hacts => exec_twinCascade_up hn htyp hacts,
      fun hreport hjoin hltkn hacts => exec_twinCascade_down hn hreport hjoin hltkn hacts⟩⟩
  case tiebreak =>
    have hpaired : (decide (s.twn.role = 2) || decide (s.twn.role = 3)) = true := by simpa using hr
    refine ⟨fun hkinds => ?_, fun hkinds => ?_⟩
    · show execTwinTiebreak h pos i epoch kinds check s = _
      exact twinFrame_effect hn ((if_pos hpaired).trans
        (State.tieFrame_explained (s := s.twinTaken h) hq hk hkinds check))
    · subst hkinds
      show execTwinTiebreak h pos i epoch k.kinds check s = _
      exact twinFrame_effect hn ((if_pos hpaired).trans (State.tieFrame_checked (s := s.twinTaken h) hq hk check))
  case ownCheck =>
    show execTiebreakCheck pos i (some v) s = _
    exact whenReady_effect hrun (State.ownCheck_by_spare hq hk hr hm hhalt hbist hspare hties hc)
  case shadow =>
    refine ⟨fun v hi hhalt hspare => ?_, fun sp hring => ?_⟩
    · show execShadowValue i pos (some v) s = _
      exact whenReady_effect hrun (State.shadow_by_spare ho hby hst hq hk hp hi hhalt hspare v)
    · show execShadowValue i pos sp s = _
      exact whenReady_effect hrun (State.shadow_by_readback ho hby hst hq hk hp hring sp)

end Sys2Proof.Machine
end

section
/-! The ports of a cascade (R326) and a follower that asks to join (R320, R515). -/

namespace Sys2Proof.Machine

/-- R320: a follower that has not joined asks the lead through a port that is up, from CASCADE on. -/
theorem State.askJoin_of_follower {s : State} (hl : s.isLead = false) (hup : s.csc.upPort.up = true)
    (hphase : 12 ≤ s.boot.phase) (hj : s.csc.jstate = 0) :
    s.askJoin = State.cscSend { s with csc := { s.csc with jstate := 1, refused := false } } false 1
      (leBytes 1 s.pins.cpos ++ [if s.pins.tws then 1 else 0] ++ leBytes 1 s.die.variant ++ [if s.hasAxis then 1 else 0] ++
        leBytes 4 (s.reg Reg.BCL_COMPAT).toNat) := by
  have hasks : (!s.isLead && s.csc.upPort.up && decide (12 ≤ s.boot.phase) && decide (s.csc.jstate = 0)) = true := by
    simp [hl, hup, hphase, hj]
  exact if_pos hasks

/-- Settles O31: a port's rows act while it listens, the loss of the port and the question once the clocks run. -/
theorem cascadePortsComplete : Obligations.CascadePortsComplete := by
  unfold Obligations.CascadePortsComplete
  rintro s down k rfl
  refine ⟨fun h hd hg hl => ?idleAck, fun hl hwait => ?again, fun hl => ?idle, fun hc hf hup => ?silent,
    fun hc hf hlead hup hphase hj => ?join⟩
  case idleAck =>
    subst hd
    have hacks : (s.cscListens h.down && h.good) = true := by simp [hl, hg]
    exact show execCscIdleAck h s = _ from if_pos hacks
  case again =>
    have hsends : (s.cscListens down && !(s.cscPort down).unacked.isEmpty) = true := by simp [hl, hwait]
    exact show execCscRetxTimeout down s = _ from if_pos hsends
  case idle => exact show execCscIdleDue down s = _ from if_pos hl
  case silent =>
    show execCscLinkSilent down s = _
    exact whenClocked_effect hc hf (if_pos hup)
  case join =>
    show execJoinRetry s = _
    exact whenClocked_effect hc hf (State.askJoin_of_follower hlead hup hphase hj)

end Sys2Proof.Machine
end

section
/-! The frames of a cascade at a module that owns its outputs: who acts on one that comes from the lead, and on one that comes
from a member (R318 to R325). -/

namespace Sys2Proof.Machine

section CscFrames

variable {s : State} {h : CscHdr} {typ : Nat} {b : Bytes} {o : State → State} (hn : s.cscNext h = true)
  (hf : s.follows = false)
include hn hf

/-- The next frame of a port answers the settled state that its effect makes of the one in which it has arrived. -/
theorem cscFrame_effect {u : State} (ho : o (s.cscArrived h typ b) = u) : cscFrame s h typ b o = .next u.settle :=
  ho ▸ cscFrame_next typ b o hn hf

section FromLead

variable (hd : h.down = false) (hl : s.isLead = false)
include hd hl

/-- R320: what the lead sends to a module that may yet be joining. -/
theorem cscFrame_at_follower {u : State} (ho : o (s.cscArrived h typ b) = u) :
    cscFrame s h typ b (fun t => if !h.down && !t.isLead then o t else t) = .next u.settle := by
  have hacts : (!h.down && !(s.cscArrived h typ b).isLead) = true := by
    simp [hd, (State.cscArrived_same s h typ b).isLead, hl]
  exact cscFrame_effect hn hf ((if_pos hacts).trans ho)

/-- R318, R319, R322 to R325: what the lead distributes acts at a member. -/
theorem cscFrame_at_member {u : State} (hj : s.csc.jstate = 3) (ho : o (s.cscArrived h typ b) = u) :
    cscFrame s h typ b (fun t => if !h.down && t.isMember then o t else t) = .next u.settle := by
  have hmember : s.isMember = true := by simp [State.isMember, hl, hj]
  have hacts : (!h.down && (s.cscArrived h typ b).isMember) = true := by
    simp [hd, (State.cscArrived_same s h typ b).isMember, hmember]
  exact cscFrame_effect hn hf ((if_pos hacts).trans ho)

end FromLead

/-- R320, R324, R325: what a member sends acts at the lead. -/
theorem cscFrame_at_lead {u : State} (hd : h.down = true) (hl : s.isLead = true) (ho : o (s.cscArrived h typ b) = u) :
    cscFrame s h typ b (fun t => if h.down && t.isLead then o t else t) = .next u.settle := by
  have hacts : (h.down && (s.cscArrived h typ b).isLead) = true := by
    simp [hd, (State.cscArrived_same s h typ b).isLead, hl]
  exact cscFrame_effect hn hf ((if_pos hacts).trans ho)

end CscFrames

end Sys2Proof.Machine
end

section
/-! What a cascade member does with the frames of its lead (R318 to R325): the lead's answers to it, and the operations of
what the lead distributes. -/

namespace Sys2Proof.Machine

namespace State

/-! ## The lead's answers (R320, R321) -/

/-- The lead's answer to this position's question, when one is out. -/
theorem joinAnswered_asked {s : State} {cpos : Nat} (hp : cpos = s.pins.cpos) (hj : s.csc.jstate = 1) (result : Nat) :
    s.joinAnswered cpos result =
    if result = 0 then askTime { s with csc := { s.csc with jstate := 2, exchanges := 0, goodTimes := 0 } }
    else (event { s with csc := { s.csc with jstate := 0, refused := true } } Reg.CSC_EVENT 3).raise Src.CSC_CSC_REFUSED := by
  have hmine : ¬ (cpos != s.pins.cpos || s.csc.jstate != 1) = true := by simp [hp, hj]
  exact if_neg hmine

/-! ## What the lead distributes (R322 to R325) -/

/-- R323: the cancellation of a setting takes it off those that wait for its place. -/
theorem modeArrives_cancel (s : State) (m : ModeSetting) (ap : BuildPos) : s.modeArrives m ap true =
    (s.waiting.filter (fun c => c.ctx = 0 && c.setting = m && c.at_ = ap)).foldl (fun w c => w.cancelOne c) s :=
  if_pos rfl

/-- R323: a setting comes into force at its place. -/
theorem modeArrives_set (s : State) (m : ModeSetting) (ap : BuildPos) :
    s.modeArrives m ap false = s.applySetting 0 0 m ap :=
  if_neg Bool.false_ne_true

/-- R325: event 0 begins a col. -/
theorem colArrives_begin (s : State) : s.colArrives 0 = s.colBegins := if_pos rfl

/-- R325: event 1 ends the hold, and the swath that waits may start. -/
theorem colArrives_end (s : State) :
    s.colArrives 1 = startSwath { s with act := { s.act with hold := none } } := if_neg Nat.one_ne_zero

/-- R324: the gate of a planned swath closes. -/
theorem swgateArrives_planned {s : State} {layer swath : Nat} {w : Swath}
    (hw : s.planned.find? (fun w => w.plan.layer = layer && w.plan.swath = swath) = some w) :
    s.swgateArrives layer swath = (s.event Reg.CSC_EVENT 0).closeSwath w := by
  simp only [swgateArrives, hw]

/-- R322: any position but the lead reports. -/
theorem report_of_follower {s : State} (hl : s.isLead = false) (kind code swath layer : Nat) :
    s.report kind code swath layer = s.cscSend false 0x0B (reportBytes kind code swath layer) :=
  if_neg (ne_true_of_eq_false hl)

end State

/-- R321: the answer to the TIME frame that this position has out closes the exchange, at the time at which it comes. -/
theorem exec_cscTime_answers {s v : State} {h : CscHdr} {t1 t2 t3 : BitVec 64} {hop t : Nat} (hn : s.cscNext h = true)
    (hd : h.down = false) (hf : s.follows = false) (hl : s.isLead = false) (hj : 2 ≤ s.csc.jstate)
    (hasked : s.csc.timeAsked = some t1.toNat)
    (hv : v = s.cscArrived h 3 (stampBytes t1.toNat t2.toNat t3.toNat ++ leBytes 8 hop)) :
    exec (.cscTime h t1 t2 t3 hop t) s =
      .next (State.settle ((v.at_ t).timeExchange t1.toNat t2.toNat t3.toNat hop)) := by
  subst hv
  have hsame := State.cscArrived_same s h 3 (stampBytes t1.toNat t2.toNat t3.toNat ++ leBytes 8 hop)
  show execCscTime h t1 t2 t3 hop t s = _
  refine cscFrame_effect hn hf ?_
  simp only [State.at_isLead_eq, hsame.isLead, hl, State.at__csc, hsame.jstate, hsame.timeAsked, hd, hj, hasked,
    Bool.not_false, decide_true, Bool.and_self, Bool.false_eq_true, if_false, if_true]

/-- Settles O32: a frame from the lead acts by `cscFrame_at_follower` while this position joins and by `cscFrame_at_member` once
it has; the operation's own rule says what it does there. -/
theorem cascadeMembersComplete : Obligations.CascadeMembersComplete := by
  unfold Obligations.CascadeMembersComplete
  intro s h hn hd hf hl
  refine ⟨fun v hj hv => ?accepted, fun v hj hv => ?refused,
    fun t1 t2 t3 hop t v hj hasked hv => exec_cscTime_answers hn hd hf hl hj hasked hv, fun hj => ?member⟩
  case accepted =>
    subst hv
    have hsame := State.cscArrived_same s h 2 (leBytes 1 s.pins.cpos ++ leBytes 1 0 ++ List.replicate 6 0)
    show execCscAccept h s.pins.cpos 0 s = _
    exact cscFrame_at_follower hn hf hd hl
      ((State.joinAnswered_asked (congrArg Pins.cpos hsame.pins).symm (hsame.jstate.trans hj) 0).trans (if_pos rfl))
  case refused =>
    subst hv
    have hsame := State.cscArrived_same s h 2 (leBytes 1 s.pins.cpos ++ leBytes 1 1 ++ List.replicate 6 0)
    show execCscAccept h s.pins.cpos 1 s = _
    exact cscFrame_at_follower hn hf hd hl
      ((State.joinAnswered_asked (congrArg Pins.cpos hsame.pins).symm (hsame.jstate.trans hj) 1).trans
        (if_neg Nat.one_ne_zero))
  case member =>
    refine ⟨fun p => ?plan, fun p => ?edit, fun m ap => ?mode, fun m ap v hv => ?cancel, fun tick axes st => ?axes,
      fun tag v hv => ?colBegins, fun tag v hv => ?colEnds, fun layer swath w v hv hw => ?swgate, fun b cause => ?state,
      fun tick => ?heartbeat⟩
    case plan => exact show execCscPlan h p s = _ from cscFrame_at_member hn hf hd hl hj rfl
    case edit => exact show execCscEdit h p s = _ from cscFrame_at_member hn hf hd hl hj rfl
    case mode =>
      show execCscMode h m ap false s = _
      exact cscFrame_at_member hn hf hd hl hj (State.modeArrives_set _ m ap)
    case cancel =>
      subst hv
      show execCscMode h m ap true s = _
      exact cscFrame_at_member hn hf hd hl hj (State.modeArrives_cancel _ m ap)
    case axes => exact show execCscAxis h tick axes st s = _ from cscFrame_at_member hn hf hd hl hj rfl
    case colBegins =>
      subst hv
      show execCscCol h tag 0 s = _
      exact cscFrame_at_member hn hf hd hl hj (State.colArrives_begin _)
    case colEnds =>
      subst hv
      show execCscCol h tag 1 s = _
      exact cscFrame_at_member hn hf hd hl hj (State.colArrives_end _)
    case swgate =>
      subst hv
      show execCscSwgate h layer swath s = _
      exact cscFrame_at_member hn hf hd hl hj (State.swgateArrives_planned hw)
    case state => exact show execCscState h b cause s = _ from cscFrame_at_member hn hf hd hl hj rfl
    case heartbeat =>
      have harrived := (State.cscArrived_same s h 0x0C (leBytes 8 tick.toNat)).isLead.trans hl
      show execCscHb h tick s = _
      exact cscFrame_at_member hn hf hd hl hj (congrArg State.askTime (State.report_of_follower harrived 3 0 0 0))

end Sys2Proof.Machine
end

section
/-! What a cascade lead does with the frames of its members (R320, R324, R325), and what follows when the lead or a member is
lost (R322). -/

namespace Sys2Proof.Machine

namespace State

/-! ## JOIN (R320) -/

/-- R320: the lead accepts a position in MEMBERS that is not taken, with its own image. -/
theorem joinAsked_accepts {s : State} {cpos tws : Nat} {compat : BitVec 32} (hlo : 1 ≤ cpos) (hhi : cpos < 8)
    (hmember : s.rbit Reg.CSC_CTRL cpos = true) (hfree : s.csc.slots.contains (cpos, tws) = false)
    (hcompat : compat = s.reg Reg.BCL_COMPAT) :
    s.joinAsked cpos tws compat = cscSend { s with csc := { s.csc with slots := s.csc.slots ++ [(cpos, tws)] } } true 2
      (leBytes 1 cpos ++ leBytes 1 0 ++ List.replicate 6 0) := by
  have haccepts : (decide (cpos = 0) || decide (8 ≤ cpos) || !s.rbit Reg.CSC_CTRL cpos || s.csc.slots.contains (cpos, tws) ||
      compat != s.reg Reg.BCL_COMPAT) = false := by
    rw [hmember, hfree, hcompat]
    simp
    omega
  simp only [joinAsked, haccepts, Bool.false_eq_true, if_false]

/-- R320: any other question is refused. -/
theorem joinAsked_refuses {s : State} {cpos tws : Nat} {compat : BitVec 32}
    (hrefused : cpos = 0 ∨ 8 ≤ cpos ∨ s.rbit Reg.CSC_CTRL cpos = false ∨ s.csc.slots.contains (cpos, tws) = true ∨
      compat ≠ s.reg Reg.BCL_COMPAT) :
    s.joinAsked cpos tws compat = s.cscSend true 2 (leBytes 1 cpos ++ leBytes 1 1 ++ List.replicate 6 0) := by
  have hrefuses : (decide (cpos = 0) || decide (8 ≤ cpos) || !s.rbit Reg.CSC_CTRL cpos || s.csc.slots.contains (cpos, tws) ||
      compat != s.reg Reg.BCL_COMPAT) = true := by
    simpa only [Bool.or_eq_true, decide_eq_true_eq, Bool.not_eq_true', bne_iff_ne, or_assoc] using hrefused
  simp only [joinAsked, hrefuses, if_true]

end State

/-- Settles O33: a member's frame acts at the lead by `cscFrame_at_lead`, a JOIN by whether the position may have its place; the
losses act once the clocks run. -/
theorem cascadeLeadCompletes : Obligations.CascadeLeadCompletes := by
  unfold Obligations.CascadeLeadCompletes
  intro s v
  refine ⟨fun h cpos tws variant axis compat hn hd hf hl hv => ?join,
    fun h kind code swath layer hn hd hf hl => ?report, fun hc hf hm => ?leadLost, fun pos hc hf hl hjoined hv => ?memberLost⟩
  case join =>
    have hsame : State.SameStation v s := hv ▸ State.cscArrived_same s h 1 _
    have hctrl : v.rbit Reg.CSC_CTRL cpos = s.rbit Reg.CSC_CTRL cpos := by rw [State.rbit, State.rbit, hsame.reg]
    rw [← hctrl, ← hsame.slots, ← hsame.reg]
    subst hv
    refine ⟨fun hlo hhi hmember hfree hcompat => ?_, fun hrefused => ?_⟩
    · show execCscJoin h cpos tws variant axis compat s = _
      exact cscFrame_at_lead hn hf hd hl (State.joinAsked_accepts hlo hhi hmember hfree hcompat)
    · show execCscJoin h cpos tws variant axis compat s = _
      exact cscFrame_at_lead hn hf hd hl (State.joinAsked_refuses hrefused)
  case report => exact show execCscReport h kind code swath layer s = _ from cscFrame_at_lead hn hf hd hl rfl
  case leadLost =>
    show execLeadLost s = _
    exact whenClocked_effect hc hf (if_pos hm)
  case memberLost =>
    have hloses : (s.isLead && bit s.csc.joined pos) = true := by simp [hl, hjoined]
    subst hv
    show execCscLost pos s = _
    exact whenClocked_effect hc hf (if_pos hloses)

end Sys2Proof.Machine
end

section
/-! Instructions over registers (R343, R344): what a fetched one answers, and what it leaves alone. -/

namespace Sys2Proof.Machine

/-! ## What a fetched instruction answers -/

/-- A fetched instruction answers the settled state that its effect makes of the fetched one. -/
theorem fetched_effect {s u v : State} {c : Nat} {act : State → State} (h : s.fetched c u) (ha : act u = v) :
    instruction c s act = .next v.settle :=
  ha ▸ fetched_instruction h act

namespace State

section Alu

variable (u : State) (c rd n : Nat) (x : BitVec 64)

/-- R343: a result that sets all four flags. -/
theorem aluWrite_zncv (z m b v : Bool) : u.aluWrite c rd ⟨x, some z, some m, some b, some v⟩ n =
    (u.updCtx c (fun k => k.result rd x z m b v)).spend c n :=
  aluWrite_eq u c rd n _

/-- R344: a result that sets Z and N. -/
theorem aluWrite_zn : u.aluWrite c rd (aluZN x) n =
    (u.updCtx c (fun k => k.result rd x (x = 0) (bit x 63) k.c k.v)).spend c n :=
  aluWrite_eq u c rd n _

/-- R344: a quotient or a remainder sets V too. -/
theorem aluWrite_znv (v : Bool) : u.aluWrite c rd { aluZN x with v := some v } n =
    (u.updCtx c (fun k => k.result rd x (x = 0) (bit x 63) k.c v)).spend c n :=
  aluWrite_eq u c rd n _

/-- R343: a shift by a distance other than 0 sets C too. -/
theorem aluWrite_shift (m : Nat) (b : Bool) : u.aluWrite c rd { aluZN x with c := if m = 0 then none else some b } n =
    (u.updCtx c (fun k => k.result rd x (x = 0) (bit x 63) (if m = 0 then k.c else b) k.v)).spend c n := by
  have hc (d : Bool) : (if m = 0 then none else some b).getD d = if m = 0 then d else b := by split <;> rfl
  rw [aluWrite_eq]
  simp only [hc]
  rfl

/-- Flags without a register. -/
theorem aluFlags_eq (r : Alu) : u.aluFlags c r =
    (u.updCtx c (fun k => k.tested (r.z.getD k.z) (r.n.getD k.n) (r.c.getD k.c) (r.v.getD k.v))).spend c 1 := by
  simp only [State.aluFlags, State.nextPc, updCtx_updCtx, Alu.setFlags, Ctx.tested]

theorem aluFlags_zncv (z m b v : Bool) : u.aluFlags c ⟨x, some z, some m, some b, some v⟩ =
    (u.updCtx c (fun k => k.tested z m b v)).spend c 1 :=
  aluFlags_eq u c _

theorem aluFlags_zn : u.aluFlags c (aluZN x) = (u.updCtx c (fun k => k.tested (x = 0) (bit x 63) k.c k.v)).spend c 1 :=
  aluFlags_eq u c _

/-- A register written and the next instruction, all flags kept. -/
theorem setK_nextPc : (u.setK c rd x).nextPc c n =
    (u.updCtx c (fun k => { k with k := k.k.set rd x, pc := k.pc + 4, beat := 0 })).spend c n := by
  simp only [State.setK, State.nextPc, updCtx_updCtx]

end Alu

end State

/-- Settles O38: a sum or a difference is written by `State.aluWrite_zncv`, a bitwise result by `State.aluWrite_zn`, a constant by
`State.setK_nextPc`. -/
theorem sumsBitsAndConstants : Obligations.SumsBitsAndConstants := by
  unfold Obligations.SumsBitsAndConstants
  refine ⟨?sums, ?bits, ?constants⟩
  case sums =>
    rintro s u c rd ra rb imm a b i h rfl rfl rfl
    exact ⟨fetched_effect h (u.aluWrite_zncv c rd 1 _ _ _ _ _), fetched_effect h (u.aluWrite_zncv c rd 1 _ _ _ _ _),
      fetched_effect h (u.aluWrite_zncv c rd 1 _ _ _ _ _), fetched_effect h (u.aluFlags_zncv c _ _ _ _ _),
      fetched_effect h (u.aluFlags_zncv c _ _ _ _ _)⟩
  case bits =>
    rintro s u c rd ra rb imm a b i h rfl rfl rfl
    exact ⟨fetched_effect h (u.aluWrite_zn c rd 1 _), fetched_effect h (u.aluWrite_zn c rd 1 _),
      fetched_effect h (u.aluWrite_zn c rd 1 _), fetched_effect h (u.aluWrite_zn c rd 1 _),
      fetched_effect h (u.aluWrite_zn c rd 1 _), fetched_effect h (u.aluWrite_zn c rd 1 _),
      fetched_effect h (u.aluFlags_zn c _)⟩
  case constants =>
    intro s u c rd imm h
    exact ⟨fetched_effect h (u.setK_nextPc c rd 1 _), fetched_effect h (u.setK_nextPc c rd 1 _), fetched_effect h rfl⟩

end Sys2Proof.Machine
end

section
/-! Shifts, products and quotients (R343, R344). -/

namespace Sys2Proof.Machine

/-- R344: what DIVU, DIVS and REMU answer, once their result and V are known. -/
theorem aluRR_quotient {s u : State} {c : Nat} (h : s.fetched c u) {rd ra rb : Nat} {x : BitVec 64} {v : Bool}
    {f : BitVec 64 → BitVec 64 → Alu} (hf : f (u.getK c ra) (u.getK c rb) = { aluZN x with v := some v }) :
    aluRR c rd ra rb 34 f s = .next (State.settle ((u.updCtx c (fun k =>
      k.result rd x (x = 0) (bit x 63) k.c v)).spend c 34)) :=
  fetched_effect h ((congrArg (u.aluWrite c rd · 34) hf).trans (u.aluWrite_znv c rd 34 x v))

/-- Settles O39: a shift is written by `State.aluWrite_shift`, a product by `State.aluWrite_zn`, and a quotient or remainder, whose
corner the divisor decides, by `aluRR_quotient`. -/
theorem shiftsProductsAndQuotients : Obligations.ShiftsProductsAndQuotients := by
  unfold Obligations.ShiftsProductsAndQuotients
  refine ⟨?shifts, ?quotients⟩
  case shifts =>
    rintro s u c rd ra rb m a n h rfl rfl
    exact ⟨fetched_effect h (u.aluWrite_shift c rd 1 _ _ _), fetched_effect h (u.aluWrite_shift c rd 1 _ _ _),
      fetched_effect h (u.aluWrite_shift c rd 1 _ _ _), fetched_effect h (u.aluWrite_shift c rd 1 _ _ _),
      fetched_effect h (u.aluWrite_shift c rd 1 _ _ _), fetched_effect h (u.aluWrite_shift c rd 1 _ _ _)⟩
  case quotients =>
    rintro s u c rd ra rb a b p q h rfl rfl
    refine ⟨fetched_effect h (u.aluWrite_zn c rd 3 _), fun hp => hp ▸ fetched_effect h (u.aluWrite_zn c rd 3 _),
      fun hp => hp ▸ fetched_effect h (u.aluWrite_zn c rd 3 _), fun hb => ?zero, fun hb => ?proper, fun ha hb => ?overflow⟩
    case zero => exact ⟨aluRR_quotient h (if_pos hb), aluRR_quotient h (if_pos hb), aluRR_quotient h (if_pos hb)⟩
    case proper =>
      refine ⟨fun hq => hq ▸ aluRR_quotient h (if_neg hb), fun hq => hq ▸ aluRR_quotient h (if_neg hb),
        fun hq hcorner => hq ▸ aluRR_quotient h ?_⟩
      have hfits : ¬ (u.getK c ra = BitVec.ofNat 64 (2 ^ 63) && u.getK c rb = BitVec.allOnes 64) = true := by
        rw [Bool.and_eq_true, decide_eq_true_eq, decide_eq_true_eq]
        exact fun ⟨ha, hb⟩ => hcorner.elim (· ha) (· hb)
      exact (if_neg hb).trans (if_neg hfits)
    case overflow =>
      have hz : decide (u.getK c ra = 0) = false := by rw [ha]; rfl
      have hn : bit (u.getK c ra) 63 = true := by rw [ha]; rfl
      have hdivs : aluDivs (u.getK c ra) (u.getK c rb) = { aluZN (u.getK c ra) with v := some true } := by
        rw [ha, hb]
        rfl
      have hwritten := aluRR_quotient h (rd := rd) hdivs
      rwa [hz, hn] at hwritten

end Sys2Proof.Machine
end

section
/-! What an instruction over registers leaves unchanged (R344). -/

namespace Sys2Proof.Machine

/-! ## The end of an instruction -/

/-- What a change of one context keeps of it, every context keeps. -/
theorem ctx_updCtx_read {α : Type} (s : State) (c x : Nat) {f : Ctx → Ctx} (g : Ctx → α) (h : ∀ k, g (f k) = g k) :
    g ((s.updCtx c f).ctx x) = g (s.ctx x) := by
  simp only [State.ctx, State.updCtx, nth, upd, List.getD_eq_getElem?_getD, List.getElem?_modify]
  cases s.seq.ctxs[x]? with
  | none => rfl
  | some k =>
    simp only [Option.getD_some]
    split
    · exact h k
    · rfl

/-- An instruction that changes no more than its context's registers, flags, PC and beat leaves a quiet state quiet. -/
theorem quiet_updCtx_spend {u : State} (hu : u.quiet) (c n : Nat) {f : Ctx → Ctx} (hf : ∀ k, (f k).quota = k.quota) :
    ((u.updCtx c f).spend c n).quiet := by
  obtain ⟨h1, h2, h3, h4, h5, hquota, hrest⟩ := hu
  exact ⟨h1, h2, h3, h4, h5, fun x hx => (ctx_updCtx_read u c x Ctx.quota hf).trans (hquota x hx), hrest⟩

/-! ## What a register instruction may change -/

/-- R344: `f` changes no more of a context than register `rd`, the flags, PC and the beat. -/
structure Ctx.ChangesOnly (rd : Nat) (f : Ctx → Ctx) : Prop where
  reg : ∀ k r, r ≠ rd → nth (f k).k r 0 = nth k.k r 0
  tvec : ∀ k, (f k).tvec = k.tvec
  tpc : ∀ k, (f k).tpc = k.tpc
  intrap : ∀ k, (f k).intrap = k.intrap
  evpend : ∀ k, (f k).evpend = k.evpend
  rstate : ∀ k, (f k).rstate = k.rstate
  timer : ∀ k, (f k).timer = k.timer
  quota : ∀ k, (f k).quota = k.quota

theorem Ctx.changesOnly_result (rd : Nat) (x : BitVec 64) (z m b v : Ctx → Bool) :
    Ctx.ChangesOnly rd (fun k => k.result rd x (z k) (m k) (b k) (v k)) where
  reg k r hr := by simp [Ctx.result, nth, Ne.symm hr]
  tvec _ := rfl
  tpc _ := rfl
  intrap _ := rfl
  evpend _ := rfl
  rstate _ := rfl
  timer _ := rfl
  quota _ := rfl

theorem Ctx.changesOnly_tested (rd : Nat) (z m b v : Ctx → Bool) :
    Ctx.ChangesOnly rd (fun k => k.tested (z k) (m k) (b k) (v k)) where
  reg _ _ _ := rfl
  tvec _ := rfl
  tpc _ := rfl
  intrap _ := rfl
  evpend _ := rfl
  rstate _ := rfl
  timer _ := rfl
  quota _ := rfl

/-- R344: in a quiet state such a change leaves everything but the context and its pair's quantum as it was. -/
theorem Ctx.ChangesOnly.frame {rd : Nat} {f : Ctx → Ctx} (hf : Ctx.ChangesOnly rd f) {u t : State} {c n : Nat} (hu : u.quiet)
    (ht : t = ((u.updCtx c f).spend c n).settle) :
    t = (u.updCtx c f).spend c n ∧ (∀ x, x ≠ c → t.ctx x = u.ctx x) ∧ (∀ r, r ≠ rd → t.getK c r = u.getK c r) ∧
    (t.ctx c).tvec = (u.ctx c).tvec ∧ (t.ctx c).tpc = (u.ctx c).tpc ∧ (t.ctx c).intrap = (u.ctx c).intrap ∧
    (t.ctx c).evpend = (u.ctx c).evpend ∧ (t.ctx c).rstate = (u.ctx c).rstate ∧ (t.ctx c).timer = (u.ctx c).timer := by
  rw [State.settle_quiet _ (quiet_updCtx_spend hu c n hf.quota)] at ht
  subst ht
  exact ⟨rfl, fun x hx => ctx_updCtx_ne u f hx, fun r hr => ctx_updCtx_read u c c (fun k => nth k.k r 0) (hf.reg · r hr),
    ctx_updCtx_read u c c Ctx.tvec hf.tvec, ctx_updCtx_read u c c Ctx.tpc hf.tpc, ctx_updCtx_read u c c Ctx.intrap hf.intrap,
    ctx_updCtx_read u c c Ctx.evpend hf.evpend, ctx_updCtx_read u c c Ctx.rstate hf.rstate,
    ctx_updCtx_read u c c Ctx.timer hf.timer⟩

/-! ## Every register instruction -/

/-- R344: the instructions whose result goes to `rd` with flags of its own. -/
def aluInstrs (c : Nat) (rd ra rb : Fin 16) (imm : BitVec 18) (m : Fin 64) : List Instr :=
  [.add c rd ra rb, .sub c rd ra rb, .addi c rd ra imm, .and c rd ra rb, .or c rd ra rb, .xor c rd ra rb,
    .andi c rd ra imm, .ori c rd ra imm, .xori c rd ra imm, .shl c rd ra rb, .shr c rd ra rb, .sar c rd ra rb,
    .shli c rd ra m, .shri c rd ra m, .sari c rd ra m, .mul c rd ra rb, .mulhu c rd ra rb, .mulhs c rd ra rb,
    .divu c rd ra rb, .divs c rd ra rb, .remu c rd ra rb]

section Fetched

variable {s u : State} {c : Nat} (h : s.fetched c u) (rd ra rb : Fin 16) (imm : BitVec 18) (m : Fin 64) (k : BitVec 16)
include h

theorem exec_aluInstrs {i : Instr} (hi : i ∈ aluInstrs c rd ra rb imm m) :
    (∃ r n, exec i s = .next (State.settle (u.aluWrite c rd r n))) ∧
      i ∉ [.cmp c ra rb, .cmpi c ra imm, .tst c ra rb, .nop c] ∧ i ∉ [.kset c rd k, .kapp c rd k, .nop c] := by
  simp only [aluInstrs, List.mem_cons, List.not_mem_nil, or_false] at hi
  rcases hi with rfl | rfl | rfl | rfl | rfl | rfl | rfl | rfl | rfl | rfl | rfl | rfl | rfl | rfl | rfl | rfl | rfl | rfl | rfl |
    rfl | rfl <;> exact ⟨⟨_, _, fetched_instruction h _⟩, by simp, by simp⟩

theorem exec_constant {i : Instr} (hi : i ∈ [.kset c rd k, .kapp c rd k]) :
    (∃ x, exec i s = .next (State.settle ((u.updCtx c (fun k => k.result rd x k.z k.n k.c k.v)).spend c 1))) ∧
      i ∉ [.cmp c ra rb, .cmpi c ra imm, .tst c ra rb, .nop c] := by
  simp only [List.mem_cons, List.not_mem_nil, or_false] at hi
  rcases hi with rfl | rfl <;> exact ⟨⟨_, fetched_effect h (u.setK_nextPc c rd 1 _)⟩, by simp⟩

theorem exec_comparison {i : Instr} (hi : i ∈ [.cmp c ra rb, .cmpi c ra imm, .tst c ra rb]) :
    (∃ r, exec i s = .next (State.settle (u.aluFlags c r))) ∧ i ∉ [.kset c rd k, .kapp c rd k, .nop c] := by
  simp only [List.mem_cons, List.not_mem_nil, or_false] at hi
  rcases hi with rfl | rfl | rfl <;> exact ⟨⟨_, fetched_instruction h _⟩, by simp⟩

/-- R344: a register instruction makes a change of its context, which spares the registers or the flags where the spec names
none. -/
theorem exec_register_change {i : Instr} (hi : i ∈ aluInstrs c rd ra rb imm m ++
      [Instr.kset c rd k, Instr.kapp c rd k] ++ [Instr.cmp c ra rb, Instr.cmpi c ra imm, Instr.tst c ra rb] ++ [Instr.nop c]) :
    ∃ f n, exec i s = .next (State.settle ((u.updCtx c f).spend c n)) ∧ Ctx.ChangesOnly rd f ∧
      (i ∈ [.cmp c ra rb, .cmpi c ra imm, .tst c ra rb, .nop c] → ∀ x, (f x).k = x.k) ∧
      (i ∈ [.kset c rd k, .kapp c rd k, .nop c] → ∀ x, Ctx.flags (f x) = Ctx.flags x) := by
  rcases List.mem_append.mp hi with hi | hnop
  · rcases List.mem_append.mp hi with hi | hcmp
    · rcases List.mem_append.mp hi with halu | hconst
      · obtain ⟨⟨r, n, he⟩, hnoCmp, hnoConst⟩ := exec_aluInstrs h rd ra rb imm m k halu
        rw [aluWrite_eq] at he
        exact ⟨_, n, he, Ctx.changesOnly_result .., fun hm => absurd hm hnoCmp, fun hm => absurd hm hnoConst⟩
      · obtain ⟨⟨x, he⟩, hnoCmp⟩ := exec_constant h rd ra rb imm k hconst
        exact ⟨_, 1, he, Ctx.changesOnly_result .., fun hm => absurd hm hnoCmp, fun _ _ => rfl⟩
    · obtain ⟨⟨r, he⟩, hnoConst⟩ := exec_comparison h rd ra rb imm k hcmp
      rw [State.aluFlags_eq] at he
      exact ⟨_, 1, he, Ctx.changesOnly_tested .., fun _ _ => rfl, fun hm => absurd hm hnoConst⟩
  · obtain rfl := List.mem_singleton.mp hnop
    exact ⟨fun k => k.tested k.z k.n k.c k.v, 1, fetched_effect h rfl, Ctx.changesOnly_tested .., fun _ _ => rfl, fun _ _ => rfl⟩

end Fetched

/-- Settles O34: the instruction changes its context alone (`exec_register_change`), and in a quiet state that is all
(`Ctx.ChangesOnly.frame`). -/
theorem registerInstructionsFrame : Obligations.RegisterInstructionsFrame := by
  unfold Obligations.RegisterInstructionsFrame
  intro s u t c rd ra rb imm m k i h hu hi he
  obtain ⟨f, n, hanswer, hf, hregs, hflags⟩ := exec_register_change h rd ra rb imm m k hi
  have ht : t = ((u.updCtx c f).spend c n).settle := Host.Outcome.next.inj (he.symm.trans hanswer)
  obtain ⟨rfl, hctx, hreg, hrest⟩ := hf.frame hu ht
  exact ⟨rfl, rfl, rfl, rfl, rfl, rfl, fun _ => rfl, hctx, fun r hr => hreg r (Fin.val_ne_of_ne hr),
    fun hm r => ctx_updCtx_read u c c (fun k => nth k.k r 0) (fun x => congrArg (nth · r.val 0) (hregs hm x)),
    fun hm => ctx_updCtx_read u c c Ctx.flags (hflags hm), hrest⟩

end Sys2Proof.Machine
end

section
/-! Loads and stores (R337, R344 to R348): what one does at an address that translates, and what a store leaves unchanged. -/

namespace Sys2Proof.Machine

/-! ## Accesses at an address that translates -/

namespace State

section Translated

variable {u w x : State} {c n pa : Nat} {va : BitVec 64} (rd : Nat) (word : Bool) (ext : Nat → BitVec 64)

/-- R348: a misaligned load takes ALIGN. -/
theorem loadAt_misaligned (hal : va.toNat % n ≠ 0) : u.loadAt c rd n va word ext = u.trap c Cause.ALIGN va :=
  if_pos (bne_iff_ne.mpr hal)

/-- R348: a misaligned store takes ALIGN. -/
theorem storeAt_misaligned (v : BitVec 64) (hal : va.toNat % n ≠ 0) : u.storeAt c n va word v = u.trap c Cause.ALIGN va :=
  if_pos (bne_iff_ne.mpr hal)

variable (hal : va.toNat % n = 0)
include hal

section Load

variable (ht : u.translate c va.toNat .read .sequencer = (w, .ok pa))
include ht

/-- R337, R344: a load from an SRAM pool. -/
theorem loadAt_pool (hp : accessPlace pa = .seqPool ∨ accessPlace pa = .otherPool) {bs : Bytes}
    (hr : w.readMem .sequencer c pa n = (x, .ok bs)) :
    u.loadAt c rd n va word ext = (x.setK c rd (ext (leNat bs))).nextPc c 4 := by
  rcases hp with hp | hp <;> simp [loadAt, hal, ht, hp, hr]

/-- R338: LDW from control space. -/
theorem loadAt_control (hp : accessPlace pa = .control) {v : BitVec 32} (hr : w.regLoad c pa = (x, .ok, v)) :
    u.loadAt c rd n va true ext = (x.setK c rd (ext v.toNat)).nextPc c 24 := by
  simp [loadAt, hal, ht, hp, hr]

end Load

section Store

variable (v : BitVec 64) (ht : u.translate c va.toNat .write .sequencer = (w, .ok pa))
include ht

/-- R337, R344: a store into the SEQ pool. -/
theorem storeAt_pool (hp : accessPlace pa = .seqPool) :
    u.storeAt c n va word v = (w.wrLE pa n v.toNat).nextPc c 2 := by
  simp [storeAt, hal, ht, hp]

/-- R338: STW to control space. -/
theorem storeAt_control (hp : accessPlace pa = .control) (hr : w.regStore c pa (BitVec.ofNat 32 v.toNat) = (x, .ok)) :
    u.storeAt c n va true v = x.nextPc c 24 := by
  simp only [storeAt, hal, ht, hp, hr, bne_self_eq_false, Bool.not_true, Bool.false_eq_true, if_false]

end Store

end Translated

/-- R6, R11: a load from a listed offset of a present unit. -/
theorem regLoad_listed {s : State} {a : Nat} {d : RegDesc} (w : Nat) (hu : s.unitPresent (unitOf a) = true)
    (hd : findReg (unitOf a) a = some d) :
    s.regLoad w a = (if d.access = .rc then s.setReg a 0 else s.capture a, .ok, s.regView a) := by
  simp [regLoad, hu, hd]

/-- R11: a store that its own rule lets succeed. -/
theorem regStore_ok {s : State} {w a : Nat} {v : Word} (hok : (s.regStore w a v).2 = .ok) :
    s.regStore w a v = ((s.regStore w a v).1, .ok) := by
  generalize s.regStore w a v = z at hok
  obtain ⟨x, r⟩ := z
  exact congrArg (Prod.mk x) hok

/-- R11: a store to a W1C register of a present unit. -/
theorem regStore_w1c {s : State} {a : Nat} {d : RegDesc} (w : Nat) (v : Word) (hu : s.unitPresent (unitOf a) = true)
    (hd : findReg (unitOf a) a = some d) (hw : d.access = .w1c) :
    s.regStore w a v = (s.setReg a (s.reg a &&& ~~~(v &&& d.mask)), .ok) := by
  simp [regStore, hu, hd, hw]

end State

/-- Settles O42: the access is `State.loadAt_pool`, `State.loadAt_control`, `State.storeAt_pool` or `State.storeAt_control` at the
address that the translation gives. -/
theorem walkedAccessesComplete : Obligations.WalkedAccessesComplete := by
  unfold Obligations.WalkedAccessesComplete
  refine ⟨?loads, ?stores⟩
  case loads =>
    intro s u w x c pa rd ra imm va bs h hva ht
    obtain rfl : va = u.effAddr c ra imm := hva
    refine ⟨fun hp => ⟨fun hr => ?byte, fun hal hr => ?half, fun hal hr => ?word, fun hal hr => ?double⟩, fun v hal hp hr => ?control⟩
    case byte =>
      exact ⟨fetched_effect h (State.loadAt_pool rd false _ (Nat.mod_one _) ht hp hr),
        fetched_effect h (State.loadAt_pool rd false _ (Nat.mod_one _) ht hp hr)⟩
    case half =>
      exact ⟨fetched_effect h (State.loadAt_pool rd false _ hal ht hp hr),
        fetched_effect h (State.loadAt_pool rd false _ hal ht hp hr)⟩
    case word =>
      exact ⟨fetched_effect h (State.loadAt_pool rd true _ hal ht hp hr),
        fetched_effect h (State.loadAt_pool rd false _ hal ht hp hr)⟩
    case double => exact fetched_effect h (State.loadAt_pool rd false _ hal ht hp hr)
    case control => exact fetched_effect h (State.loadAt_control rd _ hal ht hp hr)
  case stores =>
    intro s u w c pa rd ra imm va h hva ht
    obtain rfl : va = u.effAddr c ra imm := hva
    refine ⟨fun hp => ⟨?byte, fun hal => ?half, fun hal => ?word, fun hal => ?double⟩, fun x hal hp hr => ?control⟩
    case byte => exact fetched_effect h (State.storeAt_pool false (Nat.mod_one _) _ ht hp)
    case half => exact fetched_effect h (State.storeAt_pool false hal _ ht hp)
    case word => exact fetched_effect h (State.storeAt_pool true hal _ ht hp)
    case double => exact fetched_effect h (State.storeAt_pool false hal _ ht hp)
    case control => exact fetched_effect h (State.storeAt_control hal _ ht hp hr)

/-- Settles O43: `State.loadAt_misaligned` and `State.storeAt_misaligned`. -/
theorem misalignedAccessesTrap : Obligations.MisalignedAccessesTrap := by
  unfold Obligations.MisalignedAccessesTrap
  intro s u c rd ra imm va h hva
  obtain rfl : va = u.effAddr c ra imm := hva
  refine ⟨fun hal => ?half, fun hal => ?word, fun hal => ?double⟩
  case half =>
    exact ⟨fetched_effect h (State.loadAt_misaligned rd false _ hal), fetched_effect h (State.loadAt_misaligned rd false _ hal),
      fetched_effect h (State.storeAt_misaligned false _ hal)⟩
  case word =>
    exact ⟨fetched_effect h (State.loadAt_misaligned rd true _ hal), fetched_effect h (State.loadAt_misaligned rd false _ hal),
      fetched_effect h (State.storeAt_misaligned true _ hal)⟩
  case double =>
    exact ⟨fetched_effect h (State.loadAt_misaligned rd false _ hal), fetched_effect h (State.storeAt_misaligned false _ hal)⟩

/-- Settles O40: in a pool the load is `loadAt_mapped`; in control space what the register answers decides. -/
theorem loadsComplete : Obligations.LoadsComplete := by
  unfold Obligations.LoadsComplete
  intro s u c pa rd ra imm va h hva hm
  obtain rfl : va = u.effAddr c ra imm := hva
  refine ⟨fun hp => ⟨fun hc => ?byte, fun hal hc => ?half, fun hal hc => ?word, fun hal hc => ?double⟩, fun hal hp hu => ?control⟩
  case byte =>
    exact ⟨fetched_effect h (loadAt_mapped rd false _ (Nat.mod_one _) hm hp hc),
      fetched_effect h (loadAt_mapped rd false _ (Nat.mod_one _) hm hp hc)⟩
  case half =>
    exact ⟨fetched_effect h (loadAt_mapped rd false _ hal hm hp hc), fetched_effect h (loadAt_mapped rd false _ hal hm hp hc)⟩
  case word =>
    exact ⟨fetched_effect h (loadAt_mapped rd true _ hal hm hp hc), fetched_effect h (loadAt_mapped rd false _ hal hm hp hc)⟩
  case double => exact fetched_effect h (loadAt_mapped rd false _ hal hm hp hc)
  case control =>
    have load {x : State} {v : BitVec 32} (hr : u.regLoad c pa = (x, .ok, v)) :
        exec (.ldw c rd ra imm) s = .next (State.settle ((x.setK c rd (BitVec.ofNat 64 v.toNat)).nextPc c 24)) :=
      fetched_effect h (State.loadAt_control rd _ hal (mapped_translate hm) hp hr)
    have hzero : BitVec.ofNat 64 (0 : BitVec 32).toNat = 0 := rfl
    exact ⟨fun hn => hzero ▸ load (State.regLoad_unlisted c hu hn), fun d hd => load (State.regLoad_listed c hu hd)⟩

/-- Settles O41: in the SEQ pool the store is `storeAt_mapped`; in control space what the register answers decides. -/
theorem storesComplete : Obligations.StoresComplete := by
  unfold Obligations.StoresComplete
  rintro s u c pa rd ra imm va v h hva hm rfl
  obtain rfl : va = u.effAddr c ra imm := hva
  refine ⟨fun hp => ⟨?byte, fun hal => ?half, fun hal => ?word, fun hal => ?double⟩, fun hal hp hu => ?control⟩
  case byte => exact fetched_effect h (storeAt_mapped false _ (Nat.mod_one _) hm hp)
  case half => exact fetched_effect h (storeAt_mapped false _ hal hm hp)
  case word => exact fetched_effect h (storeAt_mapped true _ hal hm hp)
  case double => exact fetched_effect h (storeAt_mapped false _ hal hm hp)
  case control =>
    have store {x : State} (hr : u.regStore c pa (BitVec.ofNat 32 (u.getK c rd).toNat) = (x, .ok)) :
        exec (.stw c rd ra imm) s = .next (State.settle (x.nextPc c 24)) :=
      fetched_effect h (State.storeAt_control hal _ (mapped_translate hm) hp hr)
    exact ⟨fun hn => store (State.regStore_unlisted c _ hu hn), fun d hd =>
      ⟨fun hw => store (State.regStore_w1c c _ hu hd hw), fun hok => store (State.regStore_ok hok)⟩⟩

end Sys2Proof.Machine
end

section
/-! What a store into the SEQ pool leaves unchanged (R337, R344). -/

namespace Sys2Proof.Machine

theorem length_leBytes (n x : Nat) : (leBytes n x).length = n := by
  induction n generalizing x with
  | zero => rfl
  | succ n ih => rw [leBytes, List.length_cons, ih]

/-- Bytes written change the store of memory alone. -/
theorem wrBytes_eq_mem (bs : Bytes) : ∀ (s : State) (a : Nat), s.wrBytes a bs = { s with mem := (s.wrBytes a bs).mem } := by
  induction bs with
  | nil => exact fun _ _ => rfl
  | cons b bs ih =>
    intro s a
    have hbyte : s.wrByte a b = { s with mem := (s.wrByte a b).mem } := by
      unfold State.wrByte
      split <;> rfl
    rw [State.wrBytes, ih, hbyte]

/-- A write to memory leaves a quiet state quiet. -/
theorem quiet_wr {u : State} (hu : u.quiet) (a : Nat) (bs : Bytes) : (u.wr a bs).quiet := by
  unfold State.wr
  rw [wrBytes_eq_mem]
  exact hu

/-- From a quiet state an instruction that only goes on ends in a state after which nothing follows. -/
theorem settle_nextPc {u : State} (hu : u.quiet) (c n : Nat) : (u.nextPc c n).settle = u.nextPc c n :=
  State.settle_quiet _ (quiet_updCtx_spend hu c n (fun _ => rfl))

theorem ctx_wr (s : State) (a x : Nat) (bs : Bytes) : (s.wr a bs).ctx x = s.ctx x := by
  rw [State.ctx, State.wr_seq, State.ctx]

/-- R337, R344: an aligned store to an address that translates into the SEQ pool writes there and goes on. -/
theorem exec_store {s u w : State} {c pa n : Nat} {rd ra : Fin 16} {imm : BitVec 18} {i : Instr} (h : s.fetched c u)
    (ht : u.translate c (u.effAddr c ra imm).toNat .write .sequencer = (w, .ok pa)) (hp : accessPlace pa = .seqPool)
    (hal : (u.effAddr c ra imm).toNat % n = 0)
    (hi : (i, n) ∈ [(Instr.stb c rd ra imm, 1), (.sth c rd ra imm, 2), (.stw c rd ra imm, 4), (.std c rd ra imm, 8)]) :
    exec i s = .next (State.settle ((w.wrLE pa n (u.getK c rd).toNat).nextPc c 2)) := by
  simp only [List.mem_cons, List.not_mem_nil, or_false, Prod.mk.injEq] at hi
  rcases hi with ⟨rfl, rfl⟩ | ⟨rfl, rfl⟩ | ⟨rfl, rfl⟩ | ⟨rfl, rfl⟩ <;>
    exact fetched_effect h (State.storeAt_pool _ hal _ ht hp)

/-- Settles O35: nothing follows the store (`quiet_wr`, `settle_nextPc`), whose write touches its own bytes alone and whose
end the PC, the beat and the quantum. -/
theorem storeInstructionsFrame : Obligations.StoreInstructionsFrame := by
  unfold Obligations.StoreInstructionsFrame
  intro s u w t c pa n rd ra imm va i h hva ht hp hal hw hi he
  obtain rfl : va = u.effAddr c ra imm := hva
  have hanswer := Host.Outcome.next.inj (he.symm.trans (exec_store h ht hp hal hi))
  have hquiet := quiet_wr hw pa (leBytes n (u.getK c rd).toNat)
  have hctx (x : Nat) := ctx_wr w pa x (leBytes n (u.getK c rd).toNat)
  have hregs := w.wr_regs pa (leBytes n (u.getK c rd).toNat)
  have hpins := w.wr_pins pa (leBytes n (u.getK c rd).toNat)
  have hbyte (a : Nat) (ha : a < pa ∨ pa + n ≤ a) :=
    w.rdByte_wr_outside pa a (leBytes n (u.getK c rd).toNat) (by rwa [length_leBytes])
  rw [State.wrLE] at hanswer
  generalize w.wr pa (leBytes n (u.getK c rd).toNat) = v at hanswer hquiet hctx hregs hpins hbyte
  rw [settle_nextPc hquiet] at hanswer
  subst hanswer
  have hread {α : Type} (g : Ctx → α) (hg : ∀ k : Ctx, g { k with pc := k.pc + 4, beat := 0 } = g k) :
      g ((v.nextPc c 2).ctx c) = g (w.ctx c) :=
    (ctx_updCtx_read v c c g hg).trans (congrArg g (hctx c))
  exact ⟨hbyte, hregs, hpins, fun x hx => (ctx_updCtx_ne v _ hx).trans (hctx x),
    fun r => hread (fun k => nth k.k r 0) (fun _ => rfl), hread Ctx.flags (fun _ => rfl), hread Ctx.tvec (fun _ => rfl),
    hread Ctx.intrap (fun _ => rfl)⟩

end Sys2Proof.Machine
end

section
/-! CAS and the beats of LDM, STM, BCOPY and BFILL (R344 to R347). -/

namespace Sys2Proof.Machine

section Beats

variable {s u : State} {c pa : Nat} (h : s.fetched c u)
include h

/-- R344: CAS at a clean, aligned place of the SEQ pool that a cached leaf maps. -/
theorem exec_cas_mapped (rd ra rb : Fin 16) (hal : (u.getK c ra).toNat % 8 = 0) (hm : u.mapped c (u.getK c ra).toNat .cas pa)
    (hp : accessPlace pa = .seqPool) (hc : u.cleanAt pa 8) {old : BitVec 64} (ho : old = BitVec.ofNat 64 (leNat (u.rd pa 8))) :
    exec (.cas c rd ra rb) s = .next (State.settle
      ((((if old = u.getK c rd then u.wrLE pa 8 (u.getK c rb).toNat else u).setK c rd old).updCtx c
        (fun k => { k with z := decide (old = u.getK c rd) })).nextPc c 4)) := by
  subst ho
  refine show execCas c rd ra rb s = _ from fetched_effect h ?_
  simp only [hal, mapped_translate hm, hp, clean_readMem _ _ hc, bne_self_eq_false, Bool.false_eq_true, if_false]

/-- R346: a beat of LDM, from a clean place of an SRAM pool that a cached leaf maps. -/
theorem exec_ldm_mapped (rd ra rb : Fin 16) {va : BitVec 64} (hva : va = u.getK c ra + BitVec.ofNat 64 (8 * (u.ctx c).beat))
    (hal : va.toNat % 8 = 0) (hlist : rd.val + rb.val ≤ 15) (hbase : ra.val < rd.val ∨ rd.val + rb.val < ra.val)
    (hm : u.mapped c va.toNat .read pa) (hp : accessPlace pa = .seqPool ∨ accessPlace pa = .otherPool) (hc : u.cleanAt pa 8)
    {w : State} (hw : w = u.setK c (rd.val + (u.ctx c).beat) (BitVec.ofNat 64 (leNat (u.rd pa 8)))) :
    exec (.ldm c rd ra rb) s = .next (State.settle (if rb.val ≤ (u.ctx c).beat then w.nextPc c 4
      else (w.updCtx c (fun k => { k with beat := (u.ctx c).beat + 1 })).spend c 4)) := by
  subst hva hw
  have hlegal : ¬ (15 < rd.val + rb.val || (rd.val ≤ ra.val && ra.val ≤ rd.val + rb.val)) = true := by
    simp
    omega
  refine show execLdm c rd ra rb s = _ from fetched_effect h ((if_neg hlegal).trans ?_)
  simp only [hal, beatFrom_mapped hm hp, beatRead_clean hc, bne_self_eq_false, Bool.false_eq_true, if_false]

/-- R346: a beat of STM, into a place of the SEQ pool that a cached leaf maps. -/
theorem exec_stm_mapped (rd ra rb : Fin 16) {va : BitVec 64} (hva : va = u.getK c ra + BitVec.ofNat 64 (8 * (u.ctx c).beat))
    (hal : va.toNat % 8 = 0) (hlist : rd.val + rb.val ≤ 15) (hm : u.mapped c va.toNat .write pa) (hp : accessPlace pa = .seqPool)
    {w : State} (hw : w = u.wrLE pa 8 (u.getK c (rd.val + (u.ctx c).beat)).toNat) :
    exec (.stm c rd ra rb) s = .next (State.settle (if rb.val ≤ (u.ctx c).beat then w.nextPc c 2
      else (w.updCtx c (fun k => { k with beat := (u.ctx c).beat + 1 })).spend c 2)) := by
  subst hva hw
  refine show execStm c rd ra rb s = _ from fetched_effect h ((if_neg (Nat.not_lt_of_le hlist)).trans ?_)
  simp only [hal, beatDest_mapped hm hp, bne_self_eq_false, Bool.false_eq_true, if_false]

/-- R345, R347: a beat of BCOPY between places that cached leaves map, its source clean, its ranges apart. -/
theorem exec_bcopy_mapped (rd ra rb : Fin 16) {d a n : BitVec 64} {m qa : Nat} (hd : d = u.getK c rd) (ha : a = u.getK c ra)
    (hn : n = u.getK c rb) (hn0 : n ≠ 0) (hbeat : m = State.beatBytes n.toNat d.toNat (some a.toNat))
    (hfrom : u.mapped c a.toNat .read qa) (hq : accessPlace qa = .seqPool ∨ accessPlace qa = .otherPool) (hc : u.cleanAt qa m)
    (hto : u.mapped c d.toNat .write pa) (hp : accessPlace pa = .seqPool) (hapart : State.overlaps d.toNat a.toNat n.toNat = false) :
    exec (.bcopy c rd ra rb) s = .next (State.settle ((u.wr pa (u.rd qa m)).endBeat c rd rb m (some ra.val))) := by
  subst hd ha hn hbeat
  refine show execBcopy c rd ra rb s = _ from fetched_effect h ((if_neg hn0).trans ?_)
  simp only [beatFrom_mapped hfrom hq, beatDest_mapped hto hp, beatRead_clean hc, hapart, Bool.false_eq_true, if_false]

/-- R345: a beat of BFILL into a place of the SEQ pool that a cached leaf maps. -/
theorem exec_bfill_mapped (rd ra rb : Fin 16) {d n : BitVec 64} {m : Nat} (hd : d = u.getK c rd) (hn : n = u.getK c rb)
    (hn0 : n ≠ 0) (hbeat : m = State.beatBytes n.toNat d.toNat none) (hto : u.mapped c d.toNat .write pa)
    (hp : accessPlace pa = .seqPool) : exec (.bfill c rd ra rb) s = .next (State.settle
      ((u.wr pa (List.replicate m (BitVec.ofNat 8 (fld (u.getK c ra) 0 8)))).endBeat c rd rb m none)) := by
  subst hd hn hbeat
  refine show execBfill c rd ra rb s = _ from fetched_effect h ((if_neg hn0).trans ?_)
  simp only [beatDest_mapped hto hp]

end Beats

/-- Settles O44: each instruction's own lemma above; CAS exchanges when memory equals `rd`, and a count of 0 only goes on. -/
theorem blockInstructionsComplete : Obligations.BlockInstructionsComplete := by
  unfold Obligations.BlockInstructionsComplete
  intro s u c pa rd ra rb va h
  refine ⟨fun hva hal hm hp hc => ?cas, fun hva hal hlist hbase hm hp hc w hw => ?ldm, fun hva hal hlist hm hp w hw => ?stm,
    fun d a n m qa hd ha hn hn0 hbeat hfrom hq hc hto hp hapart => ?bcopy, fun d n m hd hn hn0 hbeat hto hp => ?bfill,
    fun hn0 => ?nothing⟩
  case cas =>
    subst hva
    have hcas := exec_cas_mapped h rd ra rb hal hm hp hc rfl
    refine ⟨fun hhit => ?hit, fun hmiss => ?miss⟩
    case hit => simpa only [hhit, if_true, decide_true] using hcas
    case miss => simpa only [hmiss, if_false, decide_false] using hcas
  case ldm => exact exec_ldm_mapped h rd ra rb hva hal hlist hbase hm hp hc hw
  case stm => exact exec_stm_mapped h rd ra rb hva hal hlist hm hp hw
  case bcopy => exact exec_bcopy_mapped h rd ra rb hd ha hn hn0 hbeat hfrom hq hc hto hp hapart
  case bfill => exact exec_bfill_mapped h rd ra rb hd hn hn0 hbeat hto hp
  case nothing => exact ⟨fetched_effect h (if_pos hn0), fetched_effect h (if_pos hn0)⟩

end Sys2Proof.Machine
end

section
/-! Branches, events and returns (R344, R350, R352 to R354). -/

namespace Sys2Proof.Machine

namespace State

/-! ## Branches (R344) -/

/-- A jump leaves a link behind. -/
theorem setK_jumpTo (u : State) (c rd : Nat) (link target : BitVec 64) :
    (u.setK c rd link).jumpTo c target = (u.updCtx c (fun k => { k with k := k.k.set rd link, pc := target })).spend c 2 := by
  simp only [setK, jumpTo, updCtx_updCtx]

/-- A branch leaves a link behind. -/
theorem setK_branchTo (u : State) (c rd : Nat) (link : BitVec 64) (off : BitVec 22) : (u.setK c rd link).branchTo c off =
    (u.updCtx c (fun k => { k with k := k.k.set rd link, pc := k.pc + (off.signExtend 64 <<< 2) })).spend c 2 := by
  simp only [setK, branchTo, updCtx_updCtx]

end State

/-- Settles O45: which way the instruction goes, its condition or its target's alignment decides; a link joins the jump by
`State.setK_jumpTo` and `State.setK_branchTo`. -/
theorem branchesComplete : Obligations.BranchesComplete := by
  unfold Obligations.BranchesComplete
  intro s u c cond off rd ra h
  refine ⟨fun htaken => fetched_effect h (if_pos htaken), fun hnot => fetched_effect h (if_neg (ne_true_of_eq_false hnot)),
    fetched_effect h (u.setK_branchTo c 15 _ off), fun hal => ?aligned, fun hal => ?misaligned⟩
  case aligned =>
    have hgoes : ¬ ((u.getK c ra).toNat % 4 != 0) = true := by simp [hal]
    exact ⟨fetched_effect h (if_neg hgoes), fetched_effect h ((if_neg hgoes).trans (u.setK_jumpTo c rd _ _))⟩
  case misaligned =>
    have htraps : ((u.getK c ra).toNat % 4 != 0) = true := bne_iff_ne.mpr hal
    exact ⟨fetched_effect h (if_pos htraps), fetched_effect h (if_pos htraps)⟩

/-- Settles O46: each row is its own effect, once the pending events, the target of the signal or the trap and NMI flags have
decided which. -/
theorem eventInstructionsAndReturnsComplete : Obligations.EventInstructionsAndReturnsComplete := by
  unfold Obligations.EventInstructionsAndReturnsComplete
  refine ⟨?events, ?returns⟩
  case events =>
    rintro s u v c rd ra mask h rfl
    refine ⟨fun hmask hpend => ?taken, fun hmask hnone => ?waits, fetched_effect h rfl, fun x hx hx0 hmay => ?signal,
      fetched_effect h rfl, fetched_effect h rfl, fetched_effect h rfl, fetched_effect h rfl⟩
    case taken => exact fetched_effect h ((if_neg hmask).trans (if_pos (bne_iff_ne.mpr hpend)))
    case waits => exact fetched_effect h ((if_neg hmask).trans (if_neg (by simp [hnone])))
    case signal =>
      have hforeign : (c != u.super && x != c && x != u.super) = false := by
        rcases hmay with hmay | hmay | hmay <;> simp [hmay]
      have hpermitted : ¬ (x = 0 || (c != u.super && x != c && x != u.super)) = true := by simp [hx0, hforeign]
      subst hx
      exact fetched_effect h (if_neg hpermitted)
  case returns =>
    intro s u c h
    exact ⟨fun ht => fetched_effect h (if_pos ht), fun ht => fetched_effect h (if_neg (ne_true_of_eq_false ht)),
      fun hn => fetched_effect h (if_pos hn), fun hn => fetched_effect h (if_neg (ne_true_of_eq_false hn))⟩

end Sys2Proof.Machine
end

section
/-! Scheduling, commands to contexts and the events of contexts (R329, R332, R334 to R336, R340, R342, R351 to R356). -/

namespace Sys2Proof.Machine

namespace State

/-! ## Dispatch (R334) -/

/-- R334: a free pair takes the context that is next. -/
theorem dispatchOne_free {s : State} {p c : Nat} (hp : s.seq.pairs.findIdx? (fun p => p.inService && p.running = 0) = some p)
    (hc : s.nextReady = some c) : s.dispatchOne = State.count { s with seq := { s.seq with
      ctxs := upd s.seq.ctxs c (fun k => { k with rstate := 2 }), ready := s.seq.ready.filter (· != c),
      pairs := s.seq.pairs.modify p (fun q => { q with running := c, used := 0 }) } } Reg.SEQ_SWITCHES 1 := by
  simp only [dispatchOne, hp, hc]
  rfl

/-! ## Commands to contexts (R332, R356) -/

/-- R356: no context 0, no supervisor and no context without START takes a command. -/
theorem ccmd_refused {s : State} {x : Nat} (hx : x = 0 ∨ x = s.super ∨ (s.ctx x).start = 0) (op value : Nat) :
    s.ccmd x op value = s.event Reg.SEQ_EVENT 3 :=
  if_pos (by rcases hx with hx | hx | hx <;> simp only [hx, decide_true, Bool.true_or, Bool.or_true])

/-- R356: any other context takes HALT, RESUME, RESTART and PRIO, of which an OFF one takes RESTART alone. -/
theorem ccmd_accepted {s : State} {x op : Nat} (h0 : x ≠ 0) (hsup : x ≠ s.super) (hstart : (s.ctx x).start ≠ 0)
    (hop : op = 1 ∨ op = 2 ∨ op = 3 ∨ op = 4) (hoff : (s.ctx x).rstate ≠ 0 ∨ op = 3) (value : Nat) :
    s.ccmd x op value = if op = 1 then s.haltCtx x
      else if op = 2 then (if (s.ctx x).rstate = 4 then s.makeReady x else s)
      else if op = 3 then s.startCtx x
      else s.updCtx x (fun k => { k with prio := value % 8 }) := by
  refine if_neg ?_
  simp only [Bool.or_eq_true, Bool.and_eq_true, decide_eq_true_eq, bne_iff_ne, h0, hsup, hstart, false_or]
  omega

end State

/-- Settles O36: `State.dispatchOne_free`, `State.ccmd_accepted` and `State.ccmd_refused`; a quantum and a pre-emption act once
their guards hold. -/
theorem schedulingAndCommandsComplete : Obligations.SchedulingAndCommandsComplete := by
  unfold Obligations.SchedulingAndCommandsComplete
  refine ⟨fun s hc hf => ⟨fun p c hp hr => ?dispatch, fun i p hp hrun => ?quantum, fun v c hfull hv hr hprio => ?preempt⟩,
    fun s x hc hf => ⟨fun h0 hsup hstart => ?accepted, fun hx => ?refused⟩⟩
  case dispatch =>
    show execDispatch s = _
    exact whenClocked_effect hc hf (State.dispatchOne_free hp hr)
  case quantum =>
    show execQuantumExpiry i s = _
    refine whenClocked_effect hc hf ?_
    simp only [hp, Option.map_some, Option.getD_some, if_neg hrun]
  case preempt =>
    show execPreempt s = _
    refine whenClocked_effect hc hf ?_
    simp only [hfull, hv, hr, if_pos hprio, Bool.false_eq_true, if_false]
  case accepted =>
    refine ⟨fun hoff => ?halt, fun hhalted => ?resume, ?restart, fun prio hoff => ?prio⟩
    case halt =>
      show execCcmdHalt x s = _
      exact whenClocked_effect hc hf (State.ccmd_accepted h0 hsup hstart (by decide) (.inl hoff) 0)
    case resume =>
      show execCcmdResume x s = _
      have hoff : (s.ctx x).rstate ≠ 0 := by omega
      exact whenClocked_effect hc hf ((State.ccmd_accepted h0 hsup hstart (by decide) (.inl hoff) 0).trans (if_pos hhalted))
    case restart =>
      show execCcmdRestart x s = _
      exact whenClocked_effect hc hf (State.ccmd_accepted h0 hsup hstart (by decide) (.inr rfl) 0)
    case prio =>
      show execCcmdPrio x prio s = _
      exact whenClocked_effect hc hf (State.ccmd_accepted h0 hsup hstart (by decide) (.inl hoff) prio)
  case refused =>
    have answers (op value : Nat) : whenClocked s (fun s => s.ccmd x op value) = .next (s.event Reg.SEQ_EVENT 3).settle :=
      whenClocked_effect hc hf (State.ccmd_refused hx op value)
    exact ⟨answers 1 0, answers 2 0, answers 3 0, answers 4⟩

/-- Settles O37: each row has its effect once the clocks run and its condition holds. -/
theorem contextEventsComplete : Obligations.ContextEventsComplete := by
  unfold Obligations.ContextEventsComplete
  intro s hc hf
  refine ⟨fun m vec hn hrun hfree hvec => ?nmi, fun c t hset hdue => ?timer, fun c h0 hset hlive => ?watchdog,
    ?supervisor, fun i p hp hin => ?lockstep, fun c u h0 hrun hu => ?access,
    fun c w h0 hrun => ?illegal⟩
  case nmi =>
    have htakes : (s.seq.nmi.isSome && (s.ctx s.super).rstate = 2 && !(s.ctx s.super).innmi) = true := by
      simp [hn, hrun, hfree]
    subst hvec
    show execNmiTaken s = _
    exact whenClocked_effect hc hf (if_pos htakes)
  case timer =>
    have hexpires : (((s.at_ t).ctx c).timer != 0 && decide (((s.at_ t).ctx c).timer.toNat ≤ (s.at_ t).now)) = true := by
      rw [State.at_ctx_eq]
      exact Bool.and_eq_true_iff.mpr ⟨bne_iff_ne.mpr hset, decide_eq_true hdue⟩
    show execTimerExpiry c t s = _
    exact whenClocked_effect hc hf (if_pos hexpires)
  case watchdog =>
    have hexpires : (c != 0 && (s.ctx c).wdog != 0 && ((s.ctx c).rstate = 1 || (s.ctx c).rstate = 2)) = true := by
      simpa [h0, hset] using hlive
    show execContextWatchdog c s = _
    exact whenClocked_effect hc hf (if_pos hexpires)
  case supervisor => exact show execSupWatchdog s = _ from whenClocked_of_released hc hf _
  case lockstep =>
    show execLockstepFail i s = _
    refine whenClocked_effect hc hf ?_
    simp only [hp, hin, Bool.false_eq_true, if_false]
  case access =>
    have hruns : (c != 0 && (s.ctx c).rstate = 2) = true := by simp [h0, hrun]
    subst hu
    show execAccessTimeout c s = _
    exact whenClocked_effect hc hf (if_pos hruns)
  case illegal =>
    have hruns : (c != 0 && (s.ctx c).rstate = 2) = true := by simp [h0, hrun]
    show execIllegalInstruction c w s = _
    exact whenClocked_effect hc hf (if_pos hruns)

end Sys2Proof.Machine
end

section
/-! The scrubber and the DRAM channels (R383 to R394). -/

namespace Sys2Proof.Machine

/-- Past DRAM in start-up, a command of the memory comes to its operation's effect. -/
theorem whenMemory_effect {s u : State} {o : State → State} (hc : s.clk.released = true) (hf : s.boot.failed = false)
    (hp : 4 < s.boot.phase) (ho : o s = u) : whenMemory s o = .next u.settle :=
  ho ▸ whenMemory_of_released hc hf hp o

namespace State

/-! ## The scrubber (R383 to R385) -/

/-- R384: with no range scrub at work, GO begins one over a good range. -/
theorem startScrub_good {s : State} (hidle : s.mu.scrub = none)
    (hrange : s.scrubRange ((s.reg Reg.MEM_SCRUB_LO).toNat + 2 ^ 32 * s.rfld Reg.MEM_SCRUB_HI 0 8)
      (s.reg Reg.MEM_SCRUB_LEN).toNat = true) :
    s.startScrub = { s with mu := { s.mu with scrub := some {
      next := (s.reg Reg.MEM_SCRUB_LO).toNat + 2 ^ 32 * s.rfld Reg.MEM_SCRUB_HI 0 8
      left := (s.reg Reg.MEM_SCRUB_LEN).toNat, lines := 0, ce := 0, ue := 0, first := none } } } :=
  if_neg (by simp only [hidle, hrange]; decide)

/-- R385: a range scrub with more than one line to go reads a line that is awake, counts what it found and goes on. -/
theorem rangeLine_goes_on {s u : State} {r : ScrubRun} {n : Nat} {bad : Bool} (hr : s.mu.scrub = some r)
    (hawake : s.sleeping r.next = none) (hread : s.scrubAt r.next = (u, n, bad)) (hmore : 1 < r.left) :
    s.rangeLine = { u with mu := { u.mu with
      scrub := some { next := r.next + 64, left := r.left - 1, lines := r.lines + 1, ce := r.ce + n,
                      ue := r.ue + (if bad then 1 else 0),
                      first := if bad && r.first.isNone then some r.next else r.first } } } := by
  have hlast : ¬ r.left - 1 = 0 := by omega
  simp only [rangeLine, hr, hawake, hread, if_neg hlast]

/-! ## DRAM channels (R388, R392 to R394) -/

/-- R392: a temperature of 85 °C or less is noted and leaves the channel cool; it passes neither limit. -/
theorem dramTemp_cool {s : State} {temp : Int} (hcool : temp ≤ 85) (ch : Nat) {d : Dmc}
    (hd : d = { s.dmc with temps := upd s.dmc.temps ch (fun _ => temp), hot := setBit s.dmc.hot ch false }) :
    s.dramTemp ch temp = State.setReg { s with dmc := d } Reg.DMC_TEMP
      (BitVec.ofNat 32 (uNat 8 (d.temps.foldl max (nth d.temps 0 0)))) := by
  have h85 : ¬ 85 < temp := by omega
  have h95 : ¬ 95 < temp := by omega
  subst hd
  simp only [dramTemp, h85, h95, decide_false, Bool.false_and, Bool.false_eq_true, if_false]

/-- R393: a channel without a waiting request and without a refresh owed enters self-refresh. -/
theorem enterSelfRefresh_idle {s : State} {ch : Nat} (hreqs : s.dmc.reqs.any (fun r => r.chan = ch) = false)
    (howed : nth s.dmc.postponed ch 0 = 0) (hawake : bit s.dmc.selfRef ch = false) :
    s.enterSelfRefresh ch = State.count
      { s with dmc := { s.dmc with selfRef := setBit s.dmc.selfRef ch true } } Reg.DMC_SR_ENTRIES 1 :=
  if_neg (by simp only [hreqs, howed, hawake]; decide)

/-- R388: the oldest request of class C2 or C3 on the channel moves up one class. -/
theorem promoteReq_oldest {s : State} {ch i : Nat}
    (hi : s.dmc.reqs.findIdx? (fun r => r.chan = ch && 2 ≤ r.cls) = some i) :
    s.promoteReq ch = State.count { s with dmc := { s.dmc with
      reqs := upd s.dmc.reqs i (fun r => { r with cls := r.cls - 1 }) } } Reg.DMC_PROMOTED 1 := by
  simp only [promoteReq, hi]

end State

/-- Settles O49: each command is its operation once the memories are initialised (`whenMemory_effect`); a scrub goes by
`State.startScrub_good` and `State.rangeLine_goes_on`, a channel by its rule above, and its failure by not having failed. -/
theorem memoryUpkeepCompletes : Obligations.MemoryUpkeepCompletes := by
  unfold Obligations.MemoryUpkeepCompletes
  intro s ch hc hf hp hch
  refine ⟨fun a ha hidle hrange => ?go, fun r u n bad hr hawake hread hmore => ?range, fun _ => ?background, ?refresh,
    fun temp hcool d hd => ?temperature, fun hreqs howed hawake => ?enter, ?leave, fun i hi => ?promotion, fun hworks => ?fails⟩
  case go =>
    subst ha
    show execScrubGo s = _
    exact whenMemory_effect hc hf hp (State.startScrub_good hidle hrange)
  case range =>
    show execScrubLine true s = _
    exact whenMemory_effect hc hf hp (State.rangeLine_goes_on hr hawake hread hmore)
  case background => exact show execScrubLine false s = _ from whenMemory_of_released hc hf hp _
  case refresh => exact show execRefresh ch s = _ from whenMemory_of_released hc hf hp _
  case temperature =>
    show execDramTempRead ch temp s = _
    exact whenMemory_effect hc hf hp ((if_pos hch).trans (State.dramTemp_cool hcool ch hd))
  case enter =>
    show execSelfRefreshEntry ch s = _
    exact whenMemory_effect hc hf hp ((if_pos hch).trans (State.enterSelfRefresh_idle hreqs howed hawake))
  case leave => exact show execSelfRefreshExit ch s = _ from whenMemory_of_released hc hf hp _
  case promotion =>
    show execRequestPromotion ch s = _
    exact whenMemory_effect hc hf hp (State.promoteReq_oldest hi)
  case fails =>
    show execChannelFail ch s = _
    exact whenMemory_effect hc hf hp ((if_pos hch).trans (if_neg (ne_true_of_eq_false hworks)))

end Sys2Proof.Machine
end

section
/-! DMA channels (R401, R404 to R406, R412): the commands of a channel's owner, its descriptor fetch, a completion, and the
fault of an engine's owner. -/

namespace Sys2Proof.Machine

/-- A channel that has fetched the descriptor `bs` from `va`: one that is malformed, or moves nothing, has its status at once
(R399, R400). -/
def Chan.fetched (va : Nat) (bs : Bytes) (k : Chan) : Chan :=
  { k with desc := some (State.parseDesc va bs), hops := k.hops + 1, started := false, inDone := 0, outDone := 0,
           input := [], out := [], xf := .plain,
           result := if (State.parseDesc va bs).op = 3 then BitVec.ofNat 64 (2 ^ 64 - 1) else 0,
           status := if State.descBad (State.parseDesc va bs) bs then some DmaSt.FORMAT
             else if (State.parseDesc va bs).count = 0 then some DmaSt.OK else none }

namespace State

/-! ## GO and STOP (R396, R406) -/

section Commands

variable {s : State} {w ch : Nat} (hw : w = s.super ∨ (w ≠ 0 ∧ w = s.chanOwner ch))

include hw

/-- R396: the guard of DMA_CMD lets the supervisor and the channel's owner pass. -/
theorem dmaCmd_not_perm : ¬ (w != s.super && (w = 0 || w != s.chanOwner ch)) = true := by
  rcases hw with hsuper | ⟨h0, howner⟩
  · simp [hsuper]
  · simp [h0, ← howner]

/-- R396: GO of a channel that no context names leaves it IDLE. -/
theorem dmaCmd_go_unowned (hfree : s.chanOwner ch = 0) : s.dmaCmd w ch true false = (s, .ok) := by
  rw [dmaCmd, if_neg (dmaCmd_not_perm hw)]
  simp [hfree]

/-- R406: GO starts an idle or halted channel at DMA_HEAD. -/
theorem dmaCmd_go_starts (howned : s.chanOwner ch ≠ 0)
    (hrest : (s.chan ch).st = ChanSt.IDLE ∨ (s.chan ch).st = ChanSt.HALTED) :
    s.dmaCmd w ch true false = (s.updChan ch (fun k => { Chan.reset with
      st := ChanSt.RUN, last := k.last,
      nextVa := (s.reg (Reg.DMA_HEAD_LO ch)).toNat / 64 * 64 + 2 ^ 32 * (s.reg (Reg.DMA_HEAD_HI ch)).toNat }), .ok) := by
  have hidle : ((s.chan ch).st != ChanSt.IDLE && (s.chan ch).st != ChanSt.HALTED) = false := by
    rcases hrest with hst | hst <;> rw [hst] <;> decide
  rw [dmaCmd, if_neg (dmaCmd_not_perm hw)]
  simp only [howned, hidle, Bool.not_true, decide_false, Bool.or_self, Bool.false_eq_true, if_false]

/-- R406: STOP without GO stops the channel. -/
theorem dmaCmd_stop : s.dmaCmd w ch false true = (s.stopChan ch, .ok) := by
  rw [dmaCmd, if_neg (dmaCmd_not_perm hw)]
  simp

end Commands

/-! ## The descriptor fetch (R404, R405) -/

section Fetch

variable {s : State} {ch : Nat} (hrun : (s.chan ch).st = ChanSt.RUN) (hnone : (s.chan ch).desc = none)

include hrun hnone

/-- R404: the guard of a fetch lets a running channel without a descriptor pass. -/
theorem fetchDesc_not_barred : ((s.chan ch).st != ChanSt.RUN || (s.chan ch).desc.isSome) = false := by
  rw [hrun, hnone]
  decide

/-- R404: a channel that has followed HOPLIMIT descriptors halts. -/
theorem fetchDesc_chain_limit (hlimit : s.hopLimit ch ≤ (s.chan ch).hops) : s.fetchDesc ch =
    (((s.haltChan ch 2).event Reg.DMA_EVENT 1).dmaEvent ch 1).dmaFault ch Src.DMA_CHAIN_LIMIT 0 :=
  (if_neg (ne_true_of_eq_false (fetchDesc_not_barred hrun hnone))).trans (if_pos hlimit)

variable (hhops : (s.chan ch).hops < s.hopLimit ch) {u v : State}
  (hv : v = (s.setReg (Reg.DMA_CUR_LO ch) (BitVec.ofNat 32 (s.chan ch).nextVa)).setReg (Reg.DMA_CUR_HI ch)
    (BitVec.ofNat 32 ((s.chan ch).nextVa >>> 32)))

include hhops hv

/-- R404: below HOPLIMIT the channel takes the descriptor that DMA_CUR names. -/
theorem fetchDesc_ok {bs : Bytes}
    (hread : v.engineRead .dma (v.chanOwner ch) (v.chanClass ch) (s.chan ch).nextVa 64 = (u, .ok bs)) :
    s.fetchDesc ch = u.updChan ch (Chan.fetched (s.chan ch).nextVa bs) := by
  subst hv
  simp only [fetchDesc, fetchDesc_not_barred hrun hnone, Nat.not_le_of_lt hhops, hread, Bool.false_eq_true, if_false]
  rfl

/-- R406: an uncorrectable descriptor halts the channel. -/
theorem fetchDesc_uncorr
    (hread : v.engineRead .dma (v.chanOwner ch) (v.chanClass ch) (s.chan ch).nextVa 64 = (u, .uncorr)) :
    s.fetchDesc ch = (((u.haltChan ch 3).event Reg.DMA_EVENT 3).dmaEvent ch 1).dmaFault ch Src.DMA_UNCORR DmaSt.UNCORR := by
  subst hv
  simp only [fetchDesc, fetchDesc_not_barred hrun hnone, Nat.not_le_of_lt hhops, hread, Bool.false_eq_true, if_false]

end Fetch

/-! ## Completion (R401) -/

/-- R401: a descriptor that ends with OK or DIFFER is no error: its status is written, it is counted, and DMA_DONE is raised
only where its flags ask for it. -/
theorem completeDesc_good {s u v : State} {ch st : Nat} {d : Desc} (hd : (s.chan ch).desc = some d)
    (hst : (s.chan ch).status = some st) (hgood : st = DmaSt.OK ∨ st = DmaSt.DIFFER)
    (hends : s.decryptEnds ch (s.chan ch) d st = (u, true))
    (hv : v = ((u.engineCounts (s.chan ch) st).writeStatus ch d st (s.chan ch).inDone
      (if 5 ≤ d.op then BitVec.ofNat 64 (s.chan ch).outDone else (s.chan ch).result)).count (Reg.DMA_DONES ch) 1) :
    s.completeDesc ch = (if bit d.flags 3 then (v.dmaEvent ch 0).keepersGoOn else v).chanGoesOn ch (s.chan ch) d st := by
  have hnotbad : (st != DmaSt.OK && st != DmaSt.DIFFER) = false := by
    rcases hgood with rfl | rfl <;> decide
  subst hv
  simp only [completeDesc, hd, hst, hends, hnotbad, Bool.false_eq_true, if_false]

end State

/-- R412: the inflater's owner gives its fault up once it has held it for longer than XF_HOLD. -/
theorem exec_dmaXfHoldExpiry_inflater {s : State} {ch t : Nat} (hc : s.clk.released = true) (hf : s.boot.failed = false)
    (hp : 4 < s.boot.phase) (hfault : (s.chan ch).st = ChanSt.FAULT) (howner : s.mv.infOwner = some ch)
    (ht : (s.chan ch).faultAt = some t) :
    exec (.dmaXfHoldExpiry ch) s = .next (State.settle
      ((((s.at_ (t + State.msPclk (s.rfld Reg.DMA_CTRL 0 8) + 1)).abandonChan ch).event Reg.DMA_EVENT 5).dmaFault ch
        Src.DMA_XF_TIMEOUT DmaSt.XLT)) := by
  have hholds : ((s.chan ch).st = ChanSt.FAULT && (s.mv.infOwner = some ch || s.mv.defOwner = some ch)) = true := by
    simp [hfault, howner]
  show execDmaXfHoldExpiry ch s = _
  refine whenMemory_effect hc hf hp ((if_pos hholds).trans ?_)
  simp only [ht, Option.getD_some]

/-- Settles O50: DMA_CMD of a permitted writer is `State.dmaCmd_go_unowned`, `State.dmaCmd_go_starts` or `State.dmaCmd_stop`;
a fetch is told apart by the hop count and by what the read gave; a good completion is `State.completeDesc_good`. -/
theorem channelsComplete : Obligations.ChannelsComplete := by
  unfold Obligations.ChannelsComplete
  refine ⟨fun s u w ch hc hf hp hch => ⟨fun hw => ⟨fun hfree => ?unowned, fun howned hrest => ?starts, ?stop⟩,
    fun hrun hnone hhops v bs hv => ⟨fun hread => ?fetched, fun hread => ?uncorr⟩, fun hrun hnone hlimit => ?limit⟩,
    fun s u ch d hc hf hp => ⟨fun st v hd hst hgood hends hv => ?completes,
      fun t hfault howner ht => exec_dmaXfHoldExpiry_inflater hc hf hp hfault howner ht⟩⟩
  case unowned =>
    show execDmaGo w ch s = _
    exact whenMemory_effect hc hf hp ((if_neg (Nat.not_le_of_lt hch)).trans
      (congrArg (State.wrote · w _) (State.dmaCmd_go_unowned hw hfree)))
  case starts =>
    show execDmaGo w ch s = _
    exact whenMemory_effect hc hf hp ((if_neg (Nat.not_le_of_lt hch)).trans
      (congrArg (State.wrote · w _) (State.dmaCmd_go_starts hw howned hrest)))
  case stop =>
    show execDmaStop w ch s = _
    exact whenMemory_effect hc hf hp ((if_neg (Nat.not_le_of_lt hch)).trans
      (congrArg (State.wrote · w _) (State.dmaCmd_stop hw)))
  case fetched =>
    show execDescriptorFetch ch s = _
    exact whenMemory_effect hc hf hp (State.fetchDesc_ok hrun hnone hhops hv hread)
  case uncorr =>
    show execDescriptorFetch ch s = _
    exact whenMemory_effect hc hf hp (State.fetchDesc_uncorr hrun hnone hhops hv hread)
  case limit =>
    show execDescriptorFetch ch s = _
    exact whenMemory_effect hc hf hp (State.fetchDesc_chain_limit hrun hnone hlimit)
  case completes =>
    show execDescriptorComplete ch s = _
    exact whenMemory_effect hc hf hp (State.completeDesc_good hd hst hgood hends hv)

end Sys2Proof.Machine
end

section
/-! How the operations of a DMA descriptor start (R399, R407 to R410, R419), and the beat of a plain one (R397). -/

namespace Sys2Proof.Machine

namespace State

section Starts

variable {s u : State} {ch : Nat} {d : Desc}

/-- R400: an operation that writes starts once its destination may be written. -/
theorem startPlain_writing {op : Nat} (hop : op ≠ 3) (hmay : s.mayStart ch op = some d)
    (hdest : s.destination ch d = (u, true)) :
    s.startPlain ch op = u.updChan ch (fun k => { k with started := true }) := by
  simp only [startPlain, hmay, if_neg hop, hdest]

/-- R399: a COMPARE has no destination to look up. -/
theorem startPlain_compare (hmay : s.mayStart ch 3 = some d) :
    s.startPlain ch 3 = s.updChan ch (fun k => { k with started := true }) := by
  simp only [startPlain, hmay, if_true]

/-- R419: a DECRYPT whose header brings no new key starts with the key that its slot gives. -/
theorem startDecrypt_keyed {v w : State} {h : Bytes} {key : BitVec 256} {fresh : Bool} (hmay : s.mayStart ch 4 = some d)
    (hdest : s.destination ch d = (u, true))
    (hread : engineReadAll 3 u .dma (s.chanOwner ch) (u.chanClass ch) d.param0.toNat 112 = (v, .ok h))
    (hold : fieldLE h 6 2 / 2 % 2 = 0) (hkey : v.decryptKey (s.chanOwner ch) d.count h = (w, .ok (key, fresh))) :
    s.startDecrypt ch = w.updChan ch (fun k => { k with st := ChanSt.RUN, started := true, xf := .gcm key h fresh }) := by
  simp only [startDecrypt, hmay, hdest, hread, hold, hkey, Nat.zero_ne_one, decide_false, Bool.false_and, Bool.false_eq_true,
    if_false]

/-- R408: an INFLATE takes the free inflater, with its output limit. -/
theorem startInflate_free (hmay : s.mayStart ch 5 = some d) (hfree : s.mv.infOwner = none)
    (hdest : s.destination ch d = (u, true)) :
    s.startInflate ch = State.updChan { u with mv := { u.mv with infOwner := some ch } } ch (fun k =>
      { k with st := ChanSt.RUN, started := true,
               xf := .inflate (min (fld d.param0 0 32) (min 67108864
                   ((if fld d.param0 32 8 = 0 then 16 else fld d.param0 32 8) * d.count)))
                 (fld d.param0 0 32) (bit d.param0 40) }) := by
  simp only [startInflate, hmay, hfree, hdest, Option.any_none, Bool.false_eq_true, if_false]

/-- R410: a DEFLATE takes the free deflater. -/
theorem startDeflate_free (hmay : s.mayStart ch 6 = some d) (hfree : s.mv.defOwner = none)
    (hdest : s.destination ch d = (u, true)) :
    s.startDeflate ch = State.updChan { u with mv := { u.mv with defOwner := some ch } } ch (fun k =>
      { k with st := ChanSt.RUN, started := true, xf := .deflate (fld d.param0 0 32) (bit d.param0 32) }) := by
  simp only [startDeflate, hmay, hfree, hdest, Option.any_none, Bool.false_eq_true, if_false]

/-- R397: a started descriptor without an engine and without a status moves a beat of its operation. -/
theorem chanBeat_plain (hd : (s.chan ch).desc = some d) (hrun : (s.chan ch).st = ChanSt.RUN)
    (hstarted : (s.chan ch).started = true) (hopen : (s.chan ch).status = none) (hplain : (s.chan ch).xf = .plain) :
    s.chanBeat ch = if d.op = 1 then s.copyBeat ch d else if d.op = 2 then s.fillBeat ch d else s.compareBeat ch d := by
  have hmoves : ((s.chan ch).st != ChanSt.RUN || !(s.chan ch).started || (s.chan ch).status.isSome) = false := by
    rw [hrun, hstarted, hopen]
    decide
  simp only [chanBeat, hd, hmoves, hplain, Bool.false_eq_true, if_false]

end Starts

end State

/-- Settles O51: each operation's command is its start once the memories are initialised (`whenMemory_effect`), and the
start's own rule above says what it does; a beat is `State.chanBeat_plain`. -/
theorem transfersStart : Obligations.TransfersStart := by
  unfold Obligations.TransfersStart
  intro s u ch d hc hf hp
  refine ⟨fun hmay hdest => ?copy, fun hmay hdest => ?fill, fun hmay => ?compare,
    fun v w h key fresh hmay hdest hread hold hkey => ?decrypt, fun hmay hfree hdest => ?inflate,
    fun hmay hfree hdest => ?deflate, fun hd hrun hstarted hopen hplain => ?beat⟩
  case copy =>
    show execDmaCopy ch s = _
    exact whenMemory_effect hc hf hp (State.startPlain_writing (by decide) hmay hdest)
  case fill =>
    show execDmaFill ch s = _
    exact whenMemory_effect hc hf hp (State.startPlain_writing (by decide) hmay hdest)
  case compare =>
    show execDmaCompare ch s = _
    exact whenMemory_effect hc hf hp (State.startPlain_compare hmay)
  case decrypt =>
    show execDmaDecrypt ch s = _
    exact whenMemory_effect hc hf hp (State.startDecrypt_keyed hmay hdest hread hold hkey)
  case inflate =>
    show execDmaInflate ch s = _
    exact whenMemory_effect hc hf hp (State.startInflate_free hmay hfree hdest)
  case deflate =>
    show execDmaDeflate ch s = _
    exact whenMemory_effect hc hf hp (State.startDeflate_free hmay hfree hdest)
  case beat =>
    show execDmaBeat ch s = _
    exact whenMemory_effect hc hf hp (State.chanBeat_plain hd hrun hstarted hopen hplain)

end Sys2Proof.Machine
end

section
/-! The check-value units (R413 to R415), and the clearing of a key slot (R417). -/

namespace Sys2Proof.Machine

namespace State

/-! ## GO of a check-value unit (R414, R502) -/

section Go

variable {s : State} {w n : Nat} {off : Word}

/-- R502: a unit that is out of use ends the pass with BUS. -/
theorem cvuGo_out (hout : s.rbit Reg.BST_OUT n = true) :
    s.cvuGo w n off = s.passFails { ctx := w, off := fld off 6 17 * 64 } CvuSt.BUS :=
  if_pos hout

/-- R414: a unit without a pass, a queue and a BIST slice takes the pass. -/
theorem cvuGo_idle (hin : s.rbit Reg.BST_OUT n = false) (hcur : (s.cvu n).cur = none) (hqueue : (s.cvu n).queue = [])
    (hslice : s.cvuInSlice n = false) : s.cvuGo w n off = s.cvuTake n { ctx := w, off := fld off 6 17 * 64 } := by
  have hidle : ((s.cvu n).cur.isNone && (s.cvu n).queue.isEmpty && !s.cvuInSlice n) = true := by
    rw [hcur, hqueue, hslice]
    rfl
  exact (if_neg (ne_true_of_eq_false hin)).trans (if_pos hidle)

/-- R414: at a busy unit the first pass of a context that waits joins the queue. -/
theorem cvuGo_busy {p : CvuPass} (hin : s.rbit Reg.BST_OUT n = false) (hcur : (s.cvu n).cur = some p)
    (hfirst : (s.cvu n).queue.any (fun q => q.ctx = w) = false) :
    s.cvuGo w n off = s.updCvu n (fun k => { k with queue := k.queue ++ [{ ctx := w, off := fld off 6 17 * 64 }] }) := by
  have hbusy : ¬ ((s.cvu n).cur.isNone && (s.cvu n).queue.isEmpty && !s.cvuInSlice n) = true := by simp [hcur]
  exact (if_neg (ne_true_of_eq_false hin)).trans ((if_neg hbusy).trans (if_neg (ne_true_of_eq_false hfirst)))

end Go

/-- R415: a pass whose record cannot be corrected ends with UNCORR. -/
theorem cvuRun_uncorr {s u : State} {n : Nat} {p : CvuPass} (hcur : (s.cvu n).cur = some p)
    (hslot : s.slotHolds (32 + n) = false) (hread : s.readMem .cvu p.ctx (Config.seqPool + p.off) 32 = (u, .uncorr)) :
    s.cvuRun n = u.cvuEnds n p CvuSt.UNCORR none := by
  simp only [cvuRun, hcur, hslot, hread, Bool.false_eq_true, if_false]

end State

/-- R415: a unit gives its pass up once it has held its fault for longer than XF_HOLD. -/
theorem exec_cvuXfHoldExpiry_held {s : State} {n t : Nat} {p : CvuPass} (hc : s.clk.released = true)
    (hf : s.boot.failed = false) (hp : 4 < s.boot.phase) (hcur : (s.cvu n).cur = some p)
    (ht : (s.cvu n).faultAt = some t) (hslot : s.slotHolds (32 + n) = true) :
    exec (.cvuXfHoldExpiry n) s = .next (State.settle
      ((((s.at_ (t + State.msPclk (s.rfld Reg.CVU_CTRL 0 8) + 1)).abandonPass n).event Reg.CVU_EVENT 1).raiseFor
        Src.CVU_XF_TIMEOUT p.ctx)) := by
  show execCvuXfHoldExpiry n s = _
  refine whenMemory_effect hc hf hp ?_
  simp only [hcur, ht, hslot, if_true]

/-- Settles O52: GO falls under `State.cvuGo_idle`, `State.cvuGo_busy` or `State.cvuGo_out` by the state of the unit; a pass
runs by `State.cvuRun`, is given up by `exec_cvuXfHoldExpiry_held`, and a key slot is cleared on the bit that asks for it. -/
theorem checksAndKeysComplete : Obligations.ChecksAndKeysComplete := by
  unfold Obligations.ChecksAndKeysComplete
  intro s w n off v hc hf hp hn
  refine ⟨fun hin hcur hqueue hslice => ?idle, fun p hin hcur hfirst => ?busy, fun hout => ?out,
    fun p u hcur hslot hread => ?uncorr, ?runs,
    fun p t hcur ht hslot => exec_cvuXfHoldExpiry_held hc hf hp hcur ht hslot, fun hclear => ?clear⟩
  case idle =>
    show execCvuGo w n off s = _
    exact whenMemory_effect hc hf hp ((if_pos hn).trans (State.cvuGo_idle hin hcur hqueue hslice))
  case busy =>
    show execCvuGo w n off s = _
    exact whenMemory_effect hc hf hp ((if_pos hn).trans (State.cvuGo_busy hin hcur hfirst))
  case out =>
    show execCvuGo w n off s = _
    exact whenMemory_effect hc hf hp ((if_pos hn).trans (State.cvuGo_out hout))
  case uncorr =>
    show execCvuPassDone n s = _
    exact whenMemory_effect hc hf hp (State.cvuRun_uncorr hcur hslot hread)
  case runs => exact show execCvuPassDone n s = _ from whenMemory_of_released hc hf hp _
  case clear =>
    show execCryClear v s = _
    exact whenMemory_effect hc hf hp (if_pos hclear)

end Sys2Proof.Machine
end

section
/-! What a command answers: a next state in every state, and the state as it is where start-up has failed (R516). -/

namespace Sys2Proof.Machine

/-- Settles O1: `step` takes the queue's front. -/
theorem stepRunsTheFrontCommand : Obligations.StepRunsTheFrontCommand := by
  unfold Obligations.StepRunsTheFrontCommand
  intro s c rest hfront
  unfold step
  rw [hfront]

/-! ## Every command answers -/

/-- An answer that keeps the invariant is a next state. -/
theorem KeepsGate.exists_next {s : State} {o : Out} (h : KeepsGate s o) : ∃ t, o = .next t := by
  cases h with
  | settled u => exact ⟨u.settle, rfl⟩
  | @untouched t _ => exact ⟨t, rfl⟩

/-- Settles O3: every command's answer is one that `KeepsGate` admits (`exec_keepsGate`), a settled state or an untouched one. -/
theorem everyCommandAnswersANextState : Obligations.EveryCommandAnswersANextState := by
  unfold Obligations.EveryCommandAnswersANextState
  exact fun i s => (exec_keepsGate i s).exists_next

/-! ## The guards of the commands in FAILED (R504, R516) -/

section Failed

variable {s : State} (hf : s.boot.failed = true)
include hf

theorem whenClocked_of_failed (o : State → State) : whenClocked s o = .next s := if_neg (by simp [hf])

theorem whenMemory_of_failed (o : State → State) : whenMemory s o = .next s := whenClocked_of_failed hf _

theorem instruction_of_failed (c : Nat) (act : State → State) : instruction c s act = .next s := whenClocked_of_failed hf _

theorem whenReady_of_failed (o : State → State) : whenReady s o = .next s := if_neg (by simp [State.running, hf])

theorem statusFrame_of_failed (l : Nat) (good : Bool) (o : State → State) : statusFrame s l good o = .next s :=
  whenReady_of_failed hf _

theorem whenMessage_of_failed (l : Nat) (o : State → State) : s.whenMessage l o = .next s := if_pos (by simp [hf])

theorem twinFrame_of_failed (h : FrameHdr) (o : State → State) : twinFrame s h o = .next s :=
  if_neg (by simp [State.twinListens, hf])

theorem cscFrame_of_failed (h : CscHdr) (typ : Nat) (body : Bytes) (o : State → State) : cscFrame s h typ body o = .next s :=
  if_neg (by simp [State.cscListens, hf])

/-- R516: behind its guard no command acts in FAILED but those of power, the reset pins, the OBS port and the trace lane. -/
theorem exec_of_failed {i : Instr} (hi : actsInFailed i = false) : exec i s = .next s := by
  unfold exec
  cases i with
  | powerUp | rstNLow | modEnLow | presentNRise | obsIdent | obsBoot | obsRead | obsRetain | obsSnap | obsWriteTry
  | obsBadcmd | obsCsRise | traceLostSend => cases hi
  | xltInval | xltInvalAll | xltResume | xltResumeAbandon | scrubGo | scrubLine | refresh
  | dramTempRead | selfRefreshEntry | selfRefreshExit | requestPromotion | channelFail | dmaGo | dmaStop
  | descriptorFetch | dmaCopy | dmaFill | dmaCompare | dmaDecrypt | dmaInflate | dmaDeflate | dmaBeat
  | descriptorComplete | dmaXfHoldExpiry | cvuGo | cvuPassDone | cvuXfHoldExpiry | cryClear
  | regWrite => exact whenMemory_of_failed hf _
  | add | sub | and | or | xor | shl | shr | sar | mul | mulhu | mulhs | divu | divs | remu | addi | andi | ori | xori
  | shli | shri | sari | cmp | tst | cmpi | kset | kapp | ldb | ldh | ldw | ldd | ldbs | ldhs | ldws | stb | sth | stw
  | std | cas | ldm | stm | bcopy | bfill | b | bl | jr | jlr | wait | poll | signal | settmr | yield | halt | tret
  | tretNmi | rdsr | wrsr | wdog | nop => exact instruction_of_failed hf _ _
  | bistSliceDone | bistBudgetCut | segmentStored | closedStatusRepeat | jobFree | jobHalt | jobOpen | jobClose
  | segmentAccept | binding | geomEnd | cairn | cairnAck | home | layerBegin | swath | layerEnd | park | waitDirective
  | waitTimeout | directiveStallRelease | bankLoad | waveLoad | maskLoad | curveLoad | modeBankSel | modeRowmap
  | modeMaskSel | modeHalftone | region | bandFetchDone | slicePosted | haloValue | transmitPoint | lineTake
  | carriageInPlace | gateEdge | testWindowsClosed | holdTimeout | fireAckTimeout | decisionCrossing | strobeEdge
  | servoTick | axpDriveFrame | axisMoveDone | colStart | firingSpanStart | stepEdge | stall | switchChange
  | switchChatter | switchRecover | shadowValue | tiebreakCheck => exact whenReady_of_failed hf _
  | fireAck | voidAck | orderAck | temp | nozzleFault
  | driverFault | testDone => exact statusFrame_of_failed hf _ _ _
  | segment | screeAck | retry | resume | abort => exact whenMessage_of_failed hf _ _
  | twinRole | twinCrc | twinTime | twinCascade | twinSync | twinTiebreak | twinHandover | twinSegment | twinOutcome
  | twinTxrec | twinScree | twinActrec | twinAxis | twinLinkmsg | twinWrite => exact twinFrame_of_failed hf _ _
  | cscJoin | cscAccept | cscTime | cscPlan | cscEdit | cscMode | cscAxis | cscCol | cscSwgate | cscState | cscReport
  | cscHb => exact cscFrame_of_failed hf _ _ _ _
  | rpllLock | rpllLockTimeout | lbistDone | mbistDone | dramInitDone | imageVerified | keysLoaded | loadDone | calDone
  | lanesDone | lanesTimeout | converterRotation | converterHandover | delayLineCal | terminationCal
  | tdeltaExceeded => exact if_neg (by simp [hf])
  | linkEnable | linkDisable | detectRetry | trnReceived | trainTimeout | capxReceived | eyeWindow | deskewError
  | lossOfSignal | failedRetry | linkDown | blindStartActive => exact if_neg (by simp [State.lanesRun, hf])
  | twinIdleAck | twinRetxTimeout | twinTimeSend | twinIdleDue => exact if_neg (by simp [State.twinListens, hf])
  | cscIdleAck | cscRetxTimeout | cscIdleDue => exact if_neg (by simp [State.cscListens, hf])
  | vmonEvent => exact if_pos (by simp [hf])
  | _ => exact whenClocked_of_failed hf _

end Failed

/-- Settles O6: the guards that let no command of these through in FAILED (`exec_of_failed`). -/
theorem failedModuleIgnoresCommands : Obligations.FailedModuleIgnoresCommands := by
  unfold Obligations.FailedModuleIgnoresCommands
  exact fun i s hf hi => exec_of_failed hf hi

end Sys2Proof.Machine
end

section
/-! Start-up (R497, R503, R511, R513, R515, R516, R558): the command that ends each phase. -/

namespace Sys2Proof.Machine

/-- R503: a command that ends phase `p` acts in that phase. -/
theorem phaseCommand_effect {s u v : State} {p : Nat} (hf : s.boot.failed = false) (hp : s.boot.phase = p) (hu : u = v) :
    (if s.boot.phase = p && !s.boot.failed then done u else .next s) = .next v.settle := by
  rw [if_pos (by simp [hf, hp]), hu]
  rfl

namespace State

/-- R516: start-up fails in the phase in which the module is. -/
theorem phaseFails_of_phase {s : State} {p : Nat} (hp : s.boot.phase = p) (code : Nat) :
    s.phaseFails code = (s.failStart code).trace 5 (leBytes 1 p ++ leBytes 1 code ++ leBytes 6 0) := by
  rw [phaseFails, hp]

/-- R497: logic BIST without a failing element. -/
theorem logicBist_clean (s : State) : s.logicBist [] [] false = (s.event Reg.BST_BOOT 0).enterPhase 3 := rfl

/-- R505: a flash that declares a mode within reach is read in that mode. -/
theorem nvm_of_mode {s : State} {p : Sfdp} {m : Nat × Nat} (hm : flashMode p = some m) (a b : Bytes) :
    s.nvm (some p) a b = ((s.setRfld Reg.BCL_SECVER 8 6 s.die.floor).setReg Reg.BCL_NVM
      (setFld (setFld (setFld (setFld 0 0 5 p.log2Bytes) 5 1 (if 24 < p.log2Bytes then 1 else 0)) 6 2 m.1) 8 5 m.2)).readFlash
        p a b := by
  simp only [nvm, Option.bind_some, hm, Option.map_some]

end State

/-- Settles O7: in its phase each command is its operation (`phaseCommand_effect`), whose outcome the phase's measurements
decide. -/
theorem startupPhasesComplete : Obligations.StartupPhasesComplete := by
  unfold Obligations.StartupPhasesComplete
  intro s hf
  refine ⟨fun kept hp => ?power, fun hp => ?lock, fun hp => ?noLock, fun hp => ?logic, fun fails t hp hmap => ?memory,
    fun hp => ?dram, fun p m a b hp hm => ?nvm, fun hp => ?keys, fun hp => ?load, fun m hp => ?cal, fun hp hlate => ?lanes,
    fun hp hlate => ?late⟩
  case power =>
    show (if s.boot.phase = 0 && !s.boot.failed then done s.leaveReset else .next s) = _
    exact phaseCommand_effect hf hp rfl
  case lock =>
    show execRpllLock s = _
    exact phaseCommand_effect hf hp rfl
  case noLock =>
    show execRpllLockTimeout s = _
    exact phaseCommand_effect hf hp (State.phaseFails_of_phase hp 1)
  case logic =>
    show execLbistDone [] [] false s = _
    exact phaseCommand_effect hf hp s.logicBist_clean
  case memory =>
    show execMbistDone fails s = _
    rw [execMbistDone, hmap]
    exact phaseCommand_effect hf hp rfl
  case dram =>
    show execDramInitDone [] false s = _
    exact phaseCommand_effect hf hp rfl
  case nvm =>
    show execImageVerified (some p) a b s = _
    exact phaseCommand_effect hf hp (State.nvm_of_mode hm a b)
  case keys =>
    show execKeysLoaded s = _
    exact phaseCommand_effect hf hp rfl
  case load =>
    show execLoadDone s = _
    exact phaseCommand_effect hf hp rfl
  case cal =>
    show execCalDone m s = _
    exact phaseCommand_effect hf hp rfl
  case lanes =>
    have hends : (s.boot.phase = 9 && !s.boot.failed && s.lateLinks.isEmpty) = true := by simp [hp, hf, hlate]
    exact show execLanesDone s = _ from if_pos hends
  case late =>
    show execLanesTimeout s = _
    refine phaseCommand_effect hf hp ?_
    rw [if_neg (by simpa using hlate)]
    rfl

end Sys2Proof.Machine
end

section
/-! The calibration engine (R550 to R557): converters and their handover, delay lines, terminations and due elements. -/

namespace Sys2Proof.Machine

/-- From LANES on a calibration whose element is there (`c`) has its effect. -/
theorem calibration_effect {s u v : State} {c : Bool} (hp : 9 ≤ s.boot.phase) (hf : s.boot.failed = false) (hc : c = true)
    (hu : u = v) : (if 9 ≤ s.boot.phase && !s.boot.failed && c then done u else .next s) = .next v.settle := by
  rw [if_pos (by simp [hp, hf, hc]), hu]
  rfl

/-- R549: a BEMF converter needs an axis unit. -/
theorem not_bemf_or_hasAxis {s : State} {bemf : Bool} (haxis : bemf = true → s.hasAxis = true) : (!bemf || s.hasAxis) = true := by
  cases bemf with
  | false => rfl
  | true => exact haxis rfl

namespace State

/-- R553: the spare that passes keeps what was measured and stands ready. -/
theorem rotate_passing {s : State} {bemf : Bool} {refv v : Nat} {m : ConvMeas} (hrefv : refvFits refv = true)
    (hm : ConvMeas.passes m = true) (hv : (s.measureRefv refv).convSpare bemf = some v) : s.rotate_ bemf refv m =
      (((s.measureRefv refv).count Reg.CAL_RUNS 1).convKeep bemf v m).setReady bemf true := by
  simp only [rotate_, hv, hrefv, hm, Bool.not_true, Bool.false_eq_true, if_false, if_true]

/-- R552: means within the window hand the channel over to the spare, and the converter that served it becomes the spare. -/
theorem swapConverter_within {s : State} {bemf : Bool} {diff : Int} {v old : Nat} (hv : s.convSpare bemf = some v)
    (hold : s.serving bemf (s.nextChannel bemf) = some old) (hready : (if bemf then s.cal.bemReady else s.cal.encReady) = true)
    (hdiff : diff.natAbs ≤ (s.setReady bemf false).rfld Reg.CAL_CTRL 16 4) : s.swapConverter bemf diff =
      ((((s.setReady bemf false).setRfld (convReg bemf v) 0 4 (s.nextChannel bemf)).setRfld (convReg bemf old) 0 4 8).setSpare bemf
        (some old)).passChannel bemf (s.nextChannel bemf) := by
  simp only [swapConverter, hv, hold, hready, if_pos hdiff, Bool.not_true, Bool.false_eq_true, if_false]

/-- R557: an element whose temperature has moved by more than TDELTA becomes due. -/
theorem temperatureMoves_far {s t : State} {kind idx a : Nat} {temp : Int}
    (ht : t = s.setReg Reg.CRU_TEMP (BitVec.ofNat 32 (uNat 16 temp))) (ha : t.elementReg kind idx = some a)
    (hfar : t.rfld Reg.CAL_CTRL 8 8 < (temp - 10 * sInt 8 (t.rfld a 24 8)).natAbs) :
    s.temperatureMoves kind idx temp = t.becomesDue kind idx := by
  simp only [temperatureMoves, ← ht, ha, if_pos hfar]

end State

/-- Settles O9: each command from LANES on is its operation (`calibration_effect`), whose measurements fit. -/
theorem calibrationsComplete : Obligations.CalibrationsComplete := by
  unfold Obligations.CalibrationsComplete
  intro s hp hf
  refine ⟨fun bemf refv m v haxis hrefv hm hv => ?rotation, fun bemf diff v old haxis hv hold hready hdiff => ?handover,
    fun line refv d hline hfree hrefv => ?line, fun lane refv m hlane hrefv => ?termination,
    fun kind idx temp a ha hfar => ?due⟩
  case rotation =>
    show execConverterRotation bemf refv m s = _
    exact calibration_effect hp hf (not_bemf_or_hasAxis haxis) (State.rotate_passing hrefv hm hv)
  case handover =>
    show execConverterHandover bemf diff s = _
    exact calibration_effect hp hf (not_bemf_or_hasAxis haxis) (State.swapConverter_within hv hold hready hdiff)
  case line =>
    show execDelayLineCal line refv d s = _
    rw [execDelayLineCal, Bool.and_assoc]
    exact calibration_effect hp hf (by simp [hline, hfree]) (if_pos hrefv)
  case termination =>
    show execTerminationCal lane refv m s = _
    exact calibration_effect hp hf hlane (if_pos hrefv)
  case due =>
    have hacts : (9 ≤ s.boot.phase && !s.boot.failed) = true := by simp [hp, hf]
    show execTdeltaExceeded kind idx temp s = _
    rw [execTdeltaExceeded, if_pos hacts, State.temperatureMoves_far rfl ha hfar]
    rfl

end Sys2Proof.Machine
end

section
/-! Interlocks and the safety manager (R484 to R488), and the BIST slices (R500 to R502). -/

namespace Sys2Proof.Machine

namespace State

/-! ## Interlocks (R485 to R488) -/

/-- R485, R487: the first demand on a pair closes the gate by INTERLOCK, and stops every axis where SAF_CTRL says so. -/
theorem demand_first {s u : State} {k : Nat} {chanB : Bool} (ha : bit s.saf.levA k = false) (hb : bit s.saf.levB k = false)
    (hu : u = (((((s.setLevel k chanB true).pairLevels k).count Reg.SAF_DEMANDS 1).event Reg.SAF_EVENT 0).setInterlock).raise
      Src.SAF_INTERLOCK) : s.demand k chanB = if u.rbit Reg.SAF_CTRL k then u.stopAll else u := by
  simp only [demand, ha, hb, Bool.or_false, Bool.false_eq_true, if_false, ← hu]

/-- R486: a pair without a latch that has disagreed for 1 ms latches DISCREP. -/
theorem discrepant_elapsed {s u : State} {k a : Nat} (ha : nth s.saf.disagreeAt k none = some a)
    (helapsed : a + msPclk 1 ≤ s.clk.pclk) (hlatch : bit s.saf.dlatch k = false)
    (hu : u = { s with saf := { s.saf with dlatch := setBit s.saf.dlatch k true, cycle := setBit s.saf.cycle k false } }) :
    s.discrepant k = (State.event (State.settleGate
      { u with saf := { u.saf with discrep := true, closedIlk := u.closureKind true } }) Reg.SAF_EVENT 1).raise
        Src.SAF_DISCREPANCY := by
  subst hu
  have hdue : ¬ (s.clk.pclk < a + msPclk 1 || bit s.saf.dlatch k) = true := by
    simp [hlatch]
    omega
  simp only [discrepant, ha, if_neg hdue]

/-- R488: a rearm with nothing in its way clears SAF_CAUSE and the causes that it may clear. -/
theorem rearm_free {s : State} {v : Word} (hgo : bit v 0 = true) (ha : s.saf.levA = 0) (hb : s.saf.levB = 0)
    (hlatch : s.saf.dlatch = 0) (hgate : s.fco.sev3Gate = false) (hrun : s.running = true)
    (hbuild : s.mot.bstate = Build.UNHOMED ∨ s.mot.bstate = Build.READY ∨ s.mot.bstate = Build.HELD) :
    s.rearm v = (s.setReg Reg.SAF_CAUSE 0).setCauses
      (fun f => { f with startup := false, interlock := false, fault := false, discrep := false }) := by
  refine (if_neg (by simp [hgo])).trans (if_neg ?_)
  have hstill : s.mot.bstate ≠ Build.HOMING ∧ s.mot.bstate ≠ Build.LAYER ∧ s.mot.bstate ≠ Build.CLOSING := by
    rcases hbuild with h | h | h <;> rw [h] <;> decide
  simp [ha, hb, hlatch, hgate, hrun, hstill]

/-! ## BIST slices (R500 to R502) -/

section SliceEnds

variable {s t : State} {x : Slice} {kind : Nat}

/-- R500, R502: what the end of a slice leaves of it, whatever its signature. -/
def afterSlice (s : State) (kind idx st : Nat) : State :=
  let u := (s.sliceEnds kind idx st).count Reg.BST_SLICES 1
  { u with bist := { u.bist with cutRuns := u.bist.cutRuns.filter (fun z => !(z.1 = kind && z.2.1 = idx)),
                                 nextPair := if kind = 1 then (idx + 1) % 4 else u.bist.nextPair,
                                 nextCvu := if kind = 2 then (idx + 1) % 4 else u.bist.nextCvu } }

/-- R500: a slice whose signature matches returns its target. -/
theorem sliceDone_match (hx : s.runningSlice kind = some x) (ht : t = s.afterSlice kind x.idx 1) :
    s.sliceDone kind true = (t.event Reg.BST_EVENT 0).targetBack kind x.idx := by
  subst ht
  simp only [sliceDone, hx]
  rfl

/-- R502: a slice whose signature differs retires its ridge, its pair or its CVU. -/
theorem sliceDone_mismatch (hx : s.runningSlice kind = some x) (ht : t = s.afterSlice kind x.idx 2) :
    s.sliceDone kind false =
      if kind = 0 then (((t.event Reg.BST_EVENT 1).count Reg.BST_FAILS 1).raise Src.BST_RIDGE_FAIL).retireRidge x.idx
      else if kind = 1 then ((((t.event Reg.BST_EVENT 1).count Reg.BST_FAILS 1).pairLeaves x.idx).raise Src.BST_PAIR_FAIL).lastPair
      else (((t.event Reg.BST_EVENT 1).count Reg.BST_FAILS 1).raise Src.BST_CVU_FAIL).retireCvu x.idx := by
  subst ht
  simp only [sliceDone, hx]
  rfl

/-- R501: the slice of a pair or a CVU is cut, and its target returns. -/
theorem budgetCut_slice (hkind : kind ≠ 0) (hx : s.bist.slices.find? (fun x => x.kind = kind) = some x) :
    s.budgetCut kind = (s.sliceCut kind x.idx).targetBack kind x.idx := by
  simp only [budgetCut, if_neg hkind, hx]

end SliceEnds

end State

/-- Settles O11: once the clocks run an interlock's row is its operation in the state to which the clock has run on, and in
READY a slice ends by `State.sliceDone_match`, `State.sliceDone_mismatch` or `State.budgetCut_slice`. -/
theorem safetyAndBistComplete : Obligations.SafetyAndBistComplete := by
  unfold Obligations.SafetyAndBistComplete
  refine ⟨fun s hc hf => ⟨fun pair chanB t u hpair ha hb hu => ?demand, fun pair chanB t hpair => ?permit,
      fun pair t a u hpair ha helapsed hlatch hu => ?discrepancy, ?readback, ?crossCheck,
      fun v t hgo ha hb hlatch hgate hrun hbuild => ?rearm⟩,
    fun s x kind hr => ⟨fun hx => ⟨fun t ht => ?good, fun t ht => ?bad⟩, fun hkind hx => ?cut⟩⟩
  case demand =>
    show execInterlockDemand pair chanB t s = _
    exact whenClocked_effect hc hf ((if_pos hpair).trans
      (State.demand_first (by rwa [State.at__saf]) (by rwa [State.at__saf]) hu))
  case permit =>
    show execInterlockPermit pair chanB t s = _
    exact whenClocked_effect hc hf (if_pos hpair)
  case discrepancy =>
    show execDiscrepancy pair t s = _
    rw [← s.at__saf t] at ha hlatch
    exact whenClocked_effect hc hf ((if_pos hpair).trans
      (State.discrepant_elapsed ha helapsed hlatch (by rw [hu, State.at__saf])))
  case readback => exact show execGateRb s = _ from whenClocked_of_released hc hf _
  case crossCheck => exact show execSafXchk s = _ from whenClocked_of_released hc hf _
  case rearm =>
    show execSafRearm v t s = _
    exact whenClocked_effect hc hf (State.rearm_free hgo (by rwa [State.at__saf]) (by rwa [State.at__saf])
      (by rwa [State.at__saf]) (by rwa [State.at__fco]) (by rwa [State.at_running_eq]) (by rwa [State.at__mot]))
  case good =>
    show execBistSliceDone kind true s = _
    exact whenReady_effect hr (State.sliceDone_match hx ht)
  case bad =>
    show execBistSliceDone kind false s = _
    exact whenReady_effect hr (State.sliceDone_mismatch hx ht)
  case cut =>
    show execBistBudgetCut kind s = _
    exact whenReady_effect hr (State.budgetCut_slice hkind hx)

end Sys2Proof.Machine
end

section
/-! The link states of the lanes (R427, R433 to R436, R439). -/

namespace Sys2Proof.Machine

/-- From LANES on a command of a link whose condition `c` holds has its effect. -/
theorem lanesCommand_effect {s u v : State} {c : Bool} (hl : s.lanesRun = true) (hc : c = true) (hu : u = v) :
    (if s.lanesRun && c then done u else .next s) = .next v.settle := by
  rw [if_pos (by simp [hl, hc]), hu]
  rfl

namespace State

/-! ## Training sets and capabilities (R434, R436) -/

section Bringup

variable {s : State} {k : LinkId}

/-- R434: in TRAIN a training set equalises the lanes. -/
theorem training_in_train (hst : (s.link k).st = 2) (n : Nat) :
    s.training k n = (s.equalise k).updLink k (fun l => { l with st := 3 }) := by
  simp [training, hst]

/-- R434: a trained link whose partner is new exchanges capabilities. -/
theorem training_to_capx (hst : (s.link k).st = 3) :
    s.training k 1 = (s.updLink k (fun l => { l with st := 4 })).emit (.capx k (s.ownCaps k)) := by
  simp [training, hst]

/-- R434: a trained link that was ACTIVE becomes so again with the capabilities it has. -/
theorem training_to_active (hst : (s.link k).st = 3) (hwas : (s.link k).wasActive = true) :
    s.training k 2 = s.becomesActive k (s.link k).caps := by
  simp [training, hst, hwas]

theorem capabilities_suited {data : Bytes} (h : s.compatible k data = true) : s.capabilities k data = s.becomesActive k data :=
  if_pos h

/-- R436: a job link fails on capabilities that do not suit it. -/
theorem capabilities_job_unsuited {l : Nat} {data : Bytes} (h : s.compatible (.job l) data = false) :
    s.capabilities (.job l) data = (s.updLink (.job l) (fun l => { l with st := 6 })).event Reg.LNP_EVENT 4 :=
  if_neg (ne_true_of_eq_false h)

end Bringup

end State

/-- Settles O12: from LANES on each row is its operation (`lanesCommand_effect`) in the state in which the link is. -/
theorem linksComplete : Obligations.LinksComplete := by
  unfold Obligations.LinksComplete
  intro s k hl
  refine ⟨fun hen hst => ?enable, fun hdeep hst hact => ?disableDown, fun hdeep hact => ?disableActive, fun hst => ?senses,
    fun n hst => ?trains, fun hst => ?offers, fun hst hwas => ?returns, fun hst => ?retries, fun data hst hok => ?suited,
    fun data l hst hok hk => ?unsuited, fun lane opening e hact hlane => ?eye, fun hact => ?deskew, fun hact => ?loss,
    fun hst => ?failed, fun hact => ?down, fun hst => ?blind⟩
  case enable =>
    have hacts : (s.lanesRun && s.linkEnabled k && (s.link k).st = 0) = true := by simp [hl, hen, hst]
    exact show execLinkEnable k s = _ from if_pos hacts
  case disableDown =>
    show execLinkDisable k s = _
    rw [execLinkDisable, Bool.and_assoc]
    exact lanesCommand_effect hl (by simp [hdeep, hst]) (by rw [if_neg (ne_true_of_eq_false hact)])
  case disableActive =>
    have hst : (s.link k).st = 5 := of_decide_eq_true hact
    show execLinkDisable k s = _
    rw [execLinkDisable, Bool.and_assoc]
    exact lanesCommand_effect hl (by simp [hdeep, hst]) (by rw [if_pos hact])
  case senses =>
    have hacts : (s.lanesRun && (s.link k).st = 1 && true) = true := by simp [hl, hst]
    exact show execDetectRetry k true s = _ from if_pos hacts
  case trains =>
    show execTrnReceived k n s = _
    rw [execTrnReceived, if_pos hl, State.training_in_train hst]
    rfl
  case offers =>
    show execTrnReceived k 1 s = _
    rw [execTrnReceived, if_pos hl, State.training_to_capx hst]
    rfl
  case returns =>
    show execTrnReceived k 2 s = _
    rw [execTrnReceived, if_pos hl, State.training_to_active hst hwas]
    rfl
  case retries => exact show execTrainTimeout k s = _ from lanesCommand_effect hl (decide_eq_true hst) rfl
  case suited =>
    show execCapxReceived k data s = _
    exact lanesCommand_effect hl (decide_eq_true hst) (State.capabilities_suited hok)
  case unsuited =>
    subst hk
    show execCapxReceived (.job l) data s = _
    exact lanesCommand_effect hl (decide_eq_true hst) (State.capabilities_job_unsuited hok)
  case eye =>
    show execEyeWindow k lane opening e s = _
    rw [execEyeWindow, Bool.and_assoc]
    exact lanesCommand_effect hl (by simp [hact, hlane]) rfl
  case deskew => exact show execDeskewError k s = _ from lanesCommand_effect hl hact rfl
  case loss => exact show execLossOfSignal k s = _ from lanesCommand_effect hl hact rfl
  case failed => exact show execFailedRetry k s = _ from lanesCommand_effect hl (decide_eq_true hst) rfl
  case down => exact show execLinkDown k s = _ from lanesCommand_effect hl (by rw [hact]; rfl) rfl
  case blind => exact show execBlindStartActive k s = _ from lanesCommand_effect hl (decide_eq_true hst) rfl

end Sys2Proof.Machine
end

section
/-! Frames of a job link (R440 to R443). -/

namespace Sys2Proof.Machine

namespace State

section Frame

variable {s u : State} {l : Nat} {h : JobHdr} {body : Bytes} (hact : s.linkActive (.job l) = true)
include hact

/-- R441: a damaged frame is counted alone. -/
theorem jobFrameIn_bad : s.jobFrameIn l h body false = (s.heardOn (.job l)).count (Reg.JOB_ERR l) 1 := by
  simp [jobFrameIn, hact, jobErr]

variable (hlen : body.length ≤ 4096) (hu : u = (s.heardOn (.job l)).jobAck l h.fack h.credit)
include hlen hu

/-- R441, R442: a good frame is acknowledged, and the next one joins its message. -/
theorem jobFrameIn_next (hseq : h.fseq = (u.joblink l).rxNext) : s.jobFrameIn l h body true =
    (u.updJob l (fun j => { j with rxNext := (h.fseq + 1) % 2 ^ 32 })).joinFrame l h.first h.last body := by
  subst hu
  simp [jobFrameIn, hact, Nat.not_lt_of_le hlen, ← hseq]

/-- R441: a good frame out of order is acknowledged and counted. -/
theorem jobFrameIn_outOfOrder (hseq : h.fseq ≠ (u.joblink l).rxNext) :
    s.jobFrameIn l h body true = u.count (Reg.JOB_ERR l) 1 := by
  subst hu
  simp [jobFrameIn, hact, Nat.not_lt_of_le hlen, hseq, jobErr]

end Frame

end State

/-- Settles O13: a frame by the lemmas above; the link's other rows act because it is ACTIVE. -/
theorem jobFramesComplete : Obligations.JobFramesComplete := by
  unfold Obligations.JobFramesComplete
  intro s l hc hf hact
  refine ⟨fun h body u hlen hu hseq => ?next, fun h body u hlen hu hseq => ?outOfOrder, fun h body => ?bad,
    fun fack credit => ?acks, fun hun => ?again, ?idle, ?silent⟩
  case next =>
    show execJobDataFrame l h body true s = _
    exact whenClocked_effect hc hf (State.jobFrameIn_next hact hlen hu hseq)
  case outOfOrder =>
    show execJobDataFrame l h body true s = _
    exact whenClocked_effect hc hf (State.jobFrameIn_outOfOrder hact hlen hu hseq)
  case bad =>
    show execJobDataFrame l h body false s = _
    exact whenClocked_effect hc hf (State.jobFrameIn_bad hact)
  case acks =>
    show execJobIdleAck l fack credit s = _
    exact whenClocked_effect hc hf (if_pos hact)
  case again =>
    show execJobRetxTimeout l s = _
    exact whenClocked_effect hc hf (if_neg (by simp [hun, hact]))
  case idle =>
    show execJobIdleDue l s = _
    exact whenClocked_effect hc hf (if_pos hact)
  case silent =>
    show execJobLinkSilent l s = _
    exact whenClocked_effect hc hf (if_pos hact)

end Sys2Proof.Machine
end

section
/-! The timebase's writes and holdover (R455 to R458), and the trigger channels (R460). -/

namespace Sys2Proof.Machine

namespace State

/-! ## Rate (R455) -/

section Rate

variable {s : State} {w inc : Nat} {hi : Word} (hmay : s.mayTime w = true)
  (hinc : inc = (s.reg Reg.TIM_INC_LO).toNat + 2 ^ 32 * fld hi 0 3)
include hmay hinc

/-- R455: both halves of an increment in range come into force, and holdover ends. -/
theorem incWrite_in_range (hfits : incFits inc = true) : s.incWrite w hi =
    ({ (s.setReg Reg.TIM_INC_HI (setFld 0 0 3 (fld hi 0 3))).setRfld Reg.TIM_STAT 2 1 0 with
        clk := { s.clk with inc := inc, incAt := s.now } }, .ok) := by
  have hhigh : inc / 2 ^ 32 = fld hi 0 3 := by
    have := (s.reg Reg.TIM_INC_LO).isLt
    omega
  simp only [incWrite, hmay, ← hinc, hfits, Bool.not_true, Bool.false_eq_true, if_false]
  rw [setInc, hhigh]
  rfl

/-- R455: an increment out of range is discarded. -/
theorem incWrite_out_of_range (hfits : incFits inc = false) : s.incWrite w hi = (s.event Reg.TIM_EVENT 0, .ok) := by
  simp only [incWrite, hmay, ← hinc, hfits, Bool.not_true, Bool.not_false, Bool.false_eq_true, if_false, if_true]

end Rate

theorem incFits_iff {inc : Nat} : incFits inc = true ↔ 49975 * 2 ^ 32 ≤ 10000 * inc ∧ 10000 * inc ≤ 50025 * 2 ^ 32 := by
  rw [incFits, Bool.and_eq_true, decide_eq_true_eq, decide_eq_true_eq, Nat.mul_comm inc]

/-! ## Phase (R456) -/

section Phase

variable {s : State} {w : Nat} {h : Word} {off : Int} (hmay : s.mayTime w = true)
  (hoff : off = sInt 40 ((s.reg Reg.TIM_ADJ_LO).toNat + 2 ^ 32 * fld h 0 8) * 2 ^ 32)
include hmay hoff

/-- R456: MODE 0 slews by the offset. -/
theorem adjWrite_slew (hmode : bit h 8 = false) : s.adjWrite w h =
    ({ s.setReg Reg.TIM_ADJ_HI (setFld (setFld 0 0 8 (fld h 0 8)) 8 1 (fld h 8 1)) with clk := { s.clk with slew := off } }, .ok) := by
  subst hoff
  simp only [adjWrite, hmay, adjust, hmode, Bool.not_true, Bool.not_false, Bool.false_eq_true, if_false, if_true]
  rfl

/-- R456: MODE 1 steps by the offset where nothing bars it. -/
theorem adjWrite_step {u : State} (hmode : bit h 8 = true)
    (hu : u = s.setReg Reg.TIM_ADJ_HI (setFld (setFld 0 0 8 (fld h 0 8)) 8 1 (fld h 8 1))) (hfree : u.stepBarred = false) :
    s.adjWrite w h = ({ u with clk := { s.clk with ticks := uNat 96 ((s.clk.ticks : Int) + off) } }, .ok) := by
  subst hoff
  simp only [adjWrite, hmay, adjust, hmode, ← hu, hfree, Bool.not_true, Bool.false_eq_true, if_false]
  rw [hu]
  rfl

end Phase

/-- R458: holdover begins once INC has not been written for HOLD_MS. -/
theorem holdover_begins {s : State} (hmode : s.rfld Reg.TIM_CTRL 0 2 = 1) (hleads : s.follows = false)
    (hfirst : s.rbit Reg.TIM_STAT 2 = false) (hold : s.clk.incAt + s.rfld Reg.TIM_CTRL 8 8 * 100000000 ≤ s.now) :
    s.holdover = ((s.setRfld Reg.TIM_STAT 2 1 1).event Reg.TIM_EVENT 2).raise Src.TIM_PTP_HOLDOVER :=
  if_pos (by simp [hmode, hleads, hfirst, hold])

/-! ## Trigger channels (R460) -/

section Channel

variable {s u : State} {w k : Nat} {g : Trigger}

/-- R460: a channel is armed for its T; LATE says that T has passed. -/
theorem trgCtl_arms {v c : Word} (hmay : s.mayTrigger w k = true)
    (hc : c = setFld (setFld (setBit v 2 false) 3 5 0) 24 8 0) (harm : bit c 0 = true)
    (hg : g = { armed := true, nextAt := s.triggerT k : Trigger })
    (hu : u = ((s.updTrigger k (fun _ => g)).setReg (Reg.TIM_TRG_CTL k) (setBit c 2 (decide (s.triggerT k < s.now)))).setReg
      (Reg.TIM_TRG_DONE k) 0) :
    s.trgCtl w k v = (if s.triggerT k < s.now then u.event Reg.TIM_EVENT 3 else u, .ok) := by
  subst hg
  simp only [trgCtl, hmay, ← hc, harm, ← hu, Bool.not_true, Bool.false_eq_true, if_false, decide_eq_true_eq]

/-- R460: an armed channel without a period and without a pipeline of its own triggers once at its T. -/
theorem triggerFalls_once (harmed : (s.trigger k).armed = true) (hdue : (s.trigger k).nextAt ≤ s.now) (hk : 2 ≤ k)
    (hpipe : s.pipeOn (k - 2) = false) (hper : (s.reg (Reg.TIM_TRG_PER k)).toNat = 0)
    (hg : g = { armed := false, nextAt := (s.trigger k).nextAt : Trigger })
    (hu : u = (s.updTrigger k (fun _ => g)).setRfld (Reg.TIM_TRG_CTL k) 0 1 0) :
    s.triggerFalls k = State.edgeOut (u.setReg (Reg.TIM_TRG_DONE k) (s.reg (Reg.TIM_TRG_DONE k) + 1)) k (s.trigger k).nextAt := by
  have hnotCam : ¬ k < 2 := by omega
  subst hg hu
  simp [triggerFalls, harmed, Nat.not_lt_of_le hdue, hpipe, hper, hnotCam]

end Channel

end State

/-- Settles O53: a context that may write has what `State.incWrite_in_range`, `State.adjWrite_slew`, `State.adjWrite_step` and
`State.trgCtl_arms` say, and another sees PERM; holdover and an edge fall in the state to which the clock has run on. -/
theorem timebaseAndTriggersComplete : Obligations.TimebaseAndTriggersComplete := by
  unfold Obligations.TimebaseAndTriggersComplete
  refine ⟨fun s w hi hc hf => ⟨fun inc hmay hinc hfits => ?inc, fun h off hh hmay hoff hmode => ?slew,
      fun h off u hh hmay hoff hmode hu hfree => ?step, fun hmay => ?perm, fun t hmode hleads hfirst hold => ?holdover⟩,
    fun s v w k t ctl hc hf hv => ⟨fun c g u hmay hctl harm hg hu => ?arm, fun hmay => ?armPerm,
      fun g u harmed hdue hk hpipe hper hg hu => ?edge⟩⟩
  case inc =>
    show execTimIncWrite w hi s = _
    exact whenClocked_effect hc hf (by rw [State.incWrite_in_range hmay hinc hfits]; rfl)
  case slew =>
    subst hh
    show execTimAdjSlew w hi s = _
    exact whenClocked_effect hc hf (by rw [State.adjWrite_slew hmay hoff hmode]; rfl)
  case step =>
    subst hh
    show execTimAdjStep w hi s = _
    exact whenClocked_effect hc hf (by rw [State.adjWrite_step hmay hoff hmode hu hfree]; rfl)
  case perm =>
    have hinc : s.incWrite w hi = (s, .perm) := if_pos (by rw [hmay]; rfl)
    have hadj (h : Word) : s.adjWrite w h = (s, .perm) := if_pos (by rw [hmay]; rfl)
    exact ⟨show execTimIncWrite w hi s = _ from whenClocked_effect hc hf (by rw [hinc]; rfl),
      show execTimAdjSlew w hi s = _ from whenClocked_effect hc hf (by rw [hadj]; rfl),
      show execTimAdjStep w hi s = _ from whenClocked_effect hc hf (by rw [hadj]; rfl)⟩
  case holdover =>
    show execPtpHoldover t s = _
    rw [← s.at_rfld_eq t] at hmode hold
    exact whenClocked_effect hc hf (State.holdover_begins hmode (by rwa [State.at_follows_eq]) (by rwa [State.at_rbit_eq]) hold)
  case arm =>
    subst hv
    show execTriggerArm w k ctl t s = _
    exact whenClocked_effect hc hf (by rw [State.trgCtl_arms hmay hctl harm hg hu]; rfl)
  case armPerm =>
    subst hv
    have hctl : (s.at_ t).trgCtl w k (setBit ctl 0 true) = (s.at_ t, .perm) := if_pos (by rw [hmay]; rfl)
    show execTriggerArm w k ctl t s = _
    exact whenClocked_effect hc hf (by rw [hctl]; rfl)
  case edge =>
    subst hv
    show execTriggerEdge k t s = _
    exact whenClocked_effect hc hf (State.triggerFalls_once harmed hdue hk hpipe hper hg hu)

/-! ## A held low half (R455) -/

/-- R11: TIM_INC_LO in the register map. -/
theorem findReg_timIncLo : findReg (State.unitOf Reg.TIM_INC_LO) Reg.TIM_INC_LO = some ⟨Reg.TIM_INC_LO, 4, 1, 0, .rw, 0xFFFFFFFF⟩ := by
  decide

/-- R455: a context that may set the time has its write of TIM_INC_LO held. -/
theorem State.regStore_timIncLo {s : State} {w : Nat} (hu : s.unitPresent 0x25 = true) (hmay : s.mayTime w = true) (lo : Word) :
    s.regStore w Reg.TIM_INC_LO lo = (s.setReg Reg.TIM_INC_LO lo, .ok) := by
  have hpresent : s.unitPresent (State.unitOf Reg.TIM_INC_LO) = true := hu
  have hmask : lo &&& 0xFFFFFFFF = lo := BitVec.and_allOnes
  have hrw : s.writeRW w (State.unitOf Reg.TIM_INC_LO) Reg.TIM_INC_LO 0 Reg.TIM_INC_LO lo = s.storeIf (s.mayTime w) Reg.TIM_INC_LO lo :=
    rfl
  simp only [State.regStore, hpresent, findReg_timIncLo, hmask, Nat.sub_self, Nat.zero_div, hrw, State.storeIf, hmay,
    Bool.not_true, Bool.false_eq_true, if_false, if_true]

/-- R457: context 0 may not set the time. -/
theorem State.mayTime_pos {s : State} {w : Nat} (hmay : s.mayTime w = true) : 1 ≤ w := by
  refine Nat.one_le_iff_ne_zero.mpr fun h0 => ?_
  subst h0
  simp [State.mayTime] at hmay

/-- Settles O57: the low half by `State.regStore_timIncLo`, both halves by `State.incWrite_in_range` or
`State.incWrite_out_of_range`. -/
theorem timebaseIncrementIsHeldThenApplied : Obligations.TimebaseIncrementIsHeldThenApplied := by
  unfold Obligations.TimebaseIncrementIsHeldThenApplied
  refine fun s w lo hi inc hc hf hp hw hmay hu => ⟨?held, fun hinc => ⟨fun hmin hmax => ?applied, fun hout => ?discarded⟩⟩
  case held =>
    show execRegWrite w Reg.TIM_INC_LO lo s = _
    rw [execRegWrite_of_aligned_control lo hc hf hp (State.mayTime_pos hmay) hw (by decide) (by decide) (by decide),
      State.regStore_timIncLo hu hmay]
    rfl
  case applied =>
    show execTimIncWrite w hi s = _
    exact whenClocked_effect hc hf (by rw [State.incWrite_in_range hmay hinc (State.incFits_iff.mpr ⟨hmin, hmax⟩)]; rfl)
  case discarded =>
    have hfits : State.incFits inc = false := by
      rw [← Bool.not_eq_true, State.incFits_iff]
      omega
    show execTimIncWrite w hi s = _
    exact whenClocked_effect hc hf (by rw [State.incWrite_out_of_range hmay hinc hfits]; rfl)

end Sys2Proof.Machine
end

section
/-! The commit of a camera's settings (R466). -/

namespace Sys2Proof.Machine

/-- R464, R466: the camera unit that is present judges a commit by the writer and the settings. -/
theorem execCamCommit_of_present {s u : State} {w p : Nat} (hc : s.clk.released = true) (hf : s.boot.failed = false)
    (hu : s.unitPresent 0x28 = true) (hcommit : s.commitSettings w p = (u, .ok)) : execCamCommit w p s = .next u.settle :=
  whenClocked_effect hc hf (by rw [if_pos hu, hcommit]; rfl)

namespace State

section Commit

variable {s : State} {w p width : Nat} {c : Word} (hmay : s.mayCamera w p = true) (hc : c = s.reg (Reg.CAM_EXP_C p))
  (hw : width = max 1 (fld c 0 12))
include hmay hc hw

/-- R466: settings whose second strobe falls behind the first come into force together. -/
theorem commitSettings_taken (hfits : fld c 12 2 ≠ 2 ∨ width + 32 ≤ fld c 16 16) : s.commitSettings w p =
    (s.updPipe p (fun k => { k with gen := (k.gen + 1) % 2 ^ 16, inForce := (settingRegs p).map (fun a => s.reg a) }), .ok) := by
  have hok : ¬ (fld c 12 2 = 2 && fld c 16 16 < width + 32) = true := by
    simp
    omega
  simp only [commitSettings, hmay, ← hc, ← hw, if_neg hok, Bool.not_true, Bool.false_eq_true, if_false, Nat.reducePow]

/-- R466: with SCOUNT 2 and too small a gap no setting is taken. -/
theorem commitSettings_refused (htwo : fld c 12 2 = 2) (hgap : fld c 16 16 < width + 32) :
    s.commitSettings w p = (s.event Reg.CAM_EVENT 5, .ok) := by
  have hbad : (fld c 12 2 = 2 && fld c 16 16 < width + 32) = true := by simp [htwo, hgap]
  simp only [commitSettings, hmay, ← hc, ← hw, if_pos hbad, Bool.not_true, Bool.false_eq_true, if_false]

end Commit

end State

/-- Settles O58: a commit is `State.commitSettings_taken` or `State.commitSettings_refused`, by SCOUNT and SGAP. -/
theorem cameraCommitTakesOrRefusesAll : Obligations.CameraCommitTakesOrRefusesAll := by
  unfold Obligations.CameraCommitTakesOrRefusesAll
  intro s w p width c hc hf hu hmay hreg hwidth
  have hmax : width = max 1 (fld c 0 12) := by
    rw [hwidth]
    split <;> omega
  refine ⟨fun hfits => ?taken, fun htwo hgap => ?refused⟩
  case taken =>
    show execCamCommit w p s = _
    exact execCamCommit_of_present hc hf hu (State.commitSettings_taken hmay hreg hmax hfits)
  case refused =>
    show execCamCommit w p s = _
    exact execCamCommit_of_present hc hf hu (State.commitSettings_refused hmay hreg hmax htwo hgap)

end Sys2Proof.Machine
end

section
/-! The OBS port (R521 to R527), the trace lane (R530) and the Ethernet port (R448 to R452). -/

namespace Sys2Proof.Machine

/-- R524: the port answers from the end of RESET. -/
theorem whenPort_effect {s u : State} {o : State → State} (hp : s.boot.phase ≠ 0) (ho : o s = u) : s.whenPort o = .next u.settle := by
  rw [State.whenPort, if_neg hp, ho]
  rfl

namespace State

/-! ## Answers of the port (R521 to R525) -/

theorem clocksOver_of_phase {s : State} (hp : 2 ≤ s.boot.phase) : s.clocksOver = true := decide_eq_true hp

/-- R523, R525: a READ of words that all answer. -/
theorem portRead_ok {s u : State} {a n : Nat} {bs : Bytes} (hal : a % 4 = 0) (ha : a < 2 ^ 40) (hmin : 1 ≤ n) (hmax : n ≤ 256)
    (hp : 2 ≤ s.boot.phase) (hread : portWords n s a = (u, .ok bs)) : s.portRead a n = u.answer ObsStatus.OK bs := by
  have hplace : ¬ (a % 4 != 0 || 2 ^ 40 ≤ a || n = 0 || 256 < n) = true := by
    simp
    omega
  rw [portRead, if_neg hplace, if_neg (by simp [clocksOver_of_phase hp]), hread]

/-- R523: a READ of a place or a length that there is not. -/
theorem portRead_bad {s : State} {a n : Nat} (h : a % 4 ≠ 0 ∨ 2 ^ 40 ≤ a ∨ n = 0 ∨ 256 < n) :
    s.portRead a n = s.answer ObsStatus.BADCMD [] :=
  if_pos (by simpa [or_assoc] using h)

/-- R522, R524: a RETAIN of words of the island. -/
theorem portRetain_ok {s : State} {off n : Nat} (hal : off % 4 = 0) (hmin : 1 ≤ n) (hmax : n ≤ 64) (hend : off + 4 * n ≤ 256)
    (hp : 2 ≤ s.boot.phase) : s.portRetain off n = s.answer ObsStatus.OK (slicePad s.island off (4 * n)) := by
  have hplace : ¬ (off % 4 != 0 || n = 0 || 64 < n || 256 < off + 4 * n) = true := by
    simp
    omega
  rw [portRetain, if_neg hplace, if_neg (by simp [clocksOver_of_phase hp])]

/-- R521, R527: what a BADCMD answer changes: the transaction, the count of commands and what has left. -/
theorem answer_badcmd (s : State) : s.answer ObsStatus.BADCMD [] =
    (({ s with obs := { s.obs with inTransaction := true } }).count Reg.OBS_CMDS 1).emit
      (.obs ([0x5A, BitVec.ofNat 8 ObsStatus.BADCMD] ++ [crc8 [BitVec.ofNat 8 ObsStatus.BADCMD]])) := rfl

/-- R530: a LOST record goes ahead of what waits. -/
theorem traceDrains_lost {s : State} (hlost : s.obs.lost ≠ 0) : s.traceDrains =
    s.obs.buffer.foldl sendRecord (sendRecord { s with obs := { s.obs with lost := 0, buffer := [] } }
      ([8, 8, 0, 0] ++ leBytes 8 s.now ++ leBytes 4 s.obs.lost ++ [0, 0, 0, 0])) := by
  simp only [traceDrains, if_neg hlost]
  rfl

end State

/-- R527: a CMD with bit 7 set. -/
theorem exec_obsWriteTry_of_bit7 {s : State} {cmd : Byte} (hp : s.boot.phase ≠ 0) (hcmd : bit cmd 7 = true) :
    exec (.obsWriteTry cmd) s = .next (State.settle
      (((s.count Reg.OBS_WRTRIES 1).event Reg.OBS_EVENT 0).answer ObsStatus.BADCMD [])) := by
  show execObsWriteTry cmd s = _
  exact whenPort_effect hp (if_pos hcmd)

/-- Settles O59: the answer to a write (`exec_obsWriteTry_of_bit7`), spelled out by `State.answer_badcmd`. -/
theorem obsPortHasNoWrite : Obligations.ObsPortHasNoWrite := by
  unfold Obligations.ObsPortHasNoWrite
  intro s cmd hp hcmd
  rw [exec_obsWriteTry_of_bit7 hp hcmd, State.answer_badcmd]

/-- Settles O55: a row of the Ethernet port acts once the clocks run and its condition holds, one of the OBS port or the trace
lane once RESET is over (`whenPort_effect`). -/
theorem portsAndTraceComplete : Obligations.PortsAndTraceComplete := by
  unfold Obligations.PortsAndTraceComplete
  refine ⟨fun s hc hf hu => ⟨fun full hen hp => ?linkUp, fun hup => ?linkLoss, fun f t hup hp => ?damaged,
      fun f t hup hp => ?received, fun w idx hw => ?doorbell, fun t hup hwait => ?sent⟩,
    fun s hp => ⟨?ident, ?boot, fun a n u bs hal ha hmin hmax hclk hread => ?read, fun a n hbad => ?readBad,
      fun off n hal hmin hmax hend hclk => ?retain, fun hclk => ?snap, fun cmd hcmd => exec_obsWriteTry_of_bit7 hp hcmd,
      fun cmd hwrite hcmd => ?badCommand, rfl⟩,
    fun s hp hlost => ?lost⟩
  case linkUp =>
    show execEthAnDone full s = _
    exact whenClocked_effect hc hf (if_pos (by simp [hu, hen, hp]))
  case linkLoss =>
    show execEthLinkLoss s = _
    exact whenClocked_effect hc hf (if_pos hup)
  case damaged =>
    show execEthRxFrame f false t s = _
    exact whenClocked_effect hc hf ((if_pos (by simp [hup, hp])).trans rfl)
  case received =>
    show execEthRxFrame f true t s = _
    exact whenClocked_effect hc hf (if_pos (by simp [hup, hp]))
  case doorbell =>
    show execEthTxdb w idx s = _
    exact whenClocked_effect hc hf ((if_neg (by simp [hu])).trans (if_pos (by simpa using hw)))
  case sent =>
    show execEthTxDone t s = _
    exact whenClocked_effect hc hf (if_pos (by simp [hup, hwait]))
  case ident => exact show execObsIdent s = _ from whenPort_effect hp rfl
  case boot => exact show execObsBoot s = _ from whenPort_effect hp rfl
  case read =>
    show execObsRead a n s = _
    exact whenPort_effect hp (State.portRead_ok hal ha hmin hmax hclk hread)
  case readBad =>
    show execObsRead a n s = _
    exact whenPort_effect hp (State.portRead_bad hbad)
  case retain =>
    show execObsRetain off n s = _
    exact whenPort_effect hp (State.portRetain_ok hal hmin hmax hend hclk)
  case snap =>
    show execObsSnap s = _
    exact whenPort_effect hp (if_neg (by simp [State.clocksOver_of_phase hclk]))
  case badCommand =>
    have hunlisted : ¬ (bit cmd 7 || (decide (1 ≤ cmd.toNat) && decide (cmd.toNat ≤ 5))) = true := by
      simp [hwrite]
      omega
    show execObsBadcmd cmd s = _
    exact whenPort_effect hp (if_neg hunlisted)
  case lost =>
    show execTraceLostSend s = _
    exact whenPort_effect hp (State.traceDrains_lost hlost)

end Sys2Proof.Machine
end
